-- ==== Sys2Proof/Word.lean ====
section
/-! DEFINITION. The words that cross a link or rest in the store, and the two plain synonyms every block uses. -/

namespace Sys2Proof

/-- One byte of a frame or of the settings image (R175). -/
abbrev Byte := BitVec 8

/-- One 16-bit parameter value of the settings image (R178). -/
abbrev Word16 := BitVec 16

/-- The 24-bit identity of a child seat tag (R69). -/
abbrev TagId := BitVec 24

/-- A timer on the 1 ms base: `none` while stopped, `some n` while running with `n` ms left. -/
abbrev Timer := Option Nat

end Sys2Proof
end

