-- ==== Sys2Proof/Syntax.lean ====
section
/-! DEFINITION. The commands the Concentrator takes: one constructor of `Instr` for each row of spec/opcode_table.json,
with the operands the spec's own text gives it (the table lists none). -/

namespace Sys2Proof

/-- The five seat rows, counted from the front (R1). -/
inductive Row where
  | r1 | r2 | r3 | r4 | r5
  deriving DecidableEq, Repr

/-- The three seats of a row, counted from the left (R1). -/
inductive Seat where
  | s1 | s2 | s3
  deriving DecidableEq, Repr

/-- A seating position: its row and its seat (R1). -/
structure Pos where
  row  : Row
  seat : Seat
  deriving DecidableEq, Repr

/-- The three causes of the one reset (R174). -/
inductive ResetCause where
  | powerOn | resetPin | supplyBelow
  deriving DecidableEq, Repr

/-- The straps read at a reset: VAR2..VAR0 (R4), ADOFS (R6) and OUTCFG (R144). -/
structure Straps where
  var    : BitVec 3
  adofs  : Bool
  outcfg : Bool
  deriving DecidableEq, Repr

/-- What the settings store gave autoload: no acknowledgement on three successive attempts, or the bytes it holds
from byte 0 (R166). -/
inductive StoreAnswer where
  | unacknowledged
  | image (bytes : List Byte)
  deriving DecidableEq, Repr

/-- The wake events of R172. -/
inductive WakeSource where
  | wake0 | wake1 | wake2 | canActivity
  | chipSelect (asserted : Bool)
  | ignition
  deriving DecidableEq, Repr

/-- The two ends of the 1 ms qualification of a supply dip (R173). -/
inductive SupplyEdge where
  | fellBelow | returnedAbove
  deriving DecidableEq, Repr

/-- The two cadence timers (R137). -/
inductive CadenceId where
  | chime | flash
  deriving DecidableEq, Repr

/-- How a settings write ended at the store (R170). -/
inductive WriteOutcome where
  | readBackAsWritten | notAcknowledged | headerFailed | readbackMismatch
  deriving DecidableEq, Repr

/-- The commands. The docstring of each names its row of spec/opcode_table.json and what its operands are. -/
inductive Instr where
  /-- RESET: its cause and the straps it latches (R174, R4, R6, R144). -/
  | reset (cause : ResetCause) (straps : Straps)
  /-- AUTOLOAD_END: what the store answered (R166). -/
  | autoloadEnd (answer : StoreAnswer)
  /-- IGN_LINE_CHANGE: the level the raw line now has, `true` for high (R171). -/
  | ignLineChange (high : Bool)
  /-- IGN_ASSERTED (R131). -/
  | ignAsserted
  /-- IGN_DEASSERTED (R131). -/
  | ignDeasserted
  /-- HOLD_SET (R173). -/
  | holdSet
  /-- HOLD_CLEARED (R173). -/
  | holdCleared
  /-- REST_TIMER_EXPIRY (R171). -/
  | restTimerExpiry
  /-- WAKE_EVENT: what woke the part (R172). -/
  | wakeEvent (source : WakeSource)
  /-- END_OF_WAKE_SETTLE (R172). -/
  | endOfWakeSettle
  /-- SECONDS_COUNT_TICK (R171). -/
  | secondsCountTick
  /-- SLOT_TIMER_EXPIRY (R22). -/
  | slotTimerExpiry
  /-- RESPONSE_WINDOW_EXPIRY (R20). -/
  | responseWindowExpiry
  /-- SAMPLE_ANSWER: the bytes received when the answer was complete (R39, R176). -/
  | sampleAnswer (bytes : List Byte)
  /-- READ_ID_ANSWER: the bytes received (R27, R176). -/
  | readIdAnswer (bytes : List Byte)
  /-- READ_REG_ANSWER: the bytes received (R29, R176). -/
  | readRegAnswer (bytes : List Byte)
  /-- WRITE_REG_ANSWER: the bytes received (R29, R176). -/
  | writeRegAnswer (bytes : List Byte)
  /-- SENSE_MATED: the row whose sense input changed to mated (R11). -/
  | senseMated (row : Row)
  /-- ROW_ARRIVAL: the row whose mating debounce expired (R11). -/
  | rowArrival (row : Row)
  /-- ROW_REMOVAL: the row whose sense input reads unmated (R13). -/
  | rowRemoval (row : Row)
  /-- POWER_SETTLE_EXPIRY: the row (R26). -/
  | powerSettleExpiry (row : Row)
  /-- POWER_OFF_TIMER_EXPIRY: the row (R34). -/
  | powerOffTimerExpiry (row : Row)
  /-- ONLINE_STABILITY_TIMER_EXPIRY: the row (R31). -/
  | onlineStabilityTimerExpiry (row : Row)
  /-- POSITION_BECOMES_STALE: the position (R56). -/
  | positionBecomesStale (pos : Pos)
  /-- SCAN_TIMER_EXPIRY: the position, and the moment of expiry as a count of the 1 ms base (R62, R64). -/
  | scanTimerExpiry (pos : Pos) (moment : Nat)
  /-- TAG_READ_TIMER_EXPIRY: the row (R65). -/
  | tagReadTimerExpiry (row : Row)
  /-- LOCK_HOLD_TIMER_EXPIRY (R110). -/
  | lockHoldTimerExpiry
  /-- DELAY_TIMER_EXPIRY: the position (R124). -/
  | delayTimerExpiry (pos : Pos)
  /-- AUDIBLE_TIMER_EXPIRY: the position (R126). -/
  | audibleTimerExpiry (pos : Pos)
  /-- CHIME_PERIOD_END (R141). -/
  | chimePeriodEnd
  /-- FLASH_PERIOD_END (R143). -/
  | flashPeriodEnd
  /-- CADENCE_ON_PART_END: which timer's on part ended (R137). -/
  | cadenceOnPartEnd (timer : CadenceId)
  /-- OUTEN_ASSERTED (R146). -/
  | outenAsserted
  /-- OUTEN_DEASSERTED (R144). -/
  | outenDeasserted
  /-- NOP: a well-formed frame with command 0x01 and its argument byte (R151). -/
  | nop (arg : Byte)
  /-- GET_FRONT: command 0x02 (R151). -/
  | getFront (arg : Byte)
  /-- GET_POSITION: command 0x03 (R151). -/
  | getPosition (arg : Byte)
  /-- GET_STATUS: command 0x04 (R151). -/
  | getStatus (arg : Byte)
  /-- LOCK: command 0x0A, the argument being the hold select (R107). -/
  | lock (arg : Byte)
  /-- UNLOCK: command 0x0B (R109). -/
  | unlock (arg : Byte)
  /-- FRAME_ERROR: a frame of a wrong bit count or a failing CRC-8 (R150). -/
  | frameError
  /-- UNKNOWN_COMMAND: a well-formed frame with another command byte (R150). -/
  | unknownCommand (command : Byte) (arg : Byte)
  /-- VEHICLE_STATE: bytes 0, 1 and 2 of the frame (R156, R177). -/
  | vehicleState (speed : Byte) (gear : Byte) (closures : Byte)
  /-- FRESHNESS_TIMER_EXPIRY (R156). -/
  | freshnessTimerExpiry
  /-- DEGRADE_TIMER_EXPIRY (R156). -/
  | degradeTimerExpiry
  /-- MAP_TIMER_EXPIRY (R157). -/
  | mapTimerExpiry
  /-- MAP_REQUEST (R158). -/
  | mapRequest
  /-- REMINDER_ACK: its 16-bit word (R127, R177). -/
  | reminderAck (mask : Word16)
  /-- READ_PARAM: the parameter id and the request's value field (R164, R177). -/
  | readParam (id : Word16) (value : Word16)
  /-- WRITE_PARAM: the parameter id and the value (R169). -/
  | writeParam (id : Word16) (value : Word16)
  /-- CLEAR_CHILD_LIST (R81). -/
  | clearChildList
  /-- READ_CHILD_ENTRY: the index (R70). -/
  | readChildEntry (index : Byte)
  /-- READ_ROW: the row number as sent (R43). -/
  | readRow (row : Byte)
  /-- UNKNOWN_SERVICE_REQUEST: the kind byte (R164). -/
  | unknownServiceRequest (kind : Byte)
  /-- WRITE_COMPLETION: how the write in flight ended (R170). -/
  | writeCompletion (outcome : WriteOutcome)
  /-- TRANSMIT_ACKNOWLEDGED (R159). -/
  | transmitAcknowledged
  /-- BUS_OFF (R159). -/
  | busOff
  /-- BUS_OFF_RECOVERY (R159). -/
  | busOffRecovery
  /-- MATING_DEBOUNCE_STOP: the row whose sense input changed to unmated (R11). -/
  | matingDebounceStop (row : Row)
  /-- SUPPLY_BELOW_HOLD_THRESHOLD: the supply fell below 7.0 V, or returned above it (R173). -/
  | supplyBelowHoldThreshold (edge : SupplyEdge)
  /-- RESET_RELEASE (R174). -/
  | resetRelease
  deriving DecidableEq, Repr

/-- The row number 1..5 (R1). -/
def Row.num : Row → Nat
  | .r1 => 1 | .r2 => 2 | .r3 => 3 | .r4 => 4 | .r5 => 5

/-- The seat number 1..3 (R1). -/
def Seat.num : Seat → Nat
  | .s1 => 1 | .s2 => 2 | .s3 => 3

/-- The position number p = 3 × (r − 1) + s (R1). -/
def Pos.num (p : Pos) : Nat := 3 * (p.row.num - 1) + p.seat.num

end Sys2Proof
end

