-- ==== Sys2Proof/Decode.lean ====
section
/-! DEFINITION. The command that a word spells by the table's bits. spec/opcode_table.json gives no row any bits: a command
arrives as a frame, an expiry or a line change, never as a numbered word. So no word spells a command. -/

namespace Sys2Proof

/-- The command of a word of the opcode table: none, since no row of the table has bits. The frames that do spell
commands are read in Machine/Ports.lean. -/
def decodeTableWord (_nbits _w : Nat) : Option Instr := none

end Sys2Proof
end

