-- ==== Sys2Proof/Config.lean ====
section
/-! DEFINITION. The free values: what the spec leaves without a value although the part goes on.
Each is a constant without a body, so that nothing can be proved of the value it takes. -/

namespace Sys2Proof

/-- FREE VALUE (assumption 3). The orientation a FOUND carries when its orientation byte is neither 0 (REAR) nor
1 (FORWARD): R176 names the two codes and does not list the others among the codes taken as CRC_ERROR.
`true` stands for FORWARD. -/
opaque Config.orientationOfCode : Byte → Bool

/-- FREE VALUE (assumption 4). What the settings store holds after a write that did not complete OK, from the bytes it
held before and the bytes the write was to leave (R170 gives no contents for a failed or broken-off write). -/
opaque Config.storeAfterFailure : List Byte → List Byte → List Byte

end Sys2Proof
end

