-- ==== Sys2Proof/Machine/Table.lean ====
section
/-! DEFINITION. Tables of a fixed number of like things: one per row, per seat, per position, per mat cell. -/

namespace Sys2Proof.Machine

/-- One value for each row 1..5. -/
structure PerRow (α : Type) where
  row1 : α
  row2 : α
  row3 : α
  row4 : α
  row5 : α
  deriving DecidableEq, Repr

/-- One value for each seat 1..3 of a row. -/
structure PerSeat (α : Type) where
  seat1 : α
  seat2 : α
  seat3 : α
  deriving DecidableEq, Repr

/-- One value for each position 1..15: the positions of row r are the three values at r (R1). -/
structure PerPos (α : Type) where
  rows : PerRow (PerSeat α)
  deriving DecidableEq, Repr

/-- One value for each cell 0..7 of a seat mat. -/
structure PerCell (α : Type) where
  c0 : α
  c1 : α
  c2 : α
  c3 : α
  c4 : α
  c5 : α
  c6 : α
  c7 : α
  deriving DecidableEq, Repr

def PerRow.all {α : Type} (a : α) : PerRow α := ⟨a, a, a, a, a⟩
def PerSeat.all {α : Type} (a : α) : PerSeat α := ⟨a, a, a⟩
def PerPos.all {α : Type} (a : α) : PerPos α := ⟨PerRow.all (PerSeat.all a)⟩
def PerCell.all {α : Type} (a : α) : PerCell α := ⟨a, a, a, a, a, a, a, a⟩

def PerRow.get {α : Type} (t : PerRow α) : Row → α
  | .r1 => t.row1 | .r2 => t.row2 | .r3 => t.row3 | .r4 => t.row4 | .r5 => t.row5

def PerSeat.get {α : Type} (t : PerSeat α) : Seat → α
  | .s1 => t.seat1 | .s2 => t.seat2 | .s3 => t.seat3

def PerPos.get {α : Type} (t : PerPos α) (p : Pos) : α := (t.rows.get p.row).get p.seat

/-- The table with the value at `r` changed by `f`. -/
def PerRow.modify {α : Type} (t : PerRow α) (r : Row) (f : α → α) : PerRow α :=
  match r with
  | .r1 => { t with row1 := f t.row1 }
  | .r2 => { t with row2 := f t.row2 }
  | .r3 => { t with row3 := f t.row3 }
  | .r4 => { t with row4 := f t.row4 }
  | .r5 => { t with row5 := f t.row5 }

def PerSeat.modify {α : Type} (t : PerSeat α) (k : Seat) (f : α → α) : PerSeat α :=
  match k with
  | .s1 => { t with seat1 := f t.seat1 }
  | .s2 => { t with seat2 := f t.seat2 }
  | .s3 => { t with seat3 := f t.seat3 }

def PerPos.modify {α : Type} (t : PerPos α) (p : Pos) (f : α → α) : PerPos α :=
  ⟨t.rows.modify p.row (fun u => u.modify p.seat f)⟩

/-- The table whose value at each row is `f` of the row and the old value. -/
def PerRow.mapIdx {α β : Type} (t : PerRow α) (f : Row → α → β) : PerRow β :=
  ⟨f .r1 t.row1, f .r2 t.row2, f .r3 t.row3, f .r4 t.row4, f .r5 t.row5⟩

def PerSeat.mapIdx {α β : Type} (t : PerSeat α) (f : Seat → α → β) : PerSeat β :=
  ⟨f .s1 t.seat1, f .s2 t.seat2, f .s3 t.seat3⟩

def PerPos.mapIdx {α β : Type} (t : PerPos α) (f : Pos → α → β) : PerPos β :=
  ⟨t.rows.mapIdx (fun r u => u.mapIdx (fun k a => f ⟨r, k⟩ a))⟩

def PerCell.toList {α : Type} (t : PerCell α) : List α := [t.c0, t.c1, t.c2, t.c3, t.c4, t.c5, t.c6, t.c7]

/-- The table whose value at cell i is `f i`. -/
def PerCell.ofFn {α : Type} (f : Nat → α) : PerCell α := ⟨f 0, f 1, f 2, f 3, f 4, f 5, f 6, f 7⟩

def allRows : List Row := [.r1, .r2, .r3, .r4, .r5]
def allSeats : List Seat := [.s1, .s2, .s3]

/-- The three positions of a row, in order. -/
def rowPositions (r : Row) : List Pos := [⟨r, .s1⟩, ⟨r, .s2⟩, ⟨r, .s3⟩]

/-- The positions 1..15, in order. -/
def allPos : List Pos :=
  rowPositions .r1 ++ rowPositions .r2 ++ rowPositions .r3 ++ rowPositions .r4 ++ rowPositions .r5

/-- The position of a number 1..15 (R1). -/
def posOfNum (n : Nat) : Option Pos := allPos.find? (fun p => p.num == n)

/-- The row of a number 1..5 (R1). -/
def rowOfNum (n : Nat) : Option Row := allRows.find? (fun r => r.num == n)

/-- Rows 2 to 5 stand on floor rails and have a sense input; row 1 has none (section 1.4). -/
def senseRow (r : Row) : Bool := r != .r1

/-- Positions 1 to 3 form group FRONT, the others REAR (R2). -/
def isFront (p : Pos) : Bool := p.row == .r1

/-- Positions 2 and 3 are the restraint positions (R3). -/
def isRestraint (p : Pos) : Bool := p.row == .r1 && p.seat != .s1

end Sys2Proof.Machine
end

