-- ==== Sys2Proof/Machine/Defaults.lean ====
section
/-! DEFINITION. The built-in defaults of every settings group, as the 16-bit values of R178's indexes. -/

namespace Sys2Proof.Machine

/-- A list of numbers as 16-bit parameter values. -/
def words (l : List Nat) : List Word16 := l.map (BitVec.ofNat 16)

/-- th1, th2, th3, h, minimum footprint, dwell and stale limit of a group (R86). -/
def groupDefaults (front : Bool) : List Nat :=
  if front then [150, 750, 2250, 100, 4, 6, 60] else [150, 750, 2000, 100, 3, 10, 150]

/-- Group 0: the two group sets, rest time 600 s, no wake input enabled, scan intervals 1000 and 4000 ms (R165, R62). -/
def defaultDevice : List Word16 :=
  words (groupDefaults true ++ groupDefaults false ++ [600, 0, 1000, 4000])

/-- The fitted-sensor flags of R14: bit 0 tension, bit 1 anchors, bit 2 tag coil. -/
def defaultSensors (p : Pos) : Nat :=
  if isRestraint p then 7 else if isFront p then 0 else 6

/-- Groups 1..15: offsets 0, gains 256, k 0, s 2, cell threshold 100 (R46), the sensors of R14 and no override.
The optional values start from the group's (R2; assumption 5). -/
def defaultPosition (p : Pos) : List Word16 :=
  words (List.replicate 8 0 ++ List.replicate 8 256 ++ [0, 2, 100, defaultSensors p, 0]
    ++ groupDefaults (isFront p))

/-- Group 16 (R116). -/
def defaultReminder : List Word16 := words [10, 25, 6000, 2000, 1000, 90, 3]

/-- Group 17: the four lists of R120, each a term count and eight term words (bits 3..0 signal, bit 4 invert, bit 5
join, 1 for OR). -/
def defaultLists : List Word16 :=
  words ([3, 0, 8, 9, 0, 0, 0, 0, 0] ++ [2, 1, 35, 0, 0, 0, 0, 0, 0]
    ++ [4, 0, 8, 9, 5, 0, 0, 0, 0] ++ [1, 2, 0, 0, 0, 0, 0, 0, 0])

/-- Group 18: the default poll schedule (R23). -/
def defaultSchedule : List Word16 :=
  words ([1, 2, 3, 1, 4, 1, 5, 2, 1, 3, 4, 1, 5, 1, 2, 3] ++ [1, 4, 5, 1, 2, 1, 3, 4, 1, 5, 2, 1, 3, 1, 4, 5])

/-- Group 19: the default check table (R28): three entries, the write value present (bit 8 of the register word) in the
second and the third. -/
def defaultCheck : List Word16 :=
  words ([3] ++ [0, 0xFF00, 0x5A00, 0] ++ [0x105, 0x000F, 8, 8] ++ [0x106, 1, 1, 1] ++ List.replicate 20 0)

/-- Group 20: base 0x3C0, VEHICLE_STATE 0x210, and the kind-to-class map of R160 (CLASS_CHANGE by class; BUCKLE_CHANGE
and REMINDER routine; the other kinds urgent). -/
def defaultPort : List Word16 := words [0x3C0, 0x210, 0x5542]

end Sys2Proof.Machine
end

