-- ==== Sys2Proof/Machine/State.lean ====
section
/-! DEFINITION. The whole state of the Concentrator, block by block as section 0.3 lists the blocks, and its values
after reset. -/

namespace Sys2Proof.Machine

/-- The reasons of INDETERMINATE (R84). -/
inductive Reason where
  | rowStarting | rowFailed | staleSamples | cellFaults | evidenceConflict
  | uncalibrated | positionConfigFault | variantFault | starting
  deriving DecidableEq, Repr

/-- A class with its reason: one settled or published record (R84). -/
inductive ClassRecord where
  | vacant | object | smallOccupant | adult | childSeatRear | childSeatForward | childSeat
  | indeterminate (reason : Reason)
  | notInstalled | notFitted
  deriving DecidableEq, Repr

/-! ### Supply and Wake Monitor -/

/-- The device states (section 11.4). -/
inductive Device where
  | starting | run | rest | sleep
  deriving DecidableEq, Repr

/-- The supply against the 7.0 V threshold: not below it, below it for less than 1 ms (with what is left of the
millisecond), or below it for 1 ms (R173). -/
inductive Supply where
  | normal
  | dipping (left : Nat)
  | low
  deriving DecidableEq, Repr

/-- The Supply and Wake Monitor (R171 to R174). -/
structure Monitor where
  /-- the device state -/
  device      : Device
  /-- the part is held in reset (R174) -/
  inReset     : Bool
  /-- the HOLD flag -/
  hold        : Bool
  /-- the supply against 7.0 V -/
  supply      : Supply
  /-- the debounced IGN line -/
  ign         : Bool
  /-- the 50 ms debounce of the IGN line -/
  ignDebounce : Timer
  /-- the rest timer -/
  restTimer   : Timer
  /-- the 4 ms wake settle -/
  wakeSettle  : Timer
  /-- the seconds count -/
  seconds     : BitVec 32
  /-- the MODEL's own: ms of the current second, 0..999 (assumption 1) -/
  subSecond   : Nat
  /-- the MODEL's own: base ticks since reset (assumption 1) -/
  now         : Nat
  deriving DecidableEq, Repr

/-- The input lines the part reads more than once: the sense inputs (true = mated), IGN (true = high), OUTEN. -/
structure Pins where
  sense   : PerRow Bool
  ignLine : Bool
  outen   : Bool
  deriving DecidableEq, Repr

/-! ### Row Line Controller -/

/-- The row states (section 2.3). -/
inductive RowState where
  | absent | probing | checking | online | recovering | failed
  deriving DecidableEq, Repr

/-- The row causes (R36). -/
inductive RowCause where
  | none | senseMated | senseUnmated | checkPassed | probeExhausted | checkExhausted
  | errorScore | recoveryExhausted | noSlot
  deriving DecidableEq, Repr

/-- The power settle timer: stopped, running or expired (R25, R26). -/
inductive Settle where
  | stopped
  | running (left : Nat)
  | expired
  deriving DecidableEq, Repr

/-- The phases of the check walk (R29). -/
inductive Phase where
  | read | write | reread
  deriving DecidableEq, Repr

/-- The check walk: entry index, phase and failed attempts (R29). -/
structure Walk where
  entry    : Nat
  phase    : Phase
  attempts : Nat
  deriving DecidableEq, Repr

/-- The identity a READ_ID answer gives (R19). -/
structure Identity where
  kind     : Byte
  revision : Byte
  serial   : BitVec 32
  deriving DecidableEq, Repr

/-- A tag read in flight (R37). `discard` is set when the position's tag coil flag is cleared while the read runs: its
result is then discarded at completion (R15). -/
structure TagRead where
  seat    : Seat
  number  : BitVec 2
  discard : Bool
  deriving DecidableEq, Repr

/-- One cell of a sample: its code and its fault mark (R38). -/
structure CellReading where
  code    : BitVec 12
  faulted : Bool
  deriving DecidableEq, Repr

/-- A buckle reading of a sample (R38). -/
inductive BuckleReading where
  | isOpen | latched | fault
  deriving DecidableEq, Repr

/-- An anchor reading of a sample (R38). -/
inductive AnchorReading where
  | isOpen | engaged | notFitted
  deriving DecidableEq, Repr

/-- A seat's part of a sample; a tension of `none` is NOT_FITTED (R38). -/
structure SeatPart where
  cells       : PerCell CellReading
  tension     : Option (BitVec 10)
  buckle      : BuckleReading
  leftAnchor  : AnchorReading
  rightAnchor : AnchorReading
  deriving DecidableEq, Repr

/-- One row record (R25). -/
structure RowRecord where
  state      : RowState
  rpwr       : Bool
  mating     : Timer
  settle     : Settle
  powerOff   : Timer
  idFailures : Nat
  walk       : Walk
  score      : Nat
  stability  : Timer
  recovery   : Nat
  cause      : RowCause
  identity   : Option Identity
  sequence   : BitVec 4
  tagCounter : BitVec 2
  tagRead    : Option TagRead
  latch      : PerSeat (Option SeatPart)
  deriving DecidableEq, Repr

/-- The four kinds of poll (R19). -/
inductive PollKind where
  | sample | readId | readReg | writeReg
  deriving DecidableEq, Repr

/-- The exchange on the line: the row, the kind, the sequence sent and the bytes of the poll. `detached` marks an
exchange of a check walk that a write of the check table has restarted (R30). -/
structure Exchange where
  row      : Row
  kind     : PollKind
  sequence : BitVec 4
  poll     : List Byte
  detached : Bool
  deriving DecidableEq, Repr

/-- The slot timer (R22). -/
inductive SlotTimer where
  | stopped
  | suspended
  | running (left : Nat)
  deriving DecidableEq, Repr

/-- The Row Line Controller. -/
structure RowLine where
  rows     : PerRow RowRecord
  timer    : SlotTimer
  pointer  : BitVec 5
  exchange : Option Exchange
  deriving DecidableEq, Repr

/-! ### Load Evaluator -/

/-- The sample age's mode (R55). -/
inductive AgeMode where
  | stopped | running | frozen
  deriving DecidableEq, Repr

/-- The load phase (R45). -/
inductive LoadPhase where
  | stopped | awaiting | live
  deriving DecidableEq, Repr

/-- One load state (R44). -/
structure LoadState where
  cells        : PerCell Nat
  total        : Nat
  compensation : Nat
  effective    : Nat
  filtered     : Nat
  footprint    : Nat
  faultCount   : Nat
  age          : Nat
  ageMode      : AgeMode
  phase        : LoadPhase
  cellFaults   : Bool
  stale        : Bool
  deriving DecidableEq, Repr

/-! ### Child Seat Unit -/

/-- The orientation of a child seat (R69). -/
inductive Orientation where
  | rear | forward
  deriving DecidableEq, Repr

/-- The state of an entry (R69). -/
inductive EntryState where
  | present | provisional | missing
  deriving DecidableEq, Repr

/-- One entry of the child seat list (R69). -/
structure Entry where
  tag       : TagId
  orient    : Orientation
  state     : EntryState
  pos       : Pos
  firstSeen : BitVec 32
  confirmed : BitVec 32
  deriving DecidableEq, Repr

/-- What the Child Seat Unit keeps for one position: the scan timer and, once it has expired, the moment (R62); the
urgent request (R63); the contest mark (R72); the FAULT count and the UNKNOWN mark (R67). -/
structure Coil where
  scan    : Timer
  due     : Option Nat
  urgent  : Bool
  contest : Option TagId
  faults  : Nat
  unknown : Bool
  deriving DecidableEq, Repr

/-- The Child Seat Unit. -/
structure ChildUnit where
  entries   : List Entry
  coils     : PerPos Coil
  tagTimers : PerRow Timer
  deriving DecidableEq, Repr

/-! ### Classifier -/

/-- A debounced buckle (R97). -/
inductive Buckle where
  | isOpen | latched | unknown
  deriving DecidableEq, Repr

/-- One debounced anchor with its previous reading, `true` for ENGAGED (R68). -/
structure Anchor where
  engaged  : Bool
  previous : Option Bool
  deriving DecidableEq, Repr

/-- The Classifier's state of one position (R83). -/
structure ClassState where
  band         : Nat
  sampled      : Bool
  previous     : Option ClassRecord
  dwell        : Nat
  settled      : ClassRecord
  buckle       : Buckle
  prevBuckle   : Option BuckleReading
  buckleFaults : Nat
  left         : Anchor
  right        : Anchor
  deriving DecidableEq, Repr

/-! ### Publication Unit -/

/-- The Publication Unit (R102, R103, R106). -/
structure Publication where
  table     : PerPos ClassRecord
  epoch     : BitVec 16
  locked    : Bool
  holdTimer : Timer
  marks     : PerPos Bool
  deriving DecidableEq, Repr

/-! ### Reminder Engine -/

/-- The reminder states (R115). -/
inductive RemState where
  | off | wait | visual | audible | silenced
  deriving DecidableEq, Repr

/-- The Reminder Engine's state of one position (R115). Both timers are in ms. -/
structure Reminder where
  state    : RemState
  delay    : Timer
  audible  : Timer
  episodes : Nat
  start    : Bool
  escalate : Bool
  deriving DecidableEq, Repr

/-! ### Cadence Generator -/

/-- A cadence timer (R137). -/
structure CadenceTimer where
  prescaler : Nat
  period    : Nat
  onCount   : Nat
  unit      : Nat
  sub       : Nat
  running   : Bool
  deriving DecidableEq, Repr

/-- The chime profiles (R139). -/
inductive Profile where
  | none | front | rear
  deriving DecidableEq, Repr

/-- One output's gate: closed (OUTEN deasserted, or outside RUN and REST), release-pending, or following its level
(R144 to R146). -/
inductive Gate where
  | closed | pending | following
  deriving DecidableEq, Repr

/-- The Cadence Generator. -/
structure Cadence where
  chime        : CadenceTimer
  flash        : CadenceTimer
  active       : Profile
  copy         : PerPos RemState
  chimeGate    : Gate
  telltaleGate : Gate
  deriving DecidableEq, Repr

/-! ### Restraint Port -/

/-- The response statuses (R149). -/
inductive Status where
  | ok | notReady | frameError | unknownCommand | badArgument
  deriving DecidableEq, Repr

/-- A prepared response (R149). -/
structure Response where
  echo    : Byte
  status  : Status
  payload : BitVec 12
  deriving DecidableEq, Repr

/-- A request taken: command and argument (R148). -/
structure Request where
  command  : Byte
  argument : Byte
  deriving DecidableEq, Repr

/-- The Restraint Port. `wakingFrame` marks the frame whose chip-select assertion woke the part, until it ends
(R153). -/
structure Restraint where
  lastRequest : Option Request
  response    : Response
  ready       : Bool
  wakingFrame : Bool
  deriving DecidableEq, Repr

/-! ### Body Port -/

/-- The gears (R156). -/
inductive Gear where
  | park | reverse | neutral | drive | unknown
  deriving DecidableEq, Repr

/-- The five closures, `true` for open (R156). -/
structure Closures where
  frontLeft    : Bool
  frontRight   : Bool
  slidingLeft  : Bool
  slidingRight : Bool
  rear         : Bool
  deriving DecidableEq, Repr

/-- The freshness of the vehicle-state copy (R156). -/
inductive Freshness where
  | fresh | stale | degraded
  deriving DecidableEq, Repr

/-- The vehicle-state copy (R156). -/
structure Vehicle where
  speed     : Byte
  gear      : Gear
  closures  : Closures
  freshness : Freshness
  deriving DecidableEq, Repr

/-- The notice kinds (R160). -/
inductive NoticeKind where
  | classChange | buckleChange | reminder | childSeatAdded | childSeatMoved | childSeatMissing | rowChange | fault
  deriving DecidableEq, Repr

/-- A notice's subject: a row for ROW_CHANGE, else a position (R160). -/
inductive Subject where
  | position (p : Pos)
  | row (r : Row)
  deriving DecidableEq, Repr

/-- A notice (R160). -/
structure Notice where
  kind    : NoticeKind
  subject : Subject
  old     : Byte
  new     : Byte
  reason  : Byte
  tag     : Option TagId
  deriving DecidableEq, Repr

/-- A queued notice, with the class it took on entry and whether it is in the transmit slot (R160, R161). -/
structure QueueEntry where
  notice : Notice
  urgent : Bool
  inSlot : Bool
  deriving DecidableEq, Repr

/-- A service reply: the request kind, the reply code, the content, and the index of its next unsent frame (R177). -/
structure Reply where
  kind    : Byte
  code    : BitVec 4
  content : List Byte
  next    : Nat
  deriving DecidableEq, Repr

/-- Whose frame is in the transmit slot (R159). -/
inductive SlotOwner where
  | occMap | beltMap | reply | notice
  deriving DecidableEq, Repr

/-- The frame in the transmit slot (R159). -/
structure SlotFrame where
  owner : SlotOwner
  canId : BitVec 11
  data  : List Byte
  deriving DecidableEq, Repr

/-- The Body Port (section 10). A map that is due holds the bytes of its snapshot. -/
structure Body where
  vehicle     : Vehicle
  freshTimer  : Timer
  degrade     : Timer
  mapTimer    : Timer
  occMap      : Option (List Byte)
  beltMap     : Option (List Byte)
  queue       : List QueueEntry
  resync      : Bool
  urgentCount : Nat
  reply       : Option Reply
  heldReply   : Option Reply
  slot        : Option SlotFrame
  busOff      : Bool
  deriving DecidableEq, Repr

/-! ### Settings Unit -/

/-- The configuration state (R165). -/
inductive ConfigState where
  | configured | unconfigured | configFault | storeInconsistent
  deriving DecidableEq, Repr

/-- The active settings, group by group, as the values of R178's indexes. -/
structure Groups where
  device    : List Word16
  positions : PerPos (List Word16)
  reminder  : List Word16
  lists     : List Word16
  schedule  : List Word16
  check     : List Word16
  port      : List Word16
  deriving DecidableEq, Repr

/-- The settings write in flight (R169). -/
structure WriteInFlight where
  id    : Word16
  value : Word16
  deriving DecidableEq, Repr

/-- The Settings Unit. `store` is what the settings store holds as the part last read or wrote it. -/
structure Settings where
  active       : Groups
  config       : ConfigState
  posFault     : PerPos Bool
  uncalibrated : PerPos Bool
  gainWritten  : PerPos Bool
  write        : Option WriteInFlight
  store        : List Byte
  deriving DecidableEq, Repr

/-! ### The part -/

/-- The whole state. `pending` is the queue of the commands that are waiting, first in, first out. -/
structure State where
  straps   : Straps
  pins     : Pins
  monitor  : Monitor
  line     : RowLine
  load     : PerPos LoadState
  child    : ChildUnit
  cls      : PerPos ClassState
  pub      : Publication
  rem      : PerPos Reminder
  cadence  : Cadence
  port     : Restraint
  body     : Body
  settings : Settings
  pending  : List Instr
  deriving DecidableEq, Repr

/-- Why a step stops with a fault. NO COMMAND RAISES ONE (safe): the spec gives every command its effect in every
state, so no meaning ends in a fault; the constructor is there because the outcome type asks for a reason type. -/
inductive Fault where
  /-- Raised by no command; safe. -/
  | neverRaised
  deriving DecidableEq, Repr

/-- Why a step refuses a command. -/
inductive Refusal where
  /-- A command that has no meaning yet, by its mnemonic; raised by `exec`'s arm of such a command alone; safe. -/
  | notModelled (mnemonic : String)
  deriving DecidableEq, Repr

/-! ### Values after reset -/

/-- Row record after reset, in the state given (R25). -/
def RowRecord.reset (state : RowState) : RowRecord where
  state := state
  rpwr := false
  mating := none
  settle := .stopped
  powerOff := none
  idFailures := 0
  walk := ⟨0, .read, 0⟩
  score := 0
  stability := none
  recovery := 0
  cause := .none
  identity := none
  sequence := 0
  tagCounter := 0
  tagRead := none
  latch := PerSeat.all none

/-- Load state after reset (R44). -/
def LoadState.reset : LoadState :=
  ⟨PerCell.all 0, 0, 0, 0, 0, 0, 0, 0, .stopped, .stopped, false, false⟩

/-- Coil state after reset (R62, R63, R67, R72). -/
def Coil.reset : Coil := ⟨none, none, false, none, 0, false⟩

/-- Classifier state after reset, with the settled record given (R83). -/
def ClassState.reset (settled : ClassRecord) : ClassState :=
  ⟨0, false, none, 0, settled, .unknown, none, 0, ⟨false, none⟩, ⟨false, none⟩⟩

/-- Reminder after reset (R115). -/
def Reminder.reset : Reminder := ⟨.off, none, none, 0, false, false⟩

/-- The prepared response after reset (R149). -/
def Response.reset : Response := ⟨0, .notReady, 0⟩

/-- Every closure closed. -/
def Closures.closed : Closures := ⟨false, false, false, false, false⟩

/-- The Monitor after reset, out of reset and with the supply not below 7.0 V (R171, R173; assumption 6). -/
def Monitor.reset : Monitor where
  device := .starting
  inReset := false
  hold := false
  supply := .normal
  ign := false
  ignDebounce := none
  restTimer := none
  wakeSettle := none
  seconds := 0
  subSecond := 0
  now := 0

/-- The RLC after reset: the timer stopped, the pointer at 31 (R22), and the rows in the states given. -/
def RowLine.reset (states : PerRow RowState) : RowLine where
  rows := states.mapIdx (fun _ => RowRecord.reset)
  timer := .stopped
  pointer := 31
  exchange := none

/-- The Child Seat Unit after reset (R69, R62, R64). -/
def ChildUnit.reset : ChildUnit := ⟨[], PerPos.all Coil.reset, PerRow.all none⟩

/-- The Publication Unit after reset, with the table given (R102, R103, R106). -/
def Publication.reset (table : PerPos ClassRecord) : Publication := ⟨table, 0, false, none, PerPos.all false⟩

/-- The Cadence Generator after reset (R137, R139, R140, R145). The stopped timers' lengths are those of the FRONT and
the FLASH cadence, and their counts are 0: both the model's choice (assumption 7). -/
def Cadence.reset : Cadence where
  chime := ⟨2, 250, 125, 0, 0, false⟩
  flash := ⟨4, 250, 125, 0, 0, false⟩
  active := .none
  copy := PerPos.all .off
  chimeGate := .closed
  telltaleGate := .closed

/-- The Restraint Port after reset (R149, R152). That no last request is held is the model's choice (assumption 40). -/
def Restraint.reset : Restraint := ⟨none, Response.reset, false, false⟩

/-- The Body Port after reset (R156 to R162). -/
def Body.reset : Body where
  vehicle := ⟨0, .unknown, Closures.closed, .stale⟩
  freshTimer := none
  degrade := none
  mapTimer := none
  occMap := none
  beltMap := none
  queue := []
  resync := false
  urgentCount := 0
  reply := none
  heldReply := none
  slot := none
  busOff := false

/-- Every group at its built-in defaults (R166). -/
def Groups.builtIn : Groups where
  device := defaultDevice
  positions := (PerPos.all ()).mapIdx (fun p _ => defaultPosition p)
  reminder := defaultReminder
  lists := defaultLists
  schedule := defaultSchedule
  check := defaultCheck
  port := defaultPort

/-- The Settings Unit after reset and before autoload has ended: the built-in defaults stand, the configuration state
reads UNCONFIGURED and nothing of the store has been read (assumption 8). The marks of R168 are clear. -/
def Settings.reset (store : List Byte) : Settings where
  active := Groups.builtIn
  config := .unconfigured
  posFault := PerPos.all false
  uncalibrated := PerPos.all false
  gainWritten := PerPos.all false
  write := none
  store := store

/-- The record every position of variant 000 holds right after reset: rows 1 to 3 are fitted, rows 4 and 5 are not
(R4, R10). -/
def resetTable : PerPos ClassRecord :=
  (PerPos.all ()).mapIdx (fun p _ => if p.row.num ≤ 3 then .indeterminate .starting else .notFitted)

/-- The machine right after reset, in STARTING with autoload running: straps 000 with ADOFS and OUTCFG low, the sense
inputs unmated, IGN and OUTEN low (assumption 9). -/
def State.reset : State where
  straps := ⟨0, false, false⟩
  pins := ⟨PerRow.all false, false, false⟩
  monitor := Monitor.reset
  line := RowLine.reset ⟨.probing, .absent, .absent, .absent, .absent⟩
  load := PerPos.all LoadState.reset
  child := ChildUnit.reset
  cls := resetTable.mapIdx (fun _ => ClassState.reset)
  pub := Publication.reset resetTable
  rem := PerPos.all Reminder.reset
  cadence := Cadence.reset
  port := Restraint.reset
  body := Body.reset
  settings := Settings.reset []
  pending := []

end Sys2Proof.Machine
end

