-- ==== Sys2Proof/Machine/Codes.lean ====
section
/-! DEFINITION. The numeric codes that names carry on the links and in notices. -/

namespace Sys2Proof.Machine

/-- Reason codes (R84). -/
def reasonCode : Reason → Nat
  | .rowStarting => 1 | .rowFailed => 2 | .staleSamples => 3 | .cellFaults => 4 | .evidenceConflict => 5
  | .uncalibrated => 6 | .positionConfigFault => 7 | .variantFault => 8 | .starting => 9

/-- The class code of a record (R84). -/
def classCode : ClassRecord → Nat
  | .vacant => 0 | .object => 1 | .smallOccupant => 2 | .adult => 3 | .childSeatRear => 4
  | .childSeatForward => 5 | .childSeat => 6 | .indeterminate _ => 7 | .notInstalled => 8 | .notFitted => 15

/-- The reason field of a record: 0 with every class but INDETERMINATE (R84). -/
def recordReason : ClassRecord → Nat
  | .indeterminate r => reasonCode r
  | _ => 0

/-- Device state codes (section 11.4). -/
def deviceCode : Device → Nat
  | .starting => 0 | .run => 1 | .rest => 2 | .sleep => 3

/-- Row state codes (section 2.3). -/
def rowStateCode : RowState → Nat
  | .absent => 0 | .probing => 1 | .checking => 2 | .online => 3 | .recovering => 4 | .failed => 5

/-- Row cause codes (R36). -/
def rowCauseCode : RowCause → Nat
  | .none => 0 | .senseMated => 1 | .senseUnmated => 2 | .checkPassed => 3 | .probeExhausted => 4
  | .checkExhausted => 5 | .errorScore => 6 | .recoveryExhausted => 7 | .noSlot => 8

/-- Check walk phase codes (R177). -/
def phaseCode : Phase → Nat
  | .read => 0 | .write => 1 | .reread => 2

/-- Poll kind codes (R176). -/
def pollKindCode : PollKind → Nat
  | .sample => 0 | .readId => 1 | .readReg => 2 | .writeReg => 3

/-- Orientation codes (R176, R177). -/
def orientationCode : Orientation → Nat
  | .rear => 0 | .forward => 1

/-- Entry state codes (R70). -/
def entryStateCode : EntryState → Nat
  | .present => 1 | .provisional => 2 | .missing => 3

/-- Debounced buckle codes (R98). -/
def buckleCode : Buckle → Nat
  | .isOpen => 0 | .latched => 1 | .unknown => 2

/-- Reminder state codes (R115). -/
def remStateCode : RemState → Nat
  | .off => 0 | .wait => 1 | .visual => 2 | .audible => 3 | .silenced => 4

/-- Response status codes (R149). -/
def statusCode : Status → Nat
  | .ok => 0 | .notReady => 1 | .frameError => 2 | .unknownCommand => 3 | .badArgument => 4

/-- Freshness codes (R157). -/
def freshnessCode : Freshness → Nat
  | .fresh => 0 | .stale => 1 | .degraded => 2

/-- Configuration state codes (R165). -/
def configCode : ConfigState → Nat
  | .configured => 0 | .unconfigured => 1 | .configFault => 2 | .storeInconsistent => 3

/-- Notice kind codes (R160). -/
def noticeKindCode : NoticeKind → Nat
  | .classChange => 1 | .buckleChange => 2 | .reminder => 3 | .childSeatAdded => 4 | .childSeatMoved => 5
  | .childSeatMissing => 6 | .rowChange => 7 | .fault => 8

/-- The subject byte of a notice: the position or the row number (R160). -/
def subjectNum : Subject → Nat
  | .position p => p.num
  | .row r => r.num

/-- A number as a byte. -/
def byte (n : Nat) : Byte := BitVec.ofNat 8 n

/-- A flag as a bit, 1 when set. -/
def bit (b : Bool) : Nat := if b then 1 else 0

/-- Child seat notice causes (R79). -/
def causeTagFound : Nat := 1
def causeTagNotFound : Nat := 2
def causeDisplaced : Nat := 3
def causeRowRemoved : Nat := 4
def causeCoilRemoved : Nat := 5
def causeAbsenceConfirmed : Nat := 6
def causeOldRowLeft : Nat := 7
def causeUnconfirmedEntry : Nat := 8

/-- Service reply codes (R164). -/
def replyOk : BitVec 4 := 0
def replyBusy : BitVec 4 := 1
def replyRefusedLocked : BitVec 4 := 2
def replyRefusedMoving : BitVec 4 := 3
def replyOutOfRange : BitVec 4 := 4
def replyInconsistent : BitVec 4 := 5
def replyUnknownParam : BitVec 4 := 6
def replyWriteFailed : BitVec 4 := 7
def replyNotReady : BitVec 4 := 8

end Sys2Proof.Machine
end

