-- ==== Sys2Proof/Machine/Crc.lean ====
section
/-! DEFINITION. The two CRCs of R179 and the byte order of R175. -/

namespace Sys2Proof.Machine

/-- One bit of a CRC register: shift left, and subtract the polynomial when the bit shifted out is 1. -/
def crcShift {w : Nat} (poly : BitVec w) (reg : BitVec w) : BitVec w :=
  if reg.msb then (reg <<< 1) ^^^ poly else reg <<< 1

/-- Eight bits. -/
def crcShift8 {w : Nat} (poly reg : BitVec w) : BitVec w :=
  crcShift poly (crcShift poly (crcShift poly (crcShift poly
    (crcShift poly (crcShift poly (crcShift poly (crcShift poly reg)))))))

/-- The CRC-8 register after one byte: polynomial 0x2F, most significant bit first (R179). -/
def crc8Byte (reg b : Byte) : Byte := crcShift8 0x2F#8 (reg ^^^ b)

/-- The CRC-8 of the row line and the restraint port: from 0xFF, the register inverted at the end (R179). -/
def crc8 (bytes : List Byte) : Byte := ~~~ (bytes.foldl crc8Byte 0xFF#8)

/-- The CRC-16 register after one byte: polynomial 0x1021, most significant bit first (R179). -/
def crc16Byte (reg : Word16) (b : Byte) : Word16 := crcShift8 0x1021#16 (reg ^^^ (b.setWidth 16 <<< 8))

/-- The CRC-16 of the store: from 0xFFFF, not inverted (R179). -/
def crc16 (bytes : List Byte) : Word16 := bytes.foldl crc16Byte 0xFFFF#16

/-- The two bytes of a 16-bit field, the high byte first (R175). -/
def bytesOf16 (w : Word16) : List Byte := [w.extractLsb' 8 8, w.extractLsb' 0 8]

/-- The three bytes of a 24-bit field, the high byte first (R175). -/
def bytesOf24 (w : BitVec 24) : List Byte := [w.extractLsb' 16 8, w.extractLsb' 8 8, w.extractLsb' 0 8]

/-- The four bytes of a 32-bit field, the high byte first (R175). -/
def bytesOf32 (w : BitVec 32) : List Byte :=
  [w.extractLsb' 24 8, w.extractLsb' 16 8, w.extractLsb' 8 8, w.extractLsb' 0 8]

/-- The eight bytes of a 64-bit CAN field, bit 63 being bit 7 of byte 0 (R177). -/
def bytesOf64 (w : BitVec 64) : List Byte :=
  [w.extractLsb' 56 8, w.extractLsb' 48 8, w.extractLsb' 40 8, w.extractLsb' 32 8,
   w.extractLsb' 24 8, w.extractLsb' 16 8, w.extractLsb' 8 8, w.extractLsb' 0 8]

/-- A 16-bit field from its two bytes, the high byte first (R175). -/
def word16 (hi lo : Byte) : Word16 := hi ++ lo

end Sys2Proof.Machine
end

