-- ==== Sys2Proof/Machine/Settings.lean ====
section
/-! DEFINITION. The active settings read by name, the ranges and cross-checks of R167 and R169, and the settings image
of R165 and R178. -/

namespace Sys2Proof.Machine

/-! ### Fitted rows and positions -/

/-- VARIANT_FAULT: a latched code of 110 or 111 (R5). -/
def variantFault (s : State) : Bool := s.straps.var == 6#3 || s.straps.var == 7#3

/-- How many rows the latched variant fits (R4, R5). -/
def fittedRows (s : State) : Nat :=
  if variantFault s then 5
  else if s.straps.var == 0#3 || s.straps.var == 1#3 then 3
  else if s.straps.var == 2#3 || s.straps.var == 3#3 then 4
  else 5

/-- The row is fitted (R4, R5). -/
def rowFitted (s : State) (r : Row) : Bool := r.num ≤ fittedRows s

/-- The front center seat is absent in the valid codes with VAR0 high (R4). -/
def centerAbsent (s : State) : Bool := !variantFault s && s.straps.var.getLsbD 0

/-- The position is fitted: its row is, and it is not position 2 of a variant without a front center (R4, R5). -/
def posFitted (s : State) (p : Pos) : Bool :=
  rowFitted s p.row && !(centerAbsent s && p == ⟨.r1, .s2⟩)

/-- The fitted restraint positions (R3, R168). -/
def fittedRestraints (s : State) : List Pos := allPos.filter (fun p => isRestraint p && posFitted s p)

/-! ### Values by name -/

/-- Value i of a group's record. -/
def wordAt (l : List Word16) (i : Nat) : Nat := (l.getD i 0).toNat

/-- The values of the position's record. -/
def posWords (g : Groups) (p : Pos) : List Word16 := g.positions.get p

/-- The override bit of a position record (R178): 0 thresholds and h, 1 minimum footprint, 2 dwell, 3 stale limit. -/
def overrides (g : Groups) (p : Pos) (bitNo : Nat) : Bool := (wordAt (posWords g p) 20).testBit bitNo

/-- Value i of the position's group set: th1, th2, th3, h, minimum footprint, dwell, stale limit (R178). -/
def groupValue (g : Groups) (p : Pos) (i : Nat) : Nat :=
  wordAt g.device (if isFront p then i else 7 + i)

/-- Value i of the set in force for the position: its own where its override bit is set, the group's otherwise (R2,
R86, R178). -/
def valueInForce (g : Groups) (p : Pos) (i bitNo : Nat) : Nat :=
  if overrides g p bitNo then wordAt (posWords g p) (21 + i) else groupValue g p i

def threshold (g : Groups) (p : Pos) (k : Nat) : Nat := valueInForce g p (k - 1) 0
def hysteresis (g : Groups) (p : Pos) : Nat := valueInForce g p 3 0
def minFootprint (g : Groups) (p : Pos) : Nat := valueInForce g p 4 1
def dwellLimit (g : Groups) (p : Pos) : Nat := valueInForce g p 5 2

/-- The stale limit in ms (R46, R86, R178). -/
def staleLimit (s : State) (p : Pos) : Nat := valueInForce s.settings.active p 6 3

def cellOffset (g : Groups) (p : Pos) (i : Nat) : Nat := wordAt (posWords g p) i
def cellGain (g : Groups) (p : Pos) (i : Nat) : Nat := wordAt (posWords g p) (8 + i)
def tensionGain (g : Groups) (p : Pos) : Nat := wordAt (posWords g p) 16
def filterShift (g : Groups) (p : Pos) : Nat := wordAt (posWords g p) 17
def cellThreshold (g : Groups) (p : Pos) : Nat := wordAt (posWords g p) 18

/-- A fitted-sensor flag (R14): 0 tension, 1 anchors, 2 tag coil. No flag has an effect at a position that is not
fitted (R7). -/
def sensorFlag (s : State) (p : Pos) (bitNo : Nat) : Bool :=
  posFitted s p && (wordAt (posWords s.settings.active p) 19).testBit bitNo

def tensionFitted (s : State) (p : Pos) : Bool := sensorFlag s p 0
def anchorsFitted (s : State) (p : Pos) : Bool := sensorFlag s p 1
def coilFitted (s : State) (p : Pos) : Bool := sensorFlag s p 2

/-- The rest time in ms (R165). -/
def restTime (s : State) : Nat := 1000 * wordAt s.settings.active.device 14

/-- The enable of WAKE input n (R165). -/
def wakeEnabled (s : State) (n : Nat) : Bool := (wordAt s.settings.active.device 15).testBit n

/-- The scan interval of the device state (R62). -/
def scanInterval (s : State) : Nat :=
  wordAt s.settings.active.device (if s.monitor.device == .rest then 17 else 16)

def speedV1 (s : State) : Nat := wordAt s.settings.active.reminder 0
def speedV2 (s : State) : Nat := wordAt s.settings.active.reminder 1
def startDelay (s : State) (p : Pos) : Nat := wordAt s.settings.active.reminder (if isFront p then 2 else 3)
def changeDelay (s : State) : Nat := wordAt s.settings.active.reminder 4
/-- The audible time in ms (R116). -/
def audibleTime (s : State) : Nat := 1000 * wordAt s.settings.active.reminder 5
def episodeLimit (s : State) : Nat := wordAt s.settings.active.reminder 6

/-- The row a slot names, or none for EMPTY (R23). -/
def slotRow (g : Groups) (i : Nat) : Option Row := rowOfNum (wordAt g.schedule i)

/-- The row has a slot in the schedule (R23). -/
def hasSlot (g : Groups) (r : Row) : Bool := g.schedule.any (fun w => w.toNat == r.num)

/-- How many entries the check table holds (R28). -/
def checkCount (g : Groups) : Nat := wordAt g.check 0
def checkRegister (g : Groups) (e : Nat) : Nat := wordAt g.check (1 + 4 * e) % 64
def checkHasWrite (g : Groups) (e : Nat) : Bool := (wordAt g.check (1 + 4 * e)).testBit 8
def checkMask (g : Groups) (e : Nat) : Word16 := g.check.getD (2 + 4 * e) 0
def checkExpected (g : Groups) (e : Nat) : Word16 := g.check.getD (3 + 4 * e) 0
def checkWriteValue (g : Groups) (e : Nat) : Word16 := g.check.getD (4 + 4 * e) 0

/-- The entry passes: the register's value AND the mask equals the expected value (R28). -/
def checkPasses (g : Groups) (e : Nat) (value : Word16) : Bool := (value &&& checkMask g e) == checkExpected g e

def baseId (g : Groups) : Nat := wordAt g.port 0
def vehicleId (g : Groups) : Nat := wordAt g.port 1

/-- The kind-to-class map's code of kind k: bits 2k−1..2k−2 (R178). -/
def kindClass (g : Groups) (k : Nat) : Nat := wordAt g.port 2 / 2 ^ (2 * k - 2) % 4

/-! ### Parameters by id -/

/-- How many parameters a group has (R178). -/
def paramCount (g : Nat) : Nat :=
  if g = 0 then 18 else if g ≤ 15 then 28 else if g = 16 then 7 else if g = 17 then 36
  else if g = 18 then 32 else if g = 19 then 33 else if g = 20 then 3 else 0

/-- The values of a group's record. -/
def groupWords (a : Groups) (g : Nat) : List Word16 :=
  if g = 0 then a.device
  else if g = 16 then a.reminder
  else if g = 17 then a.lists
  else if g = 18 then a.schedule
  else if g = 19 then a.check
  else if g = 20 then a.port
  else match posOfNum g with
    | some p => a.positions.get p
    | none => []

/-- The settings with a group's record replaced. -/
def setGroup (a : Groups) (g : Nat) (l : List Word16) : Groups :=
  if g = 0 then { a with device := l }
  else if g = 16 then { a with reminder := l }
  else if g = 17 then { a with lists := l }
  else if g = 18 then { a with schedule := l }
  else if g = 19 then { a with check := l }
  else if g = 20 then { a with port := l }
  else match posOfNum g with
    | some p => { a with positions := a.positions.modify p (fun _ => l) }
    | none => a

/-- A parameter id is group × 64 + index (R165). -/
def idGroup (id : Word16) : Nat := id.toNat / 64
def idIndex (id : Word16) : Nat := id.toNat % 64

/-- The id names a parameter (R164, R169). -/
def knownParam (id : Word16) : Bool := idIndex id < paramCount (idGroup id)

/-- The active value of a parameter. -/
def paramValue (a : Groups) (id : Word16) : Word16 := (groupWords a (idGroup id)).getD (idIndex id) 0

/-- The settings with a parameter's value replaced. -/
def setParam (a : Groups) (id value : Word16) : Groups :=
  setGroup a (idGroup id) ((groupWords a (idGroup id)).set (idIndex id) value)

/-! ### Ranges (R46, R86, R116, R120, R165, R178) -/

def inRange (lo hi v : Nat) : Bool := lo ≤ v && v ≤ hi

/-- Value i of a set th1, th2, th3, h, minimum footprint, dwell, stale limit is in range (R46, R86). -/
def setValueInRange (i v : Nat) : Bool :=
  if i ≤ 2 then inRange 0 16376 v
  else if i = 3 then inRange 0 1000 v
  else if i = 4 then inRange 1 8 v
  else if i = 5 then inRange 1 32 v
  else inRange 20 1000 v

def deviceValueInRange (i v : Nat) : Bool :=
  if i ≤ 6 then setValueInRange i v
  else if i ≤ 13 then setValueInRange (i - 7) v
  else if i = 14 then inRange 60 3600 v
  else if i = 15 then inRange 0 7 v
  else inRange 200 10000 v

def positionValueInRange (i v : Nat) : Bool :=
  if i ≤ 7 then inRange 0 1023 v
  else if i ≤ 15 then inRange 64 511 v
  else if i = 16 then inRange 0 255 v
  else if i = 17 then inRange 0 4 v
  else if i = 18 then inRange 0 255 v
  else if i = 19 then inRange 0 7 v
  else if i = 20 then inRange 0 15 v
  else setValueInRange (i - 21) v

def reminderValueInRange (i v : Nat) : Bool :=
  if i ≤ 1 then inRange 0 254 v
  else if i ≤ 4 then inRange 0 30000 v
  else if i = 5 then inRange 10 300 v
  else inRange 1 7 v

/-- A term count is 0..8; a term's signal code is 0..9, and no bit above the join is set (R120, R178). -/
def listValueInRange (i v : Nat) : Bool :=
  if i % 9 = 0 then v ≤ 8 else v < 64 && v % 16 ≤ 9

def scheduleValueInRange (v : Nat) : Bool := v ≤ 5

/-- An entry count is 0..8; a register word has no bit set but 5..0 and 8 (R178). -/
def checkValueInRange (i v : Nat) : Bool :=
  if i = 0 then v ≤ 8
  else if (i - 1) % 4 = 0 then v % 256 < 64 && v < 512
  else true

/-- The base identifier is 0..0x7F5, the VEHICLE_STATE identifier 0..0x7FF; the map holds no code 3, and code 2 for
CLASS_CHANGE alone (R178). -/
def portValueInRange (i v : Nat) : Bool :=
  if i = 0 then v ≤ 0x7F5
  else if i = 1 then v ≤ 0x7FF
  else [1, 2, 3, 4, 5, 6, 7, 8].all (fun k =>
    let c := v / 2 ^ (2 * k - 2) % 4
    c ≤ 1 || (c == 2 && k == 1))

/-- The value lies in the range of parameter i of group g. -/
def paramInRange (g i v : Nat) : Bool :=
  if g = 0 then deviceValueInRange i v
  else if g ≤ 15 then positionValueInRange i v
  else if g = 16 then reminderValueInRange i v
  else if g = 17 then listValueInRange i v
  else if g = 18 then scheduleValueInRange v
  else if g = 19 then checkValueInRange i v
  else portValueInRange i v

/-! ### Cross-checks -/

/-- The threshold ordering of R86: th1 > h, th2 > th1 + h, th3 > th2 + h. -/
def thresholdsValid (th1 th2 th3 h : Nat) : Bool := h < th1 && th1 + h < th2 && th2 + h < th3

/-- The set in force for the position is valid (R86). -/
def positionThresholdsValid (g : Groups) (p : Pos) : Bool :=
  thresholdsValid (threshold g p 1) (threshold g p 2) (threshold g p 3) (hysteresis g p)

/-- The two group sets of a group 0 record are valid (R167). -/
def deviceThresholdsValid (l : List Word16) : Bool :=
  thresholdsValid (wordAt l 0) (wordAt l 1) (wordAt l 2) (wordAt l 3)
    && thresholdsValid (wordAt l 7) (wordAt l 8) (wordAt l 9) (wordAt l 10)

/-- The fitted-sensor rules of R14: no sensor at a position that is not fitted, and no anchors without a tag coil at a
restraint position. A word that leaves a flag set at a position that is not fitted is not allowed, even where its write
clears another flag, which R15 leaves open (assumption 32). -/
def sensorsAllowed (s : State) (p : Pos) (flags : Nat) : Bool :=
  (posFitted s p || flags == 0) && !(isRestraint p && flags.testBit 1 && !flags.testBit 2)

/-- No entry of the check table expects a bit outside its mask (R28). -/
def checkTableValid (g : Groups) : Bool :=
  (List.range (checkCount g)).all (fun e => (checkExpected g e &&& ~~~ checkMask g e) == 0#16)

/-- The eight identifiers of R155. -/
def identifiers (g : Groups) : List Nat :=
  let b := baseId g
  [b, b + 1, b + 2, b + 3, b + 8, b + 9, b + 10, vehicleId g]

/-- No two of the identifiers are equal: those counted from the base differ among themselves, so the VEHICLE_STATE
identifier decides (R167, R169). -/
def identifiersDistinct (g : Groups) : Bool := (identifiers g).Nodup

/-- Every fitted row has a slot (R23). -/
def slotsForFitted (s : State) (g : Groups) : Bool := allRows.all (fun r => !rowFitted s r || hasSlot g r)

/-! ### Validation of a loaded record (R167) -/

def allInRange (g : Nat) (l : List Word16) : Bool :=
  (List.range l.length).all (fun i => paramInRange g i (wordAt l i))

/-- Value i of a position record is disregarded: an optional value whose override bit is clear (R178). -/
def disregarded (l : List Word16) (i : Nat) : Bool :=
  let mask := wordAt l 20
  (21 ≤ i && i ≤ 24 && !mask.testBit 0) || (i == 25 && !mask.testBit 1) || (i == 26 && !mask.testBit 2)
    || (i == 27 && !mask.testBit 3)

/-- A position record passes: every field that is not disregarded in range, its own threshold set valid where it
overrides, and its sensors allowed (R167, R14, R86, R178). -/
def positionRecordPasses (s : State) (p : Pos) (l : List Word16) : Bool :=
  (List.range 28).all (fun i => disregarded l i || paramInRange p.num i (wordAt l i))
    && (!(wordAt l 20).testBit 0 || thresholdsValid (wordAt l 21) (wordAt l 22) (wordAt l 23) (wordAt l 24))
    && sensorsAllowed s p (wordAt l 19)

/-- The active values of a position record that failed: its load settings at the built-in defaults, the stale limit among
them as the position's own, the rest as loaded (R167, R46; assumption 10). -/
def failedPositionWords (p : Pos) (l : List Word16) : List Word16 :=
  (defaultPosition p).take 19 ++ [l.getD 19 0, l.getD 20 0 ||| 8#16] ++ (l.drop 21).take 6 ++ (defaultPosition p).drop 27

/-- One condition list of a group 17 record, or its default (R167). -/
def listOrDefault (l : List Word16) (k : Nat) : List Word16 :=
  let own := (l.drop (9 * k)).take 9
  if (List.range 9).all (fun i => listValueInRange i (wordAt own i)) then own
  else (defaultLists.drop (9 * k)).take 9

/-- The record loaded for a group, judged by R167; `none` keeps the group's defaults. -/
def acceptedRecord (g : Nat) (l : List Word16) : Option (List Word16) :=
  if l.length ≠ paramCount g then none
  else if g = 17 then some (listOrDefault l 0 ++ listOrDefault l 1 ++ listOrDefault l 2 ++ listOrDefault l 3)
  else if !allInRange g l then none
  else if g = 0 ∧ !deviceThresholdsValid l then none
  else if g = 19 ∧ !checkTableValid { Groups.builtIn with check := l } then none
  else if g = 20 ∧ !identifiersDistinct { Groups.builtIn with port := l } then none
  else some l

/-! ### The settings image (R165, R178) -/

/-- A record of the body: its group byte and its values. -/
structure ImageRecord where
  group  : Nat
  values : List Word16
  deriving DecidableEq, Repr

/-- n values from the front of a body, each high byte first (R175). -/
def takeWords : Nat → List Byte → List Word16
  | 0, _ => []
  | n + 1, hi :: lo :: rest => word16 hi lo :: takeWords n rest
  | _ + 1, _ => []

/-- The records of a body. A record that runs past the body's end ends it (R178). The first argument bounds the number
of records. -/
def parseRecords : Nat → List Byte → List ImageRecord
  | 0, _ => []
  | fuel + 1, g :: n :: rest =>
    if rest.length < 2 * n.toNat then []
    else ⟨g.toNat, takeWords n.toNat rest⟩ :: parseRecords fuel (rest.drop (2 * n.toNat))
  | _ + 1, _ => []

/-- Every record of a body. -/
def bodyRecords (body : List Byte) : List ImageRecord := parseRecords body.length body

/-- The record that stands for a group: the first one (R178). -/
def recordOf (rs : List ImageRecord) (g : Nat) : Option (List Word16) :=
  (rs.find? (fun r => r.group == g)).map (·.values)

/-- Byte i of the store; a byte the answer does not reach reads as an erased EEPROM byte (assumption 11). -/
def storeByte (bytes : List Byte) (i : Nat) : Byte := bytes.getD i 0xFF

def headerSignature (b : List Byte) : Word16 := word16 (storeByte b 0) (storeByte b 1)
def headerVersion (b : List Byte) : Byte := storeByte b 2
def headerVariant (b : List Byte) : Byte := storeByte b 3
def headerLength (b : List Byte) : Nat := (word16 (storeByte b 4) (storeByte b 5)).toNat
def headerCrc (b : List Byte) : Word16 := word16 (storeByte b 6) (storeByte b 7)

/-- The body: as many bytes from byte 16 as the header's length field says (R178). -/
def imageBody (b : List Byte) : List Byte := (List.range (headerLength b)).map (fun i => storeByte b (16 + i))

/-- Autoload's judgement of the store, in the order of R166. -/
def judgeImage (s : State) : StoreAnswer → ConfigState
  | .unacknowledged => .configFault
  | .image b =>
    if headerSignature b ≠ 0xA7C5#16 then .unconfigured
    else if headerVersion b ≠ 1 ∨ 2032 < headerLength b then .configFault
    else if variantFault s ∨ headerVariant b ≠ s.straps.var.setWidth 8 then .configFault
    else if crc16 (imageBody b) ≠ headerCrc b then .configFault
    else .configured

/-- The values a position takes from the image, and whether its record failed (R167). -/
def loadPosition (s : State) (rs : List ImageRecord) (p : Pos) : List Word16 × Bool :=
  match recordOf rs p.num with
  | none => (defaultPosition p, false)
  | some l =>
    if l.length ≠ 28 then (failedPositionWords p (defaultPosition p), true)
    else if positionRecordPasses s p l then (l, false)
    else (failedPositionWords p l, true)

/-- The record of a group other than a position's, or its defaults (R165, R167). -/
def loadGroup (rs : List ImageRecord) (g : Nat) (dflt : List Word16) : List Word16 :=
  match recordOf rs g with
  | none => dflt
  | some l => (acceptedRecord g l).getD dflt

/-- The active settings of a CONFIGURED image (R167). -/
def loadGroups (s : State) (b : List Byte) : Groups :=
  let rs := bodyRecords (imageBody b)
  { device := loadGroup rs 0 defaultDevice
    positions := (PerPos.all ()).mapIdx (fun p _ => (loadPosition s rs p).1)
    reminder := loadGroup rs 16 defaultReminder
    lists := loadGroup rs 17 defaultLists
    schedule := loadGroup rs 18 defaultSchedule
    check := loadGroup rs 19 defaultCheck
    port := loadGroup rs 20 defaultPort }

/-- The Settings Unit at the end of autoload: configuration state, active settings, POSITION_CONFIG_FAULT of the fitted
positions and UNCALIBRATED of the fitted restraint positions (R166, R167, R168). -/
def autoloaded (s : State) (answer : StoreAnswer) : Settings :=
  let config := judgeImage s answer
  let bytes := match answer with
    | .unacknowledged => s.settings.store
    | .image b => b
  if config = .configured then
    let rs := bodyRecords (imageBody bytes)
    { s.settings with
      active := loadGroups s bytes
      config := config
      posFault := (PerPos.all ()).mapIdx (fun p _ => posFitted s p && (loadPosition s rs p).2)
      uncalibrated := PerPos.all false
      store := bytes }
  else
    { s.settings with
      active := Groups.builtIn
      config := config
      posFault := PerPos.all false
      uncalibrated := (PerPos.all ()).mapIdx (fun p _ => isRestraint p && posFitted s p)
      store := bytes }

/-- The bytes of a record. -/
def recordBytes (g : Nat) (l : List Word16) : List Byte :=
  [byte g, byte l.length] ++ l.flatMap bytesOf16

/-- The bytes at the front of a body that the given number of its records take. -/
def recordsLength (rs : List ImageRecord) : Nat := (rs.map (fun r => 2 + 2 * r.values.length)).sum

/-- The body with the record of group g replaced in place, or appended at the end where the body has none (R170).
Two points are the model's choice (assumption 47): a record that runs past the body's end (R178) is none of its group, and the
end behind which a record is appended is that of all the body's bytes, those of such a record included. -/
def replaceRecord (body : List Byte) (g : Nat) (l : List Word16) : List Byte :=
  let rs := bodyRecords body
  let before := rs.takeWhile (fun r => r.group != g)
  match rs.drop before.length with
  | [] => body ++ recordBytes g l
  | r :: _ =>
    body.take (recordsLength before) ++ recordBytes g l
      ++ body.drop (recordsLength before + 2 + 2 * r.values.length)

/-- The body written afresh: one record for each group 0 to 20 (R170). -/
def freshBody (a : Groups) : List Byte := (List.range 21).flatMap (fun g => recordBytes g (groupWords a g))

/-- The header written with a body (R170, R178). -/
def headerBytes (s : State) (body : List Byte) : List Byte :=
  [0xA7#8, 0xC5#8, 1#8, s.straps.var.setWidth 8] ++ bytesOf16 (BitVec.ofNat 16 body.length)
    ++ bytesOf16 (crc16 body) ++ List.replicate 8 0

/-- The image a write leaves in the store when it completes OK (R170). -/
def imageAfterWrite (s : State) (w : WriteInFlight) : List Byte :=
  let a := setParam s.settings.active w.id w.value
  let body :=
    if s.settings.config = .unconfigured ∨ s.settings.config = .configFault then freshBody a
    else replaceRecord (imageBody s.settings.store) (idGroup w.id) (groupWords a (idGroup w.id))
  headerBytes s body ++ body

/-! ### The checks of a write (R169) -/

/-- The value would break the threshold ordering for a position that would use it: for a group value every position of
the group that does not override it, for a position value that position. -/
def thresholdsBroken (g : Groups) (grp i : Nat) : Bool :=
  if grp = 0 then
    (i ≤ 3 && allPos.any (fun p => isFront p && !overrides g p 0 && !positionThresholdsValid g p))
      || (7 ≤ i && i ≤ 10 && allPos.any (fun p => !isFront p && !overrides g p 0 && !positionThresholdsValid g p))
  else match posOfNum grp with
    | some p => 20 ≤ i && i ≤ 24 && (i == 20 || overrides g p 0) && !positionThresholdsValid g p
    | none => false

/-- The value breaks a cross-check against the other settings in force (R169, check 5). -/
def breaksCrossCheck (s : State) (id value : Word16) : Bool :=
  let g := setParam s.settings.active id value
  let grp := idGroup id
  let i := idIndex id
  variantFault s
    || thresholdsBroken g grp i
    || (grp == 18 && !slotsForFitted s g)
    || (grp == 19 && !checkTableValid g)
    || (grp == 16 && i == 6 && allPos.any (fun p => value.toNat < (s.rem.get p).episodes))
    || (grp == 20 && !identifiersDistinct g)
    || (i == 19 && match posOfNum grp with
        | some p => !sensorsAllowed s p value.toNat
        | none => false)

/-- The refusal of a WRITE_PARAM taken while no write is in flight, by the first check of R169 that applies. -/
def writeRefusal (s : State) (id value : Word16) : Option (BitVec 4) :=
  if s.pub.locked then some replyRefusedLocked
  else if ¬ (s.body.vehicle.freshness = .fresh ∧ s.body.vehicle.speed = 0 ∧ s.body.vehicle.gear = .park) then
    some replyRefusedMoving
  else if !knownParam id then some replyUnknownParam
  else if !paramInRange (idGroup id) (idIndex id) value.toNat then some replyOutOfRange
  else if breaksCrossCheck s id value then some replyInconsistent
  else none

end Sys2Proof.Machine
end

