-- ==== Sys2Proof/Machine/Operands.lean ====
section
/-! DEFINITION. The operand forms that carry bytes: polls and answers of the row line (R19, R38, R176), the fields of a
VEHICLE_STATE and a REMINDER_ACK (R156, R177). -/

namespace Sys2Proof.Machine

/-! ### Polls -/

/-- The row line address of a row's satellite (R6). -/
def rowAddress (s : State) (r : Row) : Byte := byte (r.num + if s.straps.adofs then 8 else 0)

/-- What a poll asks for: a SAMPLE with or without a tag start, or one of the other three kinds (R19). -/
inductive PollBody where
  | sample (start : Option (Seat × BitVec 2))
  | readId
  | readReg (register : Nat)
  | writeReg (register : Nat) (value : Word16)
  deriving DecidableEq, Repr

def PollBody.kind : PollBody → PollKind
  | .sample _ => .sample
  | .readId => .readId
  | .readReg _ => .readReg
  | .writeReg _ _ => .writeReg

/-- Byte 2 of a poll: the kind, then the tag start or the register index (R176). In a SAMPLE without a tag start the read
number's bits are 0, the model's choice (assumption 48). -/
def PollBody.kindByte : PollBody → Byte
  | .sample none => 0
  | .sample (some (k, n)) => byte (16 * k.num + 4 * n.toNat)
  | .readId => 0x40
  | .readReg r => byte (0x80 + r % 64)
  | .writeReg r _ => byte (0xC0 + r % 64)

/-- The value bytes of a WRITE_REG poll; none in the others (R176). -/
def PollBody.valueBytes : PollBody → List Byte
  | .writeReg _ v => bytesOf16 v
  | _ => []

/-- The bytes of a poll: sync, address, kind byte, sequence, value, CRC-8 (R176). -/
def pollBytes (address : Byte) (sequence : BitVec 4) (b : PollBody) : List Byte :=
  let front := [0xA5#8, address, b.kindByte, (sequence ++ 0#4 : BitVec 8)] ++ b.valueBytes
  front ++ [crc8 front]

/-! ### Answers -/

/-- The outcomes an answer can give an exchange (R20). TIMEOUT has no answer. -/
inductive AnswerOutcome where
  | crcError | mismatch | good
  deriving DecidableEq, Repr

/-- Byte i of an answer. -/
def answerByte (b : List Byte) (i : Nat) : Byte := b.getD i 0

/-- The kind an answer claims: bits 7..6 of its second byte (R176). -/
def claimedKind (b : List Byte) : Nat := (answerByte b 1).toNat / 64

/-- The length of an answer of each kind (R176). -/
def answerLength (kind : Nat) : Nat :=
  if kind = 0 then 65 else if kind = 1 then 9 else 5

/-- The last byte is the CRC-8 over the bytes before it (R176, R179). -/
def answerCrcChecks (b : List Byte) : Bool := b.getLast? == some (crc8 b.dropLast)

/-- The first byte of a seat's 19 bytes: the seats follow the two echo bytes, in seat order (R176). -/
def seatBase : Seat → Nat
  | .s1 => 2 | .s2 => 21 | .s3 => 40

/-- The first byte of the tag status (R176). -/
def tagBase : Nat := 59

/-- A seat's state byte: bits 1..0 buckle, 3..2 left anchor, 5..4 right anchor (R176). -/
def seatStateByte (b : List Byte) (k : Seat) : Nat := (answerByte b (seatBase k + 18)).toNat

/-- A SAMPLE answer carries a code outside the tables of R176 that is taken as CRC_ERROR: a buckle or anchor code of 3,
a status or result code of 3, an IDLE with a non-zero seat, or a FOUND with tag id 0, whatever the status. -/
def sampleCodesInvalid (b : List Byte) : Bool :=
  let t := (answerByte b tagBase).toNat
  allSeats.any (fun k =>
      let v := seatStateByte b k
      v % 4 == 3 || v / 4 % 4 == 3 || v / 16 % 4 == 3)
    || t / 64 == 3 || t % 4 == 3
    || (t / 64 == 0 && t / 16 % 4 != 0)
    || (t % 4 == 1
        && answerByte b (tagBase + 1) == 0 && answerByte b (tagBase + 2) == 0 && answerByte b (tagBase + 3) == 0)

/-- The outcome of an answer to an exchange, in the order of R20: CRC_ERROR for a failing CRC, a length that is not
that of the kind claimed or a code outside the tables (R176); MISMATCH for another address, sequence or kind; GOOD. -/
def judgeAnswer (s : State) (x : Exchange) (b : List Byte) : AnswerOutcome :=
  if !answerCrcChecks b || b.length != answerLength (claimedKind b)
      || (claimedKind b == 0 && sampleCodesInvalid b) then .crcError
  else if answerByte b 0 != rowAddress s x.row || (answerByte b 1).setWidth 4 != x.sequence
      || claimedKind b != pollKindCode x.kind then .mismatch
  else .good

/-- Cell i of the seat whose bytes start at `base`: bit 15 the fault mark, bits 11..0 the code (R176). -/
def parseCell (b : List Byte) (base i : Nat) : CellReading :=
  let w := word16 (answerByte b (base + 2 * i)) (answerByte b (base + 2 * i + 1))
  ⟨w.setWidth 12, w.msb⟩

def parseBuckle (v : Nat) : BuckleReading :=
  if v % 4 = 0 then .isOpen else if v % 4 = 1 then .latched else .fault

def parseAnchor (v : Nat) : AnchorReading :=
  if v % 4 = 0 then .isOpen else if v % 4 = 1 then .engaged else .notFitted

/-- A seat's part of a SAMPLE answer (R38, R176). -/
def parseSeat (b : List Byte) (k : Seat) : SeatPart :=
  let base := seatBase k
  let tension := word16 (answerByte b (base + 16)) (answerByte b (base + 17))
  let v := seatStateByte b k
  { cells := PerCell.ofFn (parseCell b base)
    tension := if tension.msb then none else some (tension.setWidth 10)
    buckle := parseBuckle v
    leftAnchor := parseAnchor (v / 4)
    rightAnchor := parseAnchor (v / 16) }

/-- A tag read's result (R38). -/
inductive TagResult where
  | nothing
  | found (tag : TagId) (orient : Orientation)
  | fault
  deriving DecidableEq, Repr

/-- The tag status of a sample (R38). A DONE keeps its seat as the number sent, since 0 names no seat. -/
inductive TagStatus where
  | idle
  | busy
  | done (seat : Nat) (number : BitVec 2) (result : TagResult)
  deriving DecidableEq, Repr

/-- The orientation of a FOUND: 0 REAR, 1 FORWARD; the other codes give the free value of assumption 3 (R176). -/
def parseOrientation (b : Byte) : Orientation :=
  if b = 0 then .rear else if b = 1 then .forward
  else if Config.orientationOfCode b then .forward else .rear

/-- The tag status of a SAMPLE answer (R176). -/
def parseTagStatus (b : List Byte) : TagStatus :=
  let t := (answerByte b tagBase).toNat
  let tag : TagId := answerByte b (tagBase + 1) ++ answerByte b (tagBase + 2) ++ answerByte b (tagBase + 3)
  if t / 64 = 0 then .idle
  else if t / 64 = 1 then .busy
  else .done (t / 16 % 4) (BitVec.ofNat 2 (t / 4 % 4))
    (if t % 4 = 0 then .nothing
     else if t % 4 = 1 then .found tag (parseOrientation (answerByte b (tagBase + 4)))
     else .fault)

/-- The identity of a READ_ID answer: kind, revision, serial (R176). -/
def parseIdentity (b : List Byte) : Identity :=
  ⟨answerByte b 2, answerByte b 3,
   answerByte b 4 ++ answerByte b 5 ++ answerByte b 6 ++ answerByte b 7⟩

/-- The register value of a READ_REG or WRITE_REG answer (R176). -/
def parseRegister (b : List Byte) : Word16 := word16 (answerByte b 2) (answerByte b 3)

/-! ### A seat's latch as bytes (READ_ROW) -/

def anchorCode : AnchorReading → Nat
  | .isOpen => 0 | .engaged => 1 | .notFitted => 2

def buckleReadingCode : BuckleReading → Nat
  | .isOpen => 0 | .latched => 1 | .fault => 2

/-- The 19 bytes of a seat's part, in the layout of R176. -/
def seatBytes (p : SeatPart) : List Byte :=
  p.cells.toList.flatMap (fun c => bytesOf16 (c.code.setWidth 16 ||| if c.faulted then 0x8000#16 else 0#16))
    ++ (match p.tension with
        | none => [0x80#8, 0#8]
        | some t => bytesOf16 (t.setWidth 16))
    ++ [byte (buckleReadingCode p.buckle + 4 * anchorCode p.leftAnchor + 16 * anchorCode p.rightAnchor)]

/-! ### The vehicle state and the acknowledgement mask -/

/-- The gear of a code; another code makes the whole frame invalid (R156, R177). -/
def parseGear (b : Byte) : Option Gear :=
  if b = 0 then some .park else if b = 1 then some .reverse else if b = 2 then some .neutral
  else if b = 3 then some .drive else if b = 4 then some .unknown else none

/-- The closures: bits 0..4 set for open (R177). -/
def parseClosures (b : Byte) : Closures :=
  ⟨b.getLsbD 0, b.getLsbD 1, b.getLsbD 2, b.getLsbD 3, b.getLsbD 4⟩

/-- The bit of a position in an acknowledgement: bit p − 1 (R177). -/
def ackBit (mask : Word16) (p : Pos) : Bool := mask.getLsbD (p.num - 1)

end Sys2Proof.Machine
end

