-- ==== Sys2Proof/Machine/Ops.lean ====
section
/-! DEFINITION. The operations every block uses: changing one block's part of the state, the rest timer's restart, and
handing a notice to the Body Port's queue (R161). -/

namespace Sys2Proof.Machine

/-! ### One block's part -/

def State.onMonitor (s : State) (f : Monitor → Monitor) : State := { s with monitor := f s.monitor }
def State.onLine (s : State) (f : RowLine → RowLine) : State := { s with line := f s.line }
def State.onChild (s : State) (f : ChildUnit → ChildUnit) : State := { s with child := f s.child }
def State.onPub (s : State) (f : Publication → Publication) : State := { s with pub := f s.pub }
def State.onCadence (s : State) (f : Cadence → Cadence) : State := { s with cadence := f s.cadence }
def State.onPort (s : State) (f : Restraint → Restraint) : State := { s with port := f s.port }
def State.onBody (s : State) (f : Body → Body) : State := { s with body := f s.body }
def State.onSettings (s : State) (f : Settings → Settings) : State := { s with settings := f s.settings }
def State.onPins (s : State) (f : Pins → Pins) : State := { s with pins := f s.pins }

/-- The row record of `r` changed. -/
def State.onRow (s : State) (r : Row) (f : RowRecord → RowRecord) : State :=
  { s with line := { s.line with rows := s.line.rows.modify r f } }

/-- The load state of `p` changed. -/
def State.onLoad (s : State) (p : Pos) (f : LoadState → LoadState) : State := { s with load := s.load.modify p f }

/-- The Classifier's state of `p` changed. -/
def State.onCls (s : State) (p : Pos) (f : ClassState → ClassState) : State := { s with cls := s.cls.modify p f }

/-- The reminder of `p` changed. -/
def State.onRem (s : State) (p : Pos) (f : Reminder → Reminder) : State := { s with rem := s.rem.modify p f }

/-- The coil state of `p` changed. -/
def State.onCoil (s : State) (p : Pos) (f : Coil → Coil) : State :=
  { s with child := { s.child with coils := s.child.coils.modify p f } }

def State.row (s : State) (r : Row) : RowRecord := s.line.rows.get r
def State.coil (s : State) (p : Pos) : Coil := s.child.coils.get p

/-- An operation for each of a list of things, in order. -/
def forEach {α : Type} (l : List α) (f : α → State → State) (s : State) : State := l.foldl (fun t a => f a t) s

/-! ### The device state -/

/-- The device state is RUN or REST. -/
def awake (s : State) : Bool := s.monitor.device == .run || s.monitor.device == .rest

/-- The 4 ms wake settle runs (R172). -/
def settling (s : State) : Bool := s.monitor.device == .sleep && s.monitor.wakeSettle.isSome

/-- A command that finds the part held in reset has no effect: every block keeps its reset values until the reset
ends (R174). -/
def outsideReset (s : State) (f : State → State) : State := if s.monitor.inReset then s else f s

/-- A report to the Monitor restarts the rest timer, which runs in REST alone (R171). -/
def restartRest (s : State) : State :=
  if s.monitor.device = .rest then s.onMonitor (fun m => { m with restTimer := some (restTime s) }) else s

/-! ### Notices (R160, R161) -/

/-- The classes that make a CLASS_CHANGE URGENT under BY_CLASS: the child seat classes and INDETERMINATE (R105). -/
def urgentClass (code : Byte) : Bool := code == 4 || code == 5 || code == 6 || code == 7

/-- The class a notice takes when it enters the queue (R160). -/
def noticeUrgent (g : Groups) (n : Notice) : Bool :=
  let c := kindClass g (noticeKindCode n.kind)
  c == 1 || (c == 2 && (urgentClass n.old || urgentClass n.new))

/-- The notice coalesces with the entry: same kind, same subject, class ROUTINE (R161, case 1). -/
def coalesces (n : Notice) (e : QueueEntry) : Bool :=
  !e.urgent && e.notice.kind == n.kind && e.notice.subject == n.subject

/-- A coalesced entry keeps its old value and takes the notice's new value, reason and tag id, and waits to be chosen
again (R161, case 1). -/
def coalesced (n : Notice) (e : QueueEntry) : QueueEntry :=
  { e with notice := { e.notice with new := n.new, reason := n.reason, tag := n.tag }, inSlot := false }

/-- The slot without the frame of a withdrawn entry. -/
def withdraw (slot : Option SlotFrame) (es : List QueueEntry) : Option SlotFrame :=
  if es.any (·.inSlot) then none else slot

/-- The youngest ROUTINE entry removed (R161, case 4). -/
def dropYoungestRoutine (q : List QueueEntry) : List QueueEntry := (q.reverse.eraseP (fun e => !e.urgent)).reverse

/-- The youngest ROUTINE entry, as a list of at most one. -/
def youngestRoutine (q : List QueueEntry) : List QueueEntry := (q.reverse.find? (fun e => !e.urgent)).toList

/-- A notice handed to the queue, by the first case of R161 that applies. -/
def Body.enter (b : Body) (urgent : Bool) (n : Notice) : Body :=
  if !urgent && b.queue.any (coalesces n) then
    { b with
      queue := b.queue.map (fun e => if coalesces n e then coalesced n e else e)
      slot := withdraw b.slot (b.queue.filter (coalesces n)) }
  else if b.queue.length < 24 then
    { b with queue := b.queue ++ [⟨n, urgent, false⟩] }
  else if !urgent then { b with resync := true }
  else if b.queue.any (fun e => !e.urgent) then
    { b with
      queue := dropYoungestRoutine b.queue ++ [⟨n, urgent, false⟩]
      slot := withdraw b.slot (youngestRoutine b.queue)
      resync := true }
  else { b with resync := true }

/-- A producer hands a notice on (R161). -/
def notify (n : Notice) (s : State) : State :=
  s.onBody (fun b => b.enter (noticeUrgent s.settings.active n) n)

end Sys2Proof.Machine
end

