-- ==== Sys2Proof/Machine/Reminders.lean ====
section
/-! DEFINITION. The Reminder Engine: its signals, its condition lists and the ladder of one position (chapter 7). -/

namespace Sys2Proof.Machine

/-! ### Signals (R117 to R119) -/

/-- The vehicle-state values the Body Port presents (R117, R156). -/
def presented (b : Body) : Vehicle :=
  if b.vehicle.freshness = .degraded then ⟨255, .drive, Closures.closed, .degraded⟩ else b.vehicle

def slidingClosed (c : Closures) : Bool := !c.slidingLeft && !c.slidingRight
def allClosed (c : Closures) : Bool := !c.frontLeft && !c.frontRight && slidingClosed c && !c.rear

/-- The van-wide signals by code 0..7 (R117). -/
def vanSignal (s : State) (code : Nat) : Bool :=
  let v := presented s.body
  match code with
  | 0 => s.monitor.ign
  | 1 => speedV1 s ≤ v.speed.toNat
  | 2 => speedV2 s ≤ v.speed.toNat
  | 3 => v.gear == .drive || v.gear == .reverse
  | 4 => allClosed v.closures
  | 5 => slidingClosed v.closures
  | 6 => v.freshness == .fresh
  | 7 => s.pub.locked
  | _ => false

/-- The eight van-wide signals. -/
def vanSignals (s : State) : List Bool := (List.range 8).map (vanSignal s)

/-- The position is anchored: its anchors flag is set and both its debounced anchors are ENGAGED (R68). -/
def anchored (s : State) (p : Pos) : Bool :=
  anchorsFitted s p && (s.cls.get p).left.engaged && (s.cls.get p).right.engaged

/-- BELT_REQUIRED (R118). -/
def beltRequired (s : State) (p : Pos) : Bool :=
  posFitted s p && (s.row p.row).state != .absent &&
    match s.pub.table.get p with
    | .smallOccupant | .adult => true
    | .childSeat | .childSeatRear | .childSeatForward => !anchored s p
    | .indeterminate _ => isFront p
    | .vacant | .object | .notInstalled | .notFitted => false

/-- BUCKLE_OPEN (R119). -/
def buckleOpen (s : State) (p : Pos) : Bool := (s.cls.get p).buckle != .latched

/-- A signal of a position by its code (R117 to R119). Codes 10 to 15 are stored by no list (R120). -/
def signal (s : State) (p : Pos) (code : Nat) : Bool :=
  if code = 8 then beltRequired s p else if code = 9 then buckleOpen s p else vanSignal s code

/-! ### Condition lists (R120, R121) -/

/-- The terms of list L: as many of its eight term words as its term count says (R120, R178). -/
def listTerms (g : Groups) (l : Nat) : List Word16 :=
  ((g.lists.drop (9 * l + 1)).take 8).take (wordAt g.lists (9 * l))

/-- A term's value: its signal, negated when the invert flag is set (R121, step 1). -/
def termValue (s : State) (p : Pos) (t : Word16) : Bool :=
  let v := signal s p (t.toNat % 16)
  if t.getLsbD 4 then !v else v

/-- The fold of R121, steps 2 and 3: bit 5 of a later term is its join, set for OR. -/
def foldTerms (value : Word16 → Bool) : List Word16 → Bool
  | [] => false
  | t :: rest => rest.foldl (fun acc u => if u.getLsbD 5 then acc || value u else acc && value u) (value t)

/-- The result of list L for a position (R121). -/
def listResult (s : State) (p : Pos) (l : Nat) : Bool := foldTerms (termValue s p) (listTerms s.settings.active l)

/-- The START result: list 0 for a FRONT position, list 2 for a REAR one (R121, R178). -/
def startResult (s : State) (p : Pos) : Bool := listResult s p (if isFront p then 0 else 2)

/-- The ESCALATE result: list 1 or list 3 (R121, R178). -/
def escalateResult (s : State) (p : Pos) : Bool := listResult s p (if isFront p then 1 else 3)

/-! ### The ladder (R122 to R129) -/

/-- The position is held OFF (R122). -/
def remHeld (s : State) (p : Pos) : Bool :=
  !posFitted s p || (s.row p.row).state == .absent || s.monitor.device != .run

/-- Entry to OFF: both timers stop, the episode count is kept (R129). -/
def remOff (p : Pos) (s : State) : State :=
  s.onRem p (fun r => { r with state := .off, delay := none, audible := none })

/-- A REMINDER notice (R135). -/
def reminderNotice (p : Pos) (old new reason : Nat) : Notice :=
  ⟨.reminder, .position p, byte old, byte new, byte reason, none⟩

/-- Entry to AUDIBLE: the count rises, the audible timer starts, the notice carries the count (R125, R135). -/
def enterAudible (p : Pos) (s : State) : State :=
  let n := (s.rem.get p).episodes + 1
  notify (reminderNotice p 2 3 n)
    (s.onRem p (fun r => { r with state := .audible, audible := some (audibleTime s), episodes := n }))

/-- Entry to VISUAL, and on to AUDIBLE at once while ESCALATE holds and an episode is left (R125). -/
def enterVisual (p : Pos) (s : State) : State :=
  let s1 := s.onRem p (fun r => { r with state := .visual, delay := none })
  if (s.rem.get p).escalate && (s.rem.get p).episodes < episodeLimit s then enterAudible p s1 else s1

/-- Entry to WAIT with a delay; a delay of 0 expires at the moment it is started (R123, R124). -/
def enterWait (p : Pos) (delay : Nat) (s : State) : State :=
  if delay = 0 then enterVisual p s
  else s.onRem p (fun r => { r with state := .wait, delay := some delay })

/-- The position's reminder acts on its START and ESCALATE results as they stand (R122 to R128). `delay` is the delay
that a step from OFF to WAIT takes (R123). -/
def actOnResults (p : Pos) (delay : Nat) (s : State) : State :=
  let r := s.rem.get p
  match r.state with
  | .off => if r.start then enterWait p delay s else s
  | .wait => if r.start then s else remOff p s
  | .visual =>
    if !r.start then remOff p s
    else if r.escalate && r.episodes < episodeLimit s then enterAudible p s
    else s
  | .audible => if r.start then s else remOff p s
  | .silenced => if r.start then s else remOff p s

/-- The delay of R123: the change-of-status delay when the evaluation is caused by a buckle change from LATCHED to OPEN
with ESCALATE true just before it, the group's start delay otherwise. -/
def chooseDelay (s : State) (p : Pos) (unbuckled : Bool) : Nat :=
  if unbuckled && (s.rem.get p).escalate then changeDelay s else startDelay s p

/-- The lists of a position that is not held are evaluated, and its reminder acts on the results (R121, R122).
`unbuckled` says that a buckle change from LATCHED to OPEN caused it. -/
def evaluateLists (unbuckled : Bool) (p : Pos) (s : State) : State :=
  if remHeld s p then s
  else
    actOnResults p (chooseDelay s p unbuckled)
      (s.onRem p (fun r => { r with start := startResult s p, escalate := escalateResult s p }))

/-- Every position that is not held is evaluated (R121), in ascending order, the model's choice (assumption 20). -/
def evaluateAllLists (s : State) : State := forEach allPos (evaluateLists false) s

/-- The lists are evaluated when a van-wide signal differs from what it was in `before` (R121). -/
def afterVanChange (before s : State) : State :=
  if vanSignals before = vanSignals s then s else evaluateAllLists s

/-- The lists of `p` are evaluated when its BELT_REQUIRED or BUCKLE_OPEN differs from what it was in `before`
(R121). -/
def afterSeatChange (unbuckled : Bool) (before : State) (p : Pos) (s : State) : State :=
  if beltRequired before p = beltRequired s p ∧ buckleOpen before p = buckleOpen s p then s
  else evaluateLists unbuckled p s

/-- An AUDIBLE position enters SILENCED, with the reason given (R126, R135). -/
def silence (p : Pos) (reason : Nat) (s : State) : State :=
  notify (reminderNotice p 3 4 reason) (s.onRem p (fun r => { r with state := .silenced, audible := none }))

/-- A REMINDER_ACK: every REAR position in AUDIBLE whose bit is set is silenced with reason 2, ACKNOWLEDGED
(R127), in ascending order, the model's choice (assumption 20). -/
def acknowledge (mask : Word16) (s : State) : State :=
  forEach allPos (fun p t =>
    if ackBit mask p && !isFront p && (t.rem.get p).state == .audible then silence p 2 t else t) s

/-- Every position enters OFF and its episode count becomes 0, at a deassertion of IGN (R131). -/
def remIgnOff (s : State) : State :=
  forEach allPos (fun p t => (remOff p t).onRem p (fun r => { r with episodes := 0 })) s

end Sys2Proof.Machine
end

