-- ==== Sys2Proof/Machine/Cadences.lean ====
section
/-! DEFINITION. The Cadence Generator: its two timers, the chime arbiter, TELLTALE and the output gates (chapter 8). -/

namespace Sys2Proof.Machine

/-! ### Cadence timers (R137, R138) -/

/-- A fresh period of a cadence (R137). -/
def freshTimer (prescaler period onCount : Nat) : CadenceTimer := ⟨prescaler, period, onCount, 0, 0, true⟩

/-- The cadence of a chime profile (R138). NONE has none; it is never loaded. -/
def chimeCadence : Profile → CadenceTimer
  | .front => freshTimer 2 250 125
  | .rear => freshTimer 8 150 38
  | .none => freshTimer 2 250 125

/-- The FLASH cadence (R138). -/
def flashCadence : CadenceTimer := freshTimer 4 250 125

/-- A stopped timer holds its counts (R137). -/
def CadenceTimer.stop (t : CadenceTimer) : CadenceTimer := { t with running := false }

/-- The timer reloads itself: its counts return to 0 (R137). -/
def CadenceTimer.reload (t : CadenceTimer) : CadenceTimer := { t with unit := 0, sub := 0 }

/-- The level: ON while the timer runs and its unit count is below the on-count (R137). -/
def CadenceTimer.level (t : CadenceTimer) : Bool := t.running && t.unit < t.onCount

/-- The unit count reaches the on-count: the on part of the period ends (R137). -/
def CadenceTimer.endOnPart (t : CadenceTimer) : CadenceTimer :=
  if t.running && t.unit < t.onCount && t.onCount < t.period then { t with unit := t.onCount, sub := 0 } else t

/-- One tick of the 1 ms base, short of the period end (R137); the second part is true when the period ends. -/
def CadenceTimer.tick (t : CadenceTimer) : CadenceTimer × Bool :=
  if !t.running then (t, false)
  else if t.sub + 1 < t.prescaler then ({ t with sub := t.sub + 1 }, false)
  else if t.unit + 1 < t.period then ({ t with sub := 0, unit := t.unit + 1 }, false)
  else (t, true)

/-! ### What the outputs are asked to show (R139) -/

/-- A position of the group (`front` or rear) is in the state. -/
def anyInState (c : PerPos RemState) (front : Bool) (x : RemState) : Bool :=
  allPos.any (fun p => isFront p == front && c.get p == x)

/-- The wanted profile (R139). -/
def wantedProfile (c : PerPos RemState) : Profile :=
  if anyInState c true .audible then .front else if anyInState c false .audible then .rear else .none

/-- The TELLTALE states (R139). -/
inductive Telltale where
  | off | steady | flashing
  deriving DecidableEq, Repr

/-- The TELLTALE state (R139). -/
def telltaleState (c : PerPos RemState) : Telltale :=
  if anyInState c true .audible then .flashing
  else if anyInState c true .visual || anyInState c true .silenced then .steady
  else .off

/-! ### The chime arbiter and the flash timer (R140 to R143) -/

/-- A release-pending output is released (R146). -/
def Gate.release : Gate → Gate
  | .pending => .following
  | g => g

/-- The chime arbiter's act on a change of the wanted profile (R140, R141, R142). The stop of the timer releases a
release-pending CHIME (R146). -/
def Cadence.onWanted (c : Cadence) (wanted : Profile) : Cadence :=
  match wanted with
  | .none => { c with chime := c.chime.stop, active := .none, chimeGate := c.chimeGate.release }
  | w => if c.active = .none then { c with chime := chimeCadence w, active := w } else c

/-- The flash timer's act on a change of the TELLTALE state (R143). Its stop releases a release-pending TELLTALE
(R146). -/
def Cadence.onTelltale (c : Cadence) (old new : Telltale) : Cadence :=
  if new = .flashing then { c with flash := flashCadence }
  else if old = .flashing then
    { c with flash := c.flash.stop, telltaleGate := c.telltaleGate.release }
  else c

/-- The changes of one event reach the copy together; the two wanted values are then formed once, and only a change of
one acts (R139). -/
def Cadence.take (c : Cadence) (states : PerPos RemState) : Cadence :=
  let c1 := { c with copy := states }
  let c2 := if wantedProfile c.copy = wantedProfile states then c1 else c1.onWanted (wantedProfile states)
  if telltaleState c.copy = telltaleState states then c2
  else c2.onTelltale (telltaleState c.copy) (telltaleState states)

/-- The Cadence Generator takes the reminder states as the event leaves them (R136, R139). -/
def takeReminders (s : State) : State :=
  s.onCadence (fun c => c.take (s.rem.mapIdx (fun _ r => r.state)))

/-- The chime timer's period end: the timer reloads, or takes the cadence of the profile then wanted; a release-pending
CHIME is released (R140, R141, R146). -/
def Cadence.chimeEnds (c : Cadence) : Cadence :=
  if !c.chime.running then c
  else
    let w := wantedProfile c.copy
    if w = .none then c.onWanted .none
    else if w = c.active then { c with chime := c.chime.reload, chimeGate := c.chimeGate.release }
    else { c with chime := chimeCadence w, active := w, chimeGate := c.chimeGate.release }

/-- The flash timer's period end: the timer reloads and a release-pending TELLTALE is released (R143, R146). -/
def Cadence.flashEnds (c : Cadence) : Cadence :=
  if !c.flash.running then c
  else { c with flash := c.flash.reload, telltaleGate := c.telltaleGate.release }

/-! ### Output gating (R144 to R146) -/

/-- An output's gate at an assertion of OUTEN: with OUTCFG 0 it follows its level at once; with OUTCFG 1 it is
release-pending while its timer runs (R144, R146). -/
def gateAtAssertion (outcfg running : Bool) : Gate := if outcfg && running then .pending else .following

/-- OUTEN asserts, in RUN or REST (R144, R146). -/
def Cadence.openGates (c : Cadence) (outcfg : Bool) : Cadence :=
  { c with
    chimeGate := gateAtAssertion outcfg c.chime.running
    telltaleGate := gateAtAssertion outcfg c.flash.running }

/-- OUTEN deasserts, or the part leaves RUN and REST (R144, R145). -/
def Cadence.closeGates (c : Cadence) : Cadence := { c with chimeGate := .closed, telltaleGate := .closed }

/-- The outputs at the end of STARTING and of the wake settle: as the gating table gives for OUTEN at that moment
(R145). -/
def gateOutputs (s : State) : State :=
  s.onCadence (fun c => if s.pins.outen then c.openGates s.straps.outcfg else c.closeGates)

/-- The Cadence Generator at sleep entry (R145). -/
def Cadence.sleep (c : Cadence) : Cadence :=
  { c with
    chime := c.chime.stop, flash := c.flash.stop, active := .none, copy := PerPos.all .off,
    chimeGate := .closed, telltaleGate := .closed }

/-! ### The pins (R144, R145, R147) -/

/-- What a pin is driven to. -/
inductive PinState where
  | active | inactive | highImpedance
  deriving DecidableEq, Repr

/-- A pin from its gate and its level. A closed gate leaves the pin inactive with OUTCFG 0 in RUN and REST, and
high-impedance otherwise (R144, R145). -/
def pinState (s : State) (g : Gate) (level : Bool) : PinState :=
  match g with
  | .closed => if awake s && !s.straps.outcfg then .inactive else .highImpedance
  | .pending => .highImpedance
  | .following => if level then .active else .inactive

/-- The TELLTALE level (R143). -/
def telltaleLevel (c : Cadence) : Bool :=
  match telltaleState c.copy with
  | .off => false
  | .steady => true
  | .flashing => c.flash.level

/-- The CHIME pin (R144). -/
def chimePin (s : State) : PinState := pinState s s.cadence.chimeGate s.cadence.chime.level

/-- The TELLTALE pin (R144). -/
def telltalePin (s : State) : PinState := pinState s s.cadence.telltaleGate (telltaleLevel s.cadence)

end Sys2Proof.Machine
end

