-- ==== Sys2Proof/Machine/Flags.lean ====
section
/-! DEFINITION. The flags and fields the ports show: lamp states, output fields, row flags, the restraint payloads and
the two maps, each worked out from the state it is read from (R17, R134, R147, R151, R152, R157, R177). -/

namespace Sys2Proof.Machine

/-! ### Lamp states (R134) -/

/-- The class is one of the occupied ones of R134's line 4. -/
def occupiedClass : ClassRecord → Bool
  | .smallOccupant | .adult | .childSeat | .childSeatRear | .childSeatForward => true
  | .vacant | .object | .indeterminate _ | .notInstalled | .notFitted => false

/-- The class is one of those of R134's line 3. -/
def emptyClass : ClassRecord → Bool
  | .vacant | .object | .notInstalled | .notFitted => true
  | .smallOccupant | .adult | .childSeat | .childSeatRear | .childSeatForward | .indeterminate _ => false

/-- The record is INDETERMINATE. -/
def isIndeterminate : ClassRecord → Bool
  | .indeterminate _ => true
  | _ => false

/-- The lamp state's code: the first line of R134 that applies. The table is taken to the letter also right after reset,
where it gives NONE for a fitted position of an ABSENT row (assumption 38). -/
def lampCode (s : State) (p : Pos) : Nat :=
  let st := (s.rem.get p).state
  let c := s.pub.table.get p
  let b := (s.cls.get p).buckle
  if st = .audible then 3
  else if st = .visual ∨ st = .silenced then 2
  else if emptyClass c ∨ (s.row p.row).state = .absent then 0
  else if b = .latched ∧ (beltRequired s p ∨ occupiedClass c) then 1
  else if isIndeterminate c ∨ b = .unknown then 4
  else 0

/-! ### Output fields (R147) -/

/-- CHIME driven: the pin is driven active. -/
def chimeDriven (s : State) : Bool := chimePin s == .active

/-- The TELLTALE field: the TELLTALE state while the pin follows its level, 0 otherwise. -/
def telltaleField (s : State) : Nat :=
  if s.cadence.telltaleGate ≠ .following then 0
  else match telltaleState s.cadence.copy with
    | .off => 0 | .steady => 1 | .flashing => 2

/-- The active profile bit: 1 for REAR. -/
def profileBit (s : State) : Bool := s.cadence.active == .rear

/-! ### Row flags (R17) -/

/-- The flag of a row: fitted and not ONLINE. -/
def rowFlag (s : State) (r : Row) : Bool := rowFitted s r && (s.row r).state != .online

/-! ### Fields of fixed width, the first in the highest bits -/

/-- A number as a field of w bits after the fields already laid out. -/
def field (acc : Nat) (w v : Nat) : Nat := acc * 2 ^ w + v % 2 ^ w

/-! ### Restraint payloads (R151, R177) -/

def epochBits (s : State) (n : Nat) : Nat := s.pub.epoch.toNat % 2 ^ n

/-- NOP: device state (2), lock (1), epoch (9). -/
def nopPayload (s : State) : BitVec 12 :=
  BitVec.ofNat 12 (field (field (deviceCode s.monitor.device) 1 (bit s.pub.locked)) 9 (epochBits s 9))

/-- GET_FRONT: classes of positions 2 and 3 (4 each), lock (1), epoch (3). -/
def getFrontPayload (s : State) : BitVec 12 :=
  BitVec.ofNat 12 (field (field (field (classCode (s.pub.table.get ⟨.r1, .s2⟩)) 4
    (classCode (s.pub.table.get ⟨.r1, .s3⟩))) 1 (bit s.pub.locked)) 3 (epochBits s 3))

/-- GET_POSITION: class (4), reason (4), epoch (4). -/
def getPositionPayload (s : State) (p : Pos) : BitVec 12 :=
  BitVec.ofNat 12 (field (field (classCode (s.pub.table.get p)) 4 (recordReason (s.pub.table.get p))) 4 (epochBits s 4))

/-- GET_STATUS: device state (2), HOLD (1), configuration state (2), lock (1), DEGRADED (1), row flags (5, bit 0 for
row 1). -/
def getStatusPayload (s : State) : BitVec 12 :=
  let flags := bit (rowFlag s .r1) + 2 * bit (rowFlag s .r2) + 4 * bit (rowFlag s .r3)
    + 8 * bit (rowFlag s .r4) + 16 * bit (rowFlag s .r5)
  BitVec.ofNat 12 (field (field (field (field (field (deviceCode s.monitor.device) 1 (bit s.monitor.hold)) 2
    (configCode s.settings.config)) 1 (bit s.pub.locked)) 1 (bit (s.body.vehicle.freshness == .degraded))) 5 flags)

/-- The NOT_READY payload of the echoed command (R152). -/
def notReadyPayload (command : Byte) : BitVec 12 :=
  if command = 0x02 then BitVec.ofNat 12 (field (field 7 4 7) 4 0)
  else if command = 0x03 then BitVec.ofNat 12 (field (field 7 4 9) 4 0)
  else 0

/-- The four bytes of a response: echo, status and payload, CRC-8 (R177). -/
def responseBytes (r : Response) : List Byte :=
  let low := (BitVec.ofNat 4 (statusCode r.status) ++ r.payload : BitVec 16)
  let front := r.echo :: bytesOf16 low
  front ++ [crc8 front]

/-! ### Maps (R157, R177) -/

/-- OCC_MAP: the fifteen classes, 4 bits each, then the epoch's low 4 bits. -/
def occMapWord (s : State) : BitVec 64 :=
  BitVec.ofNat 64 (field (allPos.foldl (fun acc p => field acc 4 (classCode (s.pub.table.get p))) 0) 4 (epochBits s 4))

/-- BELT_MAP: the fifteen lamp states, 3 bits each; CHIME driven, TELLTALE, profile; epoch (8), lock, RESYNC,
configuration state (2), freshness (2) and a zero bit. -/
def beltMapWord (s : State) : BitVec 64 :=
  let lamps := allPos.foldl (fun acc p => field acc 3 (lampCode s p)) 0
  let outputs := field (field (field lamps 1 (bit (chimeDriven s))) 2 (telltaleField s)) 1 (bit (profileBit s))
  let state := field (field (field (field (field outputs 8 (epochBits s 8)) 1 (bit s.pub.locked)) 1 (bit s.body.resync))
    2 (configCode s.settings.config)) 2 (freshnessCode s.body.vehicle.freshness)
  BitVec.ofNat 64 (field state 1 0)

end Sys2Proof.Machine
end

