-- ==== Sys2Proof/Machine/BodyPort.lean ====
section
/-! DEFINITION. The Body Port: the maps, the transmit arbiter, the service replies and the vehicle-state copy
(chapter 10). -/

namespace Sys2Proof.Machine

/-! ### Maps (R157, R158) -/

/-- The map timer's period: 100 ms in RUN, 1000 ms in REST (R157). -/
def mapPeriod (s : State) : Nat := if s.monitor.device = .rest then 1000 else 100

/-- The identifier of a transmitted message: base + 0..3 (R155). -/
def transmitId (g : Groups) (o : SlotOwner) : BitVec 11 :=
  BitVec.ofNat 11 (baseId g + match o with
    | .occMap => 0 | .beltMap => 1 | .notice => 2 | .reply => 3)

/-- A new copy of a map in the slot in place of the one that is there (R157). -/
def replaceMapInSlot (g : Groups) (o : SlotOwner) (data : List Byte) (slot : Option SlotFrame) : Option SlotFrame :=
  match slot with
  | some f => if f.owner = o then some ⟨o, transmitId g o, data⟩ else some f
  | none => none

/-- Both maps fall due from one snapshot, each replacing an unacknowledged copy (R157). -/
def mapsDue (s : State) : State :=
  let occ := bytesOf64 (occMapWord s)
  let belt := bytesOf64 (beltMapWord s)
  let g := s.settings.active
  s.onBody (fun b =>
    { b with
      occMap := some occ
      beltMap := some belt
      slot := replaceMapInSlot g .beltMap belt (replaceMapInSlot g .occMap occ b.slot) })

/-! ### Replies (R164, R177) -/

/-- How many frames a content takes: the larger of 1 and n/6 rounded up. -/
def replyFrames (content : List Byte) : Nat := max 1 ((content.length + 5) / 6)

/-- The next unsent frame of a reply: kind, frame index and code, six content bytes padded with zeros. -/
def replyFrameBytes (r : Reply) : List Byte :=
  let part := (r.content.drop (6 * r.next)).take 6
  [r.kind, (BitVec.ofNat 4 r.next ++ r.code : BitVec 8)] ++ part ++ List.replicate (6 - part.length) 0

/-- A reply becomes the waiting one. -/
def sendReply (r : Reply) (s : State) : State := s.onBody (fun b => { b with reply := some r })

/-- The reply of a completed write: it waits its turn while another reply waits (R164). -/
def sendWriteReply (r : Reply) (s : State) : State :=
  s.onBody (fun b => if b.reply.isSome then { b with heldReply := some r } else { b with reply := some r })

/-! ### The transmit arbiter (R155, R159, R162) -/

/-- The first entry that satisfies `p` among the eligible ones, put in the slot: an entry is eligible when no older
entry with the same subject stands in the queue (R162). Answers the entry and the queue with it marked. -/
def chooseEntry (p : QueueEntry → Bool) : List Subject → List QueueEntry → Option (QueueEntry × List QueueEntry)
  | _, [] => none
  | older, e :: rest =>
    if p e && !older.contains e.notice.subject then some (e, { e with inSlot := true } :: rest)
    else (chooseEntry p (e.notice.subject :: older) rest).map (fun x => (x.1, e :: x.2))

/-- The arbiter's choice among the notices (R162). -/
def chooseNotice (b : Body) : Option (QueueEntry × List QueueEntry) :=
  let routine := chooseEntry (fun e => !e.urgent) [] b.queue
  let urgent := chooseEntry (fun e => e.urgent) [] b.queue
  match (if b.urgentCount = 3 then routine else none) with
  | some x => some x
  | none => match urgent with
    | some x => some x
    | none => routine

/-- The eight bytes of a NOTICE (R177). -/
def noticeBytes (n : Notice) : List Byte :=
  [byte (noticeKindCode n.kind), byte (subjectNum n.subject), n.old, n.new, n.reason] ++ bytesOf24 (n.tag.getD 0)

/-- A frame placed in the slot under the identifier then in force (R155, R159). -/
def placeFrame (g : Groups) (o : SlotOwner) (data : List Byte) (b : Body) : Body :=
  { b with slot := some ⟨o, transmitId g o, data⟩ }

/-- A SERVICE_REPLY in the slot, if one waits. -/
def placeReply (g : Groups) (b : Body) : Body :=
  match b.reply with
  | some r => placeFrame g .reply (replyFrameBytes r) b
  | none => b

/-- The first waiting frame in the order of R159. -/
def placeAny (g : Groups) (b : Body) : Body :=
  match b.occMap, b.beltMap, b.reply, chooseNotice b with
  | some m, _, _, _ => placeFrame g .occMap m b
  | none, some m, _, _ => placeFrame g .beltMap m b
  | none, none, some r, _ => placeFrame g .reply (replyFrameBytes r) b
  | none, none, none, some x => placeFrame g .notice (noticeBytes x.1.notice) { b with queue := x.2 }
  | none, none, none, none => b

/-- The arbiter fills an empty slot; nothing is sent during bus-off. In STARTING and the wake settle a SERVICE_REPLY
alone is sent, in SLEEP nothing (R155, R159). -/
def arbitrate (s : State) : State :=
  if s.body.slot.isSome || s.body.busOff then s
  else if awake s then s.onBody (placeAny s.settings.active)
  else if s.monitor.device == .starting || settling s then s.onBody (placeReply s.settings.active)
  else s

/-- The count of consecutive URGENT transmissions after a notice left (R162). -/
def urgentCountAfter (count : Nat) (urgent : Bool) : Nat := if urgent then min 3 (count + 1) else 0

/-- The waiting reply after one of its frames was acknowledged: its next frame, or the held reply once the last was
sent (R164, R177). -/
def Body.replySent (b : Body) : Body :=
  match b.reply with
  | none => b
  | some r =>
    if r.next + 1 < replyFrames r.content then { b with reply := some { r with next := r.next + 1 } }
    else { b with reply := b.heldReply, heldReply := none }

/-- The notice in the slot leaves the queue (R159, R162). -/
def Body.noticeSent (b : Body) : Body :=
  match b.queue.find? (·.inSlot) with
  | none => b
  | some e =>
    { b with queue := b.queue.eraseP (·.inSlot), urgentCount := urgentCountAfter b.urgentCount e.urgent }

/-- The owner of the acknowledged frame is told (R159). -/
def Body.acknowledged (b : Body) : Body :=
  match b.slot with
  | none => b
  | some f =>
    let b1 := { b with slot := none }
    match f.owner with
    | .occMap => { b1 with occMap := none }
    | .beltMap => { b1 with beltMap := none }
    | .reply => b1.replySent
    | .notice => b1.noticeSent

/-- Bus-off: the slot is emptied without acknowledgement and the frame stays waiting (R159). -/
def Body.enterBusOff (b : Body) : Body :=
  { b with busOff := true, slot := none, queue := b.queue.map (fun e => { e with inSlot := false }) }

/-! ### The vehicle-state copy (R156) -/

/-- IGN asserts: a STALE copy starts the degrade timer (R156). -/
def Body.ignOn (b : Body) : Body :=
  if b.vehicle.freshness = .stale then { b with degrade := some 2000 } else b

/-- IGN deasserts: the degrade timer stops and a DEGRADED copy returns to STALE (R156). -/
def Body.ignOff (b : Body) : Body :=
  { b with
    degrade := none
    vehicle := if b.vehicle.freshness = .degraded then { b.vehicle with freshness := .stale } else b.vehicle }

/-- A valid VEHICLE_STATE: the values replace the copy's, the copy becomes FRESH, the freshness timer restarts; the
degrade timer stops with the staleness it counts (R156; assumption 12). -/
def Body.takeVehicle (b : Body) (speed : Byte) (gear : Gear) (c : Closures) : Body :=
  { b with vehicle := ⟨speed, gear, c, .fresh⟩, freshTimer := some 500, degrade := none }

/-- The freshness timer expires (R156). -/
def Body.freshnessExpires (b : Body) (ign : Bool) : Body :=
  { b with
    freshTimer := none
    vehicle := { b.vehicle with freshness := .stale }
    degrade := if ign then some 2000 else b.degrade }

/-- The degrade timer expires (R156). -/
def Body.degradeExpires (b : Body) : Body :=
  { b with degrade := none, vehicle := { b.vehicle with freshness := .degraded } }

/-- The Body Port at sleep entry (R156, R157, R158, R159, R161, R162). -/
def Body.sleep (b : Body) : Body :=
  { vehicle := { b.vehicle with freshness := .stale }
    freshTimer := none, degrade := none, mapTimer := none, occMap := none, beltMap := none
    queue := [], resync := false, urgentCount := 0, reply := none, heldReply := none, slot := none, busOff := false }

/-- The Body Port at the end of STARTING and of the wake settle: the map timer starts, and the degrade timer if the copy
is STALE and IGN is asserted (R156, R157). -/
def Body.goLive (b : Body) (ign : Bool) (period : Nat) : Body :=
  let b1 := { b with mapTimer := some period }
  if ign then b1.ignOn else b1

end Sys2Proof.Machine
end

