-- ==== Sys2Proof/Machine/Publish.lean ====
section
/-! DEFINITION. The Publication Unit: batches, pending marks, the crash lock (chapter 6). -/

namespace Sys2Proof.Machine

/-- The settled record of the position differs from its published one. -/
def unpublished (s : State) (p : Pos) : Bool := (s.cls.get p).settled != s.pub.table.get p

/-- The CLASS_CHANGE notice of a changed record (R105). -/
def classNotice (p : Pos) (old new : ClassRecord) : Notice :=
  ⟨.classChange, .position p, byte (classCode old), byte (classCode new), byte (recordReason new), none⟩

/-- One batch over the positions given, in ascending order: their published records become the settled ones, the epoch
advances by one, a CLASS_CHANGE is made for each, the rest timer restarts and the Reminder Engine takes the changed
records. No position, no batch (R104, R111). -/
def publishBatch (ps : List Pos) (s : State) : State :=
  if ps.isEmpty then s
  else
    let s1 := s.onPub (fun u =>
      { u with
        table := u.table.mapIdx (fun p r => if ps.contains p then (s.cls.get p).settled else r)
        epoch := u.epoch + 1 })
    let s2 := forEach ps (fun p t => notify (classNotice p (s.pub.table.get p) (s.cls.get p).settled) t) s1
    let s3 := restartRest s2
    forEach ps (afterSeatChange false s) s3

/-- The settled changes of one event reach the Publication Unit: published as one batch while unlocked (R104), held as
pending marks while locked (R108). -/
def publish (s : State) : State :=
  if s.pub.locked then s.onPub (fun u => { u with marks := u.marks.mapIdx (fun p _ => unpublished s p) })
  else publishBatch (allPos.filter (unpublished s)) s

/-- The lock is taken or its hold timer restarted (R107). -/
def takeLock (holdTime : Nat) (s : State) : State :=
  afterVanChange s (s.onPub (fun u => { u with locked := true, holdTimer := some holdTime }))

/-- The hold time of a hold select 0..3 (R106). -/
def holdTime (select : Byte) : Nat :=
  if select = 0 then 1000 else if select = 1 then 2000 else if select = 2 then 5000 else 10000

/-- The lock is released: the pending records are published in one batch, the marks clear, the lock becomes UNLOCKED
(R111). The batch's positions are evaluated on their lists before all the others (assumptions 20, 21). -/
def releaseLock (s : State) : State :=
  let s1 := publishBatch (allPos.filter (fun p => s.pub.marks.get p && unpublished s p)) s
  afterVanChange s1 (s1.onPub (fun u => { u with locked := false, holdTimer := none, marks := PerPos.all false }))

/-- The end of an event that moved no settled record: the Cadence Generator takes the reminder states and the arbiter
fills an empty slot (R136, R159; assumption 2). -/
def endEvent (s : State) : State := arbitrate (takeReminders s)

/-- The end of an event that may have moved settled records (R104). -/
def endWithBatch (s : State) : State := endEvent (publish s)

end Sys2Proof.Machine
end

