-- ==== Sys2Proof/Machine/ChildSeats.lean ====
section
/-! DEFINITION. The Child Seat Unit: scan timers, urgent requests, tag reads, contests and the child seat list
(chapter 4). -/

namespace Sys2Proof.Machine

/-! ### The list (R69) -/

/-- The entry stands at the position: PRESENT or PROVISIONAL there (R69). -/
def standsAt (p : Pos) (e : Entry) : Bool := e.pos == p && e.state != .missing

/-- The entry standing at the position (R71). -/
def standing (s : State) (p : Pos) : Option Entry := s.child.entries.find? (standsAt p)

/-- The entry of a tag. -/
def entryOf (s : State) (x : TagId) : Option Entry := s.child.entries.find? (fun e => e.tag == x)

/-- The entry of a tag changed, in its place in the order (R69). -/
def onEntry (x : TagId) (f : Entry → Entry) (s : State) : State :=
  s.onChild (fun c => { c with entries := c.entries.map (fun e => if e.tag = x then f e else e) })

/-- The positions contested by a tag, lowest first (R73). -/
def contestedBy (s : State) (x : TagId) : List Pos := allPos.filter (fun p => (s.coil p).contest == some x)

/-- The tag evidence of a position as the Classifier sees it: the standing entry's tag and orientation, the contest mark
and the UNKNOWN mark (R71). -/
structure Evidence where
  entry   : Option (TagId × Orientation)
  contest : Option TagId
  unknown : Bool
  deriving DecidableEq, Repr

def evidence (s : State) (p : Pos) : Evidence :=
  ⟨(standing s p).map (fun e => (e.tag, e.orient)), (s.coil p).contest, (s.coil p).unknown⟩

/-- The positions whose evidence differs between two states (R71). -/
def evidenceChanges (before after : State) : List Pos := allPos.filter (fun p => evidence before p ≠ evidence after p)

/-! ### Urgent requests and contests (R63, R72) -/

/-- An urgent scan request for a fitted position with its tag coil flag set (R63). -/
def raiseUrgent (p : Pos) (s : State) : State :=
  if coilFitted s p then s.onCoil p (fun c => { c with urgent := true }) else s

/-- A contest mark set or cleared (R72). -/
def setContest (p : Pos) (x : Option TagId) (s : State) : State := s.onCoil p (fun c => { c with contest := x })

/-- The contest at a position whose named entry became MISSING: cleared, and an urgent request raised (R72). -/
def dropContest (p : Pos) (s : State) : State := raiseUrgent p (setContest p none s)

/-! ### Notices (R79) -/

/-- A child seat notice: the position concerned, the old and the new position number, the tag and the cause (R79). -/
def childNotice (kind : NoticeKind) (p : Pos) (old new : Nat) (x : TagId) (cause : Nat) : Notice :=
  ⟨kind, .position p, byte old, byte new, byte cause, some x⟩

/-! ### An entry vacates (R73) -/

/-- X becomes MISSING with its position kept, the contests naming it clear, and CHILD_SEAT_MISSING is made (R72, R73,
R79). -/
def makeMissing (x : TagId) (q : Pos) (cause : Nat) (s : State) : State :=
  let s1 := onEntry x (fun e => { e with state := .missing }) s
  let s2 := forEach (contestedBy s x) dropContest s1
  notify (childNotice .childSeatMissing q q.num 0 x cause) s2

/-- X is moved to `p` as PRESENT, its last-confirmed stamp set (R73, R77). -/
def placeEntry (x : TagId) (p : Pos) (s : State) : State :=
  onEntry x (fun e => { e with pos := p, state := .present, confirmed := s.monitor.seconds }) s

/-- Why an entry vacates: the cause a CHILD_SEAT_MOVED carries, and the cause of the CHILD_SEAT_MISSING, or none when an
uncontested entry stays where it is (R73, R80). -/
structure Vacating where
  moved   : Nat
  missing : Option Nat
  deriving DecidableEq, Repr

/-- The entry standing at q vacates q (R73). Entries that are themselves on the move do not count as standing. Each move
clears a contest, so the fifteen positions bound the chain of displacements that the first argument counts down. -/
def vacate : Nat → List TagId → Pos → Vacating → State → State
  | 0, _, _, _, s => s
  | fuel + 1, moving, q, v, s =>
    match s.child.entries.find? (fun e => standsAt q e && !moving.contains e.tag) with
    | none => s
    | some e =>
      match contestedBy s e.tag with
      | [] => match v.missing with
        | none => s
        | some cause => makeMissing e.tag q cause s
      | p :: _ =>
        let s1 := vacate fuel (e.tag :: moving) p ⟨v.moved, some causeDisplaced⟩ s
        let s2 := setContest p none (placeEntry e.tag p s1)
        let s3 := notify (childNotice .childSeatMoved p q.num p.num e.tag v.moved) s2
        if contestedBy s3 e.tag = [] then s3 else raiseUrgent p s3

/-- The entry standing at q vacates q, with nothing on the move before it. -/
def vacates (q : Pos) (v : Vacating) (s : State) : State := vacate 16 [] q v s

/-! ### Results (R67, R72, R74 to R78) -/

/-- The FAULT count rises, up to 3; at 3 the evidence becomes UNKNOWN (R67). -/
def countFault (p : Pos) (s : State) : State :=
  s.onCoil p (fun c =>
    { c with faults := min 3 (c.faults + 1), unknown := c.unknown || decide (3 ≤ c.faults + 1) })

/-- NONE and FOUND return the count to 0 and clear UNKNOWN (R67). -/
def clearFaults (p : Pos) (s : State) : State := s.onCoil p (fun c => { c with faults := 0, unknown := false })

/-- The contest handling that precedes a FOUND X at p: a contest naming another tag is cleared; one naming X stays, and
an urgent request is raised where X stands (R72). -/
def contestBeforeFound (p : Pos) (x : TagId) (s : State) : State :=
  match (s.coil p).contest with
  | none => s
  | some y =>
    if y ≠ x then setContest p none s
    else match entryOf s x with
      | some e => if e.state ≠ .missing ∧ e.pos ≠ p then raiseUrgent e.pos s else s
      | none => s

/-- The oldest MISSING entry is evicted (R76). -/
def evictMissing (entries : List Entry) : List Entry := entries.eraseP (fun e => e.state == .missing)

/-- FOUND X at p where X stands at p (R75). -/
def foundConfirm (p : Pos) (x : TagId) (o : Orientation) (s : State) : State :=
  onEntry x (fun e => { e with orient := o }) (placeEntry x p s)

/-- FOUND X at p where X is absent from the list or MISSING (R76). -/
def foundPlace (p : Pos) (x : TagId) (o : Orientation) (s : State) : State :=
  let s1 := vacates p ⟨causeAbsenceConfirmed, some causeDisplaced⟩ s
  let s2 := match entryOf s1 x with
    | some _ => foundConfirm p x o s1
    | none => s1.onChild (fun c =>
        { c with entries :=
          (if 16 ≤ c.entries.length then evictMissing c.entries else c.entries)
            ++ [⟨x, o, .present, p, s.monitor.seconds, s.monitor.seconds⟩] })
  notify (childNotice .childSeatAdded p 0 p.num x causeTagFound) s2

/-- X moves from q to p at once (R77, first and second case). -/
def foundMove (p q : Pos) (x : TagId) (o : Orientation) (cause : Nat) (s : State) : State :=
  let s1 := vacate 16 [x] p ⟨causeAbsenceConfirmed, some causeDisplaced⟩ s
  let s2 := foundConfirm p x o s1
  let s3 := forEach (contestedBy s2 x) (fun r => setContest r none) s2
  notify (childNotice .childSeatMoved p q.num p.num x cause) s3

/-- p is marked contested by X, and an urgent request is raised for q (R77, third case). -/
def foundContest (p q : Pos) (x : TagId) (s : State) : State := raiseUrgent q (setContest p (some x) s)

/-- FOUND X at p, by where X is in the list (R74). -/
def takeFound (p : Pos) (x : TagId) (o : Orientation) (s : State) : State :=
  match entryOf s x with
  | none => foundPlace p x o s
  | some e =>
    if e.state = .missing then foundPlace p x o s
    else if e.pos = p then foundConfirm p x o s
    else if e.state = .provisional then foundMove p e.pos x o causeUnconfirmedEntry s
    else if (s.row e.pos.row).state ≠ .online then foundMove p e.pos x o causeOldRowLeft s
    else foundContest p e.pos x s

/-- NONE at p: the contest at p is cleared, and an entry standing at p vacates it (R72, R78). -/
def takeNone (p : Pos) (s : State) : State :=
  vacates p ⟨causeAbsenceConfirmed, some causeTagNotFound⟩ (setContest p none s)

/-- A completed read's result at p, handled against the list (R67, R74). -/
def takeResult (p : Pos) (res : TagResult) (s : State) : State :=
  match res with
  | .fault => countFault p s
  | .nothing => takeNone p (clearFaults p s)
  | .found x o => takeFound p x o (contestBeforeFound p x (clearFaults p s))

/-! ### Tag reads (R64 to R66) -/

/-- The row's tag read timer stops and its read in flight clears. -/
def clearTagRead (r : Row) (s : State) : State :=
  { s.onRow r (fun x => { x with tagRead := none }) with
    child := { s.child with tagTimers := s.child.tagTimers.modify r (fun _ => none) } }

/-- A read completes with a result; a discarded read's result is not handled (R65, R15). -/
def completeRead (r : Row) (t : TagRead) (res : TagResult) (s : State) : State :=
  let s1 := clearTagRead r s
  if t.discard then s1 else takeResult ⟨r, t.seat⟩ res s1

/-- The tag status of a GOOD SAMPLE: a DONE that matches the read in flight completes it; all else is disregarded
(R65). -/
def takeTagStatus (r : Row) (st : TagStatus) (s : State) : State :=
  match (s.row r).tagRead, st with
  | some t, .done k n res => if k = t.seat.num ∧ n = t.number then completeRead r t res s else s
  | _, _ => s

/-- The row's tag read in flight is abandoned: no result, the timer stops, an urgent request is raised for the position
(R41, R66). -/
def abandonRead (r : Row) (s : State) : State :=
  match (s.row r).tagRead with
  | none => s
  | some t => raiseUrgent ⟨r, t.seat⟩ (clearTagRead r s)

/-- Of two due positions the one whose scan timer expired first, the lower-numbered one at the same millisecond
(R64). -/
def earlierDue (s : State) (a b : Pos) : Pos :=
  match (s.coil a).due, (s.coil b).due with
  | some x, some y => if y < x then b else a
  | none, some _ => b
  | _, _ => a

/-- The position the unit names for a row's tag start (R64). -/
def nameForStart (s : State) (r : Row) : Option Pos :=
  let coils := (rowPositions r).filter (coilFitted s)
  match coils.find? (fun p => (s.coil p).urgent) with
  | some p => some p
  | none => match coils.filter (fun p => (s.coil p).due.isSome) with
    | [] => none
    | p :: rest => some (rest.foldl (earlierDue s) p)

/-- The naming: the urgent request and the due mark clear, the scan timer restarts, the row's tag read timer runs
(R62, R64). -/
def startRead (p : Pos) (s : State) : State :=
  let s1 := s.onCoil p (fun c => { c with urgent := false, due := none, scan := some (scanInterval s) })
  s1.onChild (fun c => { c with tagTimers := c.tagTimers.modify p.row (fun _ => some 200) })

/-- The scan timer of a position expires and the position becomes due (R62). -/
def scanExpires (p : Pos) (moment : Nat) (s : State) : State :=
  if (s.coil p).scan.isSome then s.onCoil p (fun c => { c with scan := none, due := some moment }) else s

/-! ### Rows, sleep, clearing (R80 to R82, R15) -/

/-- The coil state of a position whose row leaves ONLINE (R62, R67, R72, R80). -/
def Coil.leaveOnline (c : Coil) : Coil :=
  { c with scan := none, due := none, contest := none, faults := 0, unknown := false }

/-- The child seat consequences of a row leaving ONLINE, or of its removal: its coils, then the entries standing in it,
in order of position (R80, R13). -/
def childRowLeaves (r : Row) (removed : Bool) (s : State) : State :=
  let s1 := forEach (rowPositions r) (fun p t => t.onCoil p Coil.leaveOnline) s
  forEach (rowPositions r)
    (fun p => vacates p ⟨causeOldRowLeft, if removed then some causeRowRemoved else none⟩) s1

/-- A fitted position of a row that enters ONLINE: its scan timer starts and an urgent request is raised when its coil
flag is set; the FAULT count and UNKNOWN clear (R62, R63, R67). -/
def childEnterOnline (p : Pos) (s : State) : State :=
  let s1 := clearFaults p s
  if coilFitted s p then
    raiseUrgent p (s1.onCoil p (fun c => { c with scan := some (scanInterval s), due := none }))
  else s1

/-- Every fitted position with its tag coil flag set gets an urgent request (R63). -/
def raiseAllUrgent (s : State) : State := forEach allPos raiseUrgent s

/-- CLEAR_CHILD_LIST empties the list, clears the contests and raises the urgent requests (R81). -/
def clearChildren (s : State) : State :=
  raiseAllUrgent (forEach allPos (fun p => setContest p none) (s.onChild (fun c => { c with entries := [] })))

/-- A PRESENT entry becomes PROVISIONAL at sleep entry (R82). -/
def provisionalEntry (e : Entry) : Entry := if e.state = .present then { e with state := .provisional } else e

/-- The Child Seat Unit at sleep entry; the rows' reads in flight have been abandoned (R82). -/
def childSleep (s : State) : State :=
  s.onChild (fun c =>
    { entries := c.entries.map provisionalEntry
      coils := c.coils.mapIdx (fun _ => Coil.leaveOnline)
      tagTimers := PerRow.all none })

/-- The Child Seat Unit at the end of the wake settle: PROVISIONAL entries of rows found ABSENT become MISSING, in order
of position, and every coil position gets an urgent request (R82). -/
def childWake (s : State) : State :=
  raiseAllUrgent (forEach allPos (fun p t =>
    match standing t p with
    | some e =>
      if e.state = .provisional ∧ (t.row p.row).state = .absent then makeMissing e.tag p causeRowRemoved t else t
    | none => t) s)

/-- The tag coil flag of a position changes from set to clear (R15): its entry becomes MISSING, its contest and its
UNKNOWN mark clear, its scan timer stops, its urgent request is withdrawn and its read in flight will be discarded. -/
def coilRemoved (p : Pos) (s : State) : State :=
  let s1 := match standing s p with
    | some e => makeMissing e.tag p causeCoilRemoved s
    | none => s
  let s2 := s1.onCoil p (fun c =>
    { c with scan := none, due := none, urgent := false, contest := none, unknown := false })
  s2.onRow p.row (fun x =>
    { x with tagRead := x.tagRead.map (fun t => if t.seat = p.seat then { t with discard := true } else t) })

/-- The tag coil flag changes from clear to set (R15, R62, R63). -/
def coilAdded (p : Pos) (s : State) : State :=
  let s1 := if (s.row p.row).state = .online then
      s.onCoil p (fun c => { c with scan := some (scanInterval s), due := none })
    else s
  raiseUrgent p s1

end Sys2Proof.Machine
end

