-- ==== Sys2Proof/Machine/Loads.lean ====
section
/-! DEFINITION. The Load Evaluator: cell arithmetic, filter, cell faults, sample age and staleness (chapter 3). -/

namespace Sys2Proof.Machine

/-! ### Arithmetic (R47 to R50, R52) -/

/-- A cell's corrected load (R47). -/
def correctCell (offset gain code : Nat) : Nat := min 2047 ((code - offset) * gain / 256)

/-- The load settings of a position that the arithmetic reads (R46). -/
structure LoadSettings where
  offset    : PerCell Nat
  gain      : PerCell Nat
  tension   : Bool
  k         : Nat
  shift     : Nat
  threshold : Nat
  deriving DecidableEq, Repr

/-- The load settings active for a position (R46, R14). A value written while POSITION_CONFIG_FAULT stays set is used at
once, which the spec leaves open (assumption 41). -/
def loadSettings (s : State) (p : Pos) : LoadSettings :=
  let g := s.settings.active
  { offset := PerCell.ofFn (cellOffset g p)
    gain := PerCell.ofFn (cellGain g p)
    tension := tensionFitted s p
    k := tensionGain g p
    shift := filterShift g p
    threshold := cellThreshold g p }

/-- Cell by cell, from three tables. -/
def zipCells {α β γ δ : Type} (f : α → β → γ → δ) (a : PerCell α) (b : PerCell β) (c : PerCell γ) : PerCell δ :=
  ⟨f a.c0 b.c0 c.c0, f a.c1 b.c1 c.c1, f a.c2 b.c2 c.c2, f a.c3 b.c3 c.c3,
   f a.c4 b.c4 c.c4, f a.c5 b.c5 c.c5, f a.c6 b.c6 c.c6, f a.c7 b.c7 c.c7⟩

/-- The corrected loads w_0 to w_7 of a sample; a faulted cell gives 0 (R47). -/
def correctedCells (l : LoadSettings) (cells : PerCell CellReading) : PerCell Nat :=
  zipCells (fun o g r => if r.faulted then 0 else correctCell o g r.code.toNat) l.offset l.gain cells

/-- The faulted cells of a sample (R51). -/
def faultedCells (cells : PerCell CellReading) : Nat := (cells.toList.filter (·.faulted)).length

/-- W: the sum of the corrected loads (R48). -/
def totalLoad (w : PerCell Nat) : Nat := w.toList.sum

/-- C: floor(T × k / 64) with a tension sensor, a field of NOT_FITTED counting 0; 0 without one (R49, R14). -/
def tensionCompensation (l : LoadSettings) (tension : Option (BitVec 10)) : Nat :=
  if l.tension then (tension.getD 0).toNat * l.k / 64 else 0

/-- The footprint: the unfaulted cells whose corrected load reaches the cell threshold (R50). -/
def footprintOf (l : LoadSettings) (cells : PerCell CellReading) : Nat :=
  ((zipCells (fun (w : Nat) (_ : Nat) (r : CellReading) => !r.faulted && decide (l.threshold ≤ w))
    (correctedCells l cells) l.gain cells).toList.filter id).length

/-- The step of R52: the gap divided by 2^shift toward zero, with a least step of 1 toward a gap that is not 0. -/
def filterStep (shift : Nat) (gap : Int) : Int :=
  let q := gap.tdiv (2 ^ shift)
  if q ≠ 0 then q else if 0 < gap then 1 else if gap < 0 then -1 else 0

/-- F after an update from E (R52). -/
def filterUpdate (shift filtered effective : Nat) : Nat :=
  ((filtered : Int) + filterStep shift ((effective : Int) - (filtered : Int))).toNat

/-! ### A sample (R51 to R54) -/

/-- The age restarts and STALE_SAMPLES clears, whatever the sample's cell-fault count (R39, R51, R55, R56). -/
def LoadState.restartAge (l : LoadState) : LoadState := { l with age := 0, stale := false }

/-- A sample with three or more faulted cells is not evaluated (R51). -/
def LoadState.takeFaulted (l : LoadState) (count : Nat) : LoadState :=
  { l.restartAge with
    faultCount := count
    cellFaults := true
    phase := if l.phase = .live then .awaiting else l.phase }

/-- An evaluated sample: a first sample sets F to E and the phase to LIVE, another moves F by the filter (R47 to R53). -/
def LoadState.takeGood (l : LoadState) (c : LoadSettings) (part : SeatPart) : LoadState :=
  let w := correctedCells c part.cells
  let comp := tensionCompensation c part.tension
  let e := totalLoad w - comp
  { l.restartAge with
    cells := w
    total := totalLoad w
    compensation := comp
    effective := e
    filtered := if l.phase = .live then filterUpdate c.shift l.filtered e else e
    footprint := footprintOf c part.cells
    faultCount := faultedCells part.cells
    cellFaults := false
    phase := .live }

/-- The report a sample makes to the Classifier: an F update with its first-sample mark, or a condition report (R54). -/
inductive LoadReport where
  | fUpdate (first : Bool)
  | condition
  deriving DecidableEq, Repr

/-- The report of a sample taken in the load state given (R51, R53, R54). -/
def loadReport (l : LoadState) (part : SeatPart) : LoadReport :=
  if 3 ≤ faultedCells part.cells then .condition else .fUpdate (l.phase != .live)

/-- A sample taken for a position (R51). -/
def LoadState.take (l : LoadState) (c : LoadSettings) (part : SeatPart) : LoadState :=
  if 3 ≤ faultedCells part.cells then l.takeFaulted (faultedCells part.cells) else l.takeGood c part

/-! ### Age and staleness (R55 to R60) -/

/-- The position becomes stale (R56). -/
def LoadState.becomeStale (l : LoadState) : LoadState :=
  { l with stale := true, phase := if l.phase = .live then .awaiting else l.phase }

/-- Entry of the row to ONLINE; the age is frozen while HOLD is set (R55, R59). -/
def LoadState.enterOnline (l : LoadState) (hold : Bool) : LoadState :=
  { l with
    phase := .awaiting, age := 0, ageMode := if hold then .frozen else .running
    cellFaults := false, stale := false, faultCount := 0 }

/-- The row leaves ONLINE, or sleep is entered (R59, R60). -/
def LoadState.leaveOnline (l : LoadState) : LoadState :=
  { l with phase := .stopped, age := 0, ageMode := .stopped, cellFaults := false, stale := false }

/-- HOLD freezes a running age, and its clearing lets it run on (R57). -/
def LoadState.freeze (l : LoadState) : LoadState :=
  { l with ageMode := if l.ageMode = .running then .frozen else l.ageMode }

def LoadState.thaw (l : LoadState) : LoadState :=
  { l with ageMode := if l.ageMode = .frozen then .running else l.ageMode }

/-- One tick of the 1 ms base: a running age grows, up to 65535 (R55). -/
def LoadState.tick (l : LoadState) : LoadState :=
  if l.ageMode = .running then { l with age := min 65535 (l.age + 1) } else l

end Sys2Proof.Machine
end

