-- ==== Sys2Proof/Machine/Classify.lean ====
section
/-! DEFINITION. The Classifier: bands, candidates, dwell, debounce (chapter 5, R68). -/

namespace Sys2Proof.Machine

/-! ### Bands (R86 to R89) -/

/-- A valid set's climb points: the threshold of band k, 1..3. -/
structure BandSet where
  th1 : Nat
  th2 : Nat
  th3 : Nat
  h   : Nat
  deriving DecidableEq, Repr

def BandSet.th (b : BandSet) (k : Nat) : Nat := if k ≤ 1 then b.th1 else if k = 2 then b.th2 else b.th3

/-- The thresholds and hysteresis in force for a position (R86). -/
def bandSet (g : Groups) (p : Pos) : BandSet :=
  ⟨threshold g p 1, threshold g p 2, threshold g p 3, hysteresis g p⟩

/-- The rises of R87, step 1; three bands bound the loop. -/
def riseBand (b : BandSet) (f : Nat) : Nat → Nat → Nat
  | 0, band => band
  | fuel + 1, band => if band < 3 && b.th (band + 1) ≤ f then riseBand b f fuel (band + 1) else band

/-- The falls of R87, step 3. -/
def fallBand (b : BandSet) (f : Nat) : Nat → Nat → Nat
  | 0, band => band
  | fuel + 1, band => if 0 < band && f < b.th band - b.h then fallBand b f fuel (band - 1) else band

/-- The band after an F update without the first-sample mark (R87). -/
def moveBand (b : BandSet) (f band : Nat) : Nat :=
  let up := riseBand b f 3 band
  if up ≠ band then up else fallBand b f 3 band

/-- The band of a first sample: the thresholds alone (R88). -/
def firstBand (b : BandSet) (f : Nat) : Nat :=
  if b.th3 ≤ f then 3 else if b.th2 ≤ f then 2 else if b.th1 ≤ f then 1 else 0

/-- The band after an F update. Banding runs on a valid set alone: under another set, which a record that failed
validation can leave in force, the band is held (R86 to R88; assumption 33). -/
def nextBand (g : Groups) (p : Pos) (first : Bool) (f band : Nat) : Nat :=
  if positionThresholdsValid g p then
    if first then firstBand (bandSet g p) f else moveBand (bandSet g p) f band
  else band

/-- The band moves at an F update, and a band change raises an urgent scan request (R87 to R89, R63). -/
def updateBand (p : Pos) (first : Bool) (s : State) : State :=
  let old := (s.cls.get p).band
  let new := nextBand s.settings.active p first (s.load.get p).filtered old
  let s1 := s.onCls p (fun c => { c with band := new })
  if new = old then s1 else raiseUrgent p s1

/-! ### The candidate (R90 to R93) -/

/-- The class of line 8 of R90. -/
def loadClass (band footprint least : Nat) : ClassRecord :=
  if band = 0 then .vacant
  else if band = 1 then .object
  else if footprint < least then .object
  else if band = 2 then .smallOccupant
  else .adult

/-- The candidate: the first line of R90 whose condition holds. -/
def candidate (s : State) (p : Pos) : ClassRecord :=
  let row := (s.row p.row).state
  let c := s.cls.get p
  let l := s.load.get p
  let coil := s.coil p
  if !posFitted s p then .notFitted
  else if row = .absent then .notInstalled
  else if variantFault s then .indeterminate .variantFault
  else if s.settings.posFault.get p then .indeterminate .positionConfigFault
  else if s.settings.uncalibrated.get p then .indeterminate .uncalibrated
  else if row = .probing ∨ row = .checking ∨ row = .recovering ∨ (row = .online ∧ c.sampled = false) then
    .indeterminate .rowStarting
  else if row = .failed then .indeterminate .rowFailed
  else if l.stale then .indeterminate .staleSamples
  else if l.cellFaults then .indeterminate .cellFaults
  else if coil.contest.isSome ∧ coil.unknown = false then .indeterminate .evidenceConflict
  else match (if coil.unknown then none else standing s p) with
    | some e => (match e.orient with
      | .rear => .childSeatRear
      | .forward => .childSeatForward)
    | none =>
      if anchored s p ∧ c.band = 3 then .indeterminate .evidenceConflict
      else if anchored s p then .childSeat
      else loadClass c.band l.footprint (minFootprint s.settings.active p)

/-! ### Dwell (R95, R96) -/

/-- A candidate that settles at the evaluation that forms it (R96). -/
def settlesAtOnce : ClassRecord → Bool
  | .notFitted | .notInstalled | .indeterminate _ => true
  | .vacant | .object | .smallOccupant | .adult | .childSeatRear | .childSeatForward | .childSeat => false

/-- An evaluation's effect on the Classifier's state, from the candidate, whether it is an F update, and the dwell count
D in force (R95, R96). -/
def ClassState.settle (c : ClassState) (cand : ClassRecord) (fUpdate : Bool) (limit : Nat) : ClassState :=
  let c1 := { c with previous := some cand }
  if settlesAtOnce cand then { c1 with settled := cand, dwell := 0 }
  else if cand = c.settled then { c1 with dwell := 0 }
  else if fUpdate then
    let n := if c.previous = some cand ∧ 0 < c.dwell then c.dwell + 1 else 1
    if limit ≤ n then { c1 with settled := cand, dwell := 0 } else { c1 with dwell := n }
  else if c.previous = some cand then c1
  else { c1 with dwell := 0 }

/-- An evaluation of a fitted position; none is made in STARTING or SLEEP, and none of a position that is not fitted
(R85, R94, R7, R83). -/
def evaluate (fUpdate : Bool) (p : Pos) (s : State) : State :=
  if posFitted s p && awake s then
    s.onCls p (fun c => c.settle (candidate s p) fUpdate (dwellLimit s.settings.active p))
  else s

/-- Evaluations that are not F updates, of each position given. -/
def evaluateEach (ps : List Pos) (s : State) : State := forEach ps (evaluate false) s

/-- An evaluation of every position whose evidence differs from what it was in `before` (R71, R94). -/
def evaluateEvidence (before s : State) : State := evaluateEach (evidenceChanges before s) s

/-! ### Debounce (R68, R97, R98) -/

/-- The buckle after a reading (R97). -/
def ClassState.takeBuckle (c : ClassState) (r : BuckleReading) : ClassState :=
  let c1 := { c with prevBuckle := some r }
  match r with
  | .fault =>
    let n := min 3 (c.buckleFaults + 1)
    { c1 with buckleFaults := n, buckle := if n = 3 then .unknown else c.buckle }
  | .latched => { c1 with buckleFaults := 0, buckle := if c.prevBuckle = some .latched then .latched else c.buckle }
  | .isOpen => { c1 with buckleFaults := 0, buckle := if c.prevBuckle = some .isOpen then .isOpen else c.buckle }

/-- A BUCKLE_CHANGE notice (R98). -/
def buckleNotice (p : Pos) (old new : Buckle) : Notice :=
  ⟨.buckleChange, .position p, byte (buckleCode old), byte (buckleCode new), 0, none⟩

/-- What follows a change of the debounced buckle: the notice, the rest timer's restart, the reminder's evaluation (R98,
R119, R171). -/
def afterBuckle (before : State) (p : Pos) (s : State) : State :=
  let old := (before.cls.get p).buckle
  let new := (s.cls.get p).buckle
  if old = new then s
  else
    afterSeatChange (old == .latched && new == .isOpen) before p
      (restartRest (notify (buckleNotice p old new) s))

/-- A sample's buckle reading (R97, R98). -/
def takeBuckle (p : Pos) (r : BuckleReading) (s : State) : State :=
  afterBuckle s p (s.onCls p (fun c => c.takeBuckle r))

/-- An anchor after a reading (R68). -/
def Anchor.take (a : Anchor) (reading : Bool) : Anchor :=
  { engaged := if reading ≠ a.engaged ∧ a.previous = some reading then reading else a.engaged
    previous := some reading }

/-- An anchor reading under the anchors flag: NOT_FITTED, and any reading at a position whose flag is clear, is OPEN
(R14, R68). -/
def anchorReading (s : State) (p : Pos) (r : AnchorReading) : Bool := anchorsFitted s p && r == .engaged

/-- A sample's two anchor readings; each change raises an urgent request, and the anchored state reaches the Reminder
Engine (R68, R63, R100). -/
def takeAnchors (p : Pos) (l r : AnchorReading) (s : State) : State :=
  let c := s.cls.get p
  let c1 := { c with left := c.left.take (anchorReading s p l), right := c.right.take (anchorReading s p r) }
  let s1 := s.onCls p (fun _ => c1)
  let s2 := if c1.left.engaged = c.left.engaged ∧ c1.right.engaged = c.right.engaged then s1 else raiseUrgent p s1
  afterSeatChange false s p s2

/-- The debounced buckle set to UNKNOWN with no previous reading (R98). -/
def ClassState.forgetBuckle (c : ClassState) : ClassState :=
  { c with buckle := .unknown, prevBuckle := none, buckleFaults := 0 }

/-- The debounced anchors set to OPEN with no previous reading (R68). -/
def ClassState.forgetAnchors (c : ClassState) : ClassState := { c with left := ⟨false, none⟩, right := ⟨false, none⟩ }

/-- The row leaves ONLINE to RECOVERING or FAILED: the buckle becomes UNKNOWN, with a BUCKLE_CHANGE when it was not
already (R98). -/
def loseBuckle (p : Pos) (s : State) : State := afterBuckle s p (s.onCls p ClassState.forgetBuckle)

/-- The Classifier's preparation of a position at its row's entry to ONLINE (R12, R83). -/
def ClassState.enterOnline (c : ClassState) : ClassState :=
  { c.forgetBuckle.forgetAnchors with sampled := false, dwell := 0 }

/-- The Classifier's state at the end of the wake settle, before the evaluation of R85; the settled record stands until
then (R83). -/
def ClassState.wake (c : ClassState) : ClassState := ClassState.reset c.settled

end Sys2Proof.Machine
end

