-- ==== Sys2Proof/Machine/Rows.lean ====
section
/-! DEFINITION. The Row Line Controller: row transitions, the check walk, exchanges, samples and slots (chapters 1
and 2). -/

namespace Sys2Proof.Machine

/-! ### Row notices (R36) -/

/-- A ROW_CHANGE notice (R36). -/
def rowNotice (r : Row) (old new : RowState) (cause : RowCause) : Notice :=
  ⟨.rowChange, .row r, byte (rowStateCode old), byte (rowStateCode new), byte (rowCauseCode cause), none⟩

/-- The FAULT notice of an entry to FAILED, naming the position of seat 1 (R36). -/
def failedNotice (r : Row) (old : RowState) (cause : RowCause) : Notice :=
  ⟨.fault, .position ⟨r, .s1⟩, byte (rowStateCode old), byte (rowStateCode .failed), byte (rowCauseCode cause), none⟩

/-! ### A row's positions follow it -/

/-- The fitted positions of a row. -/
def fittedOf (s : State) (r : Row) : List Pos := (rowPositions r).filter (posFitted s)

/-- The positions of a row that leaves ONLINE: load states stop, sampled marks clear, the child seat consequences follow
(R59, R83, R80). -/
def positionsLeaveOnline (r : Row) (removed : Bool) (s : State) : State :=
  let s1 := forEach (fittedOf s r) (fun p t =>
    (t.onLoad p LoadState.leaveOnline).onCls p (fun c => { c with sampled := false })) s
  childRowLeaves r removed s1

/-- The evaluations a change of a row's state causes: the row's positions, and any other whose evidence it changed (R94,
R104). -/
def evaluateRow (r : Row) (before s : State) : State :=
  let others := (evidenceChanges before s).filter (fun p => p.row != r)
  evaluateEach (fittedOf s r ++ others) s

/-! ### Entry to ONLINE (R31, R12) -/

/-- A fitted position of a row that enters ONLINE is prepared for sampling (R12). -/
def preparePosition (p : Pos) (s : State) : State :=
  let s1 := s.onLoad p (fun l => l.enterOnline s.monitor.hold)
  let s2 := s1.onCls p ClassState.enterOnline
  afterSeatChange false s p (childEnterOnline p s2)

/-- A row enters ONLINE from CHECKING (R31). -/
def enterOnline (r : Row) (s : State) : State :=
  let s1 := s.onRow r (fun x => { x with state := .online, score := 0, stability := some 10000 })
  let s2 := notify (rowNotice r .checking .online .checkPassed) s1
  evaluateRow r s (forEach (fittedOf s r) preparePosition s2)

/-! ### RECOVERING and FAILED (R33 to R35) -/

/-- The record of a row that enters FAILED (R35). That its power settle timer is then stopped is the model's choice
(assumption 43). -/
def RowRecord.fail (x : RowRecord) (cause : RowCause) : RowRecord :=
  { x with
    state := .failed, rpwr := false, settle := .stopped, powerOff := none, score := 0, stability := none
    identity := none, latch := PerSeat.all none, cause := cause }

/-- The record of a row that enters RECOVERING: RPWR off and the power-off timer running (R33, R34). That its
power settle timer is stopped until the power-off timer expires is the model's choice (assumption 43). -/
def RowRecord.recover (x : RowRecord) (cause : RowCause) : RowRecord :=
  { x with
    state := .recovering, rpwr := false, settle := .stopped, powerOff := some 50, score := 0, idFailures := 0
    walk := ⟨0, .read, 0⟩, stability := none, identity := none, latch := PerSeat.all none, cause := cause }

/-- The consequences for the positions of a row that leaves ONLINE to RECOVERING or FAILED, or that fails from another
state (R59, R80, R98, R94). -/
def positionsFall (r : Row) (wasOnline : Bool) (before s : State) : State :=
  let s1 := if wasOnline then forEach (fittedOf s r) loseBuckle (positionsLeaveOnline r false s) else s
  evaluateRow r before s1

/-- A row enters FAILED (R35, R36). -/
def enterFailed (r : Row) (cause : RowCause) (s : State) : State :=
  let old := (s.row r).state
  let s1 := (abandonRead r s).onRow r (fun x => x.fail cause)
  let s2 := notify (failedNotice r old cause) (notify (rowNotice r old .failed cause) s1)
  positionsFall r (old == .online) s s2

/-- A row enters RECOVERING, or FAILED when its recovery count reaches 3 (R33). -/
def enterRecovering (r : Row) (cause : RowCause) (s : State) : State :=
  let old := (s.row r).state
  let s0 := s.onRow r (fun x => { x with recovery := min 3 (x.recovery + 1) })
  if 3 ≤ (s0.row r).recovery then enterFailed r .recoveryExhausted s0
  else
    let s1 := (abandonRead r s0).onRow r (fun x => x.recover cause)
    let s2 := notify (rowNotice r old .recovering cause) s1
    positionsFall r (old == .online) s s2

/-! ### Arrival and removal (R11, R13) -/

/-- The row's sense input counts: a fitted row 2 to 5, without VARIANT_FAULT, in RUN or REST (R5, R8, R11, R42). -/
def senseWatched (s : State) (r : Row) : Bool :=
  senseRow r && rowFitted s r && !variantFault s && awake s

/-- The sense input changes to mated: the debounce of an ABSENT row starts from zero (R11). -/
def senseBecomesMated (r : Row) (s : State) : State :=
  let s1 := s.onPins (fun u => { u with sense := u.sense.modify r (fun _ => true) })
  if senseWatched s r && (s.row r).state == .absent then s1.onRow r (fun x => { x with mating := some 100 })
  else s1

/-- The mating debounce expires: the row arrives (R11). Its hold on the reminders ends, and each fitted position is
evaluated (R133). -/
def rowArrives (r : Row) (s : State) : State :=
  if senseWatched s r && (s.row r).state == .absent && (s.row r).mating.isSome then
    let s1 := s.onRow r (fun x =>
      { x with state := .probing, rpwr := true, mating := none, settle := .running 50, powerOff := none })
    let s2 := notify (rowNotice r .absent .probing .senseMated) s1
    endWithBatch (forEach (fittedOf s r) (evaluateLists false) (publish (evaluateRow r s s2)))
  else s

/-- The record of a removed row (R13). -/
def RowRecord.remove (x : RowRecord) : RowRecord :=
  { x with
    state := .absent, rpwr := false, mating := none, settle := .stopped, powerOff := none, score := 0
    stability := none, recovery := 0, identity := none, latch := PerSeat.all none }

/-- A fitted position of a removed row: its buckle and anchors are forgotten without notices, its reminder goes OFF
(R13, R133). -/
def removePosition (p : Pos) (s : State) : State :=
  remOff p (s.onCls p (fun c => c.forgetBuckle.forgetAnchors))

/-- An exchange with the row is discarded (R13, R21). -/
def discardExchange (r : Row) (s : State) : State :=
  s.onLine (fun l =>
    { l with exchange := match l.exchange with
      | some x => if x.row = r then none else some x
      | none => none })

/-- A row is removed (R13). -/
def removeRow (r : Row) (s : State) : State :=
  let old := (s.row r).state
  let s1 := (abandonRead r (discardExchange r s)).onRow r RowRecord.remove
  let s2 := notify (rowNotice r old .absent .senseUnmated) s1
  let s3 := forEach (fittedOf s r) removePosition (positionsLeaveOnline r true s2)
  endWithBatch (evaluateRow r s s3)

/-- The sense input reads unmated: a row that is not ABSENT is removed (R13), the debounce of one that is stops
(R11). -/
def senseReadsUnmated (r : Row) (s : State) : State :=
  let s1 := s.onPins (fun u => { u with sense := u.sense.modify r (fun _ => false) })
  if !senseWatched s r then s1
  else if (s.row r).state = .absent then s1.onRow r (fun x => { x with mating := none })
  else removeRow r s1

/-! ### Power cycle and settle (R26, R34) -/

/-- The power settle of a row expires (R26, R34). -/
def settleExpires (r : Row) (s : State) : State :=
  match (s.row r).settle, (s.row r).state with
  | .running _, .probing =>
    if hasSlot s.settings.active r then s.onRow r (fun x => { x with settle := .expired, idFailures := 0 })
    else endWithBatch (enterFailed r .noSlot s)
  | .running _, .recovering =>
    endWithBatch (evaluateRow r s (s.onRow r (fun x => { x with state := .probing, settle := .expired })))
  | _, _ => s

/-- The power-off timer of a recovering row expires (R34). -/
def powerOffExpires (r : Row) (s : State) : State :=
  if (s.row r).state = .recovering ∧ (s.row r).powerOff.isSome then
    s.onRow r (fun x => { x with powerOff := none, rpwr := true, settle := .running 50 })
  else s

/-- The ONLINE stability timer of a row expires outside HOLD (R31). -/
def stabilityExpires (r : Row) (s : State) : State :=
  if (s.row r).stability.isSome ∧ s.monitor.hold = false then
    s.onRow r (fun x => { x with stability := none, recovery := 0 })
  else s

/-! ### PROBING and CHECKING (R27, R29, R30) -/

/-- A row enters CHECKING, and goes on to ONLINE at once when the check table is empty (R27). -/
def enterChecking (r : Row) (id : Identity) (s : State) : State :=
  let s1 := s.onRow r (fun x =>
    { x with state := .checking, identity := some id, idFailures := 0, walk := ⟨0, .read, 0⟩ })
  if checkCount s.settings.active = 0 then enterOnline r s1 else evaluateRow r s s1

/-- A failed READ_ID: the 16th in a row sends the row to RECOVERING (R27). -/
def probeFails (r : Row) (s : State) : State :=
  let s1 := s.onRow r (fun x => { x with idFailures := min 16 (x.idFailures + 1) })
  if 16 ≤ (s1.row r).idFailures then enterRecovering r .probeExhausted s1 else s1

/-- A failed attempt is counted: the third sends the row to RECOVERING, an earlier one restarts the walk (R30). -/
def attemptFails (r : Row) (s : State) : State :=
  let n := (s.row r).walk.attempts + 1
  let s1 := s.onRow r (fun x => { x with walk := { x.walk with attempts := min 3 n } })
  if 3 ≤ n then enterRecovering r .checkExhausted s1
  else s1.onRow r (fun x => { x with walk := ⟨0, .read, x.walk.attempts⟩ })

/-- The current entry passes: the next entry, or ONLINE after the last (R29). -/
def entryPasses (r : Row) (s : State) : State :=
  let w := (s.row r).walk
  if w.entry + 1 < checkCount s.settings.active then
    s.onRow r (fun x => { x with walk := ⟨w.entry + 1, .read, w.attempts⟩ })
  else enterOnline r s

/-- A GOOD exchange of the walk, with the register value it gave (R29). -/
def walkStep (r : Row) (value : Word16) (s : State) : State :=
  let w := (s.row r).walk
  let g := s.settings.active
  match w.phase with
  | .read =>
    if checkPasses g w.entry value then entryPasses r s
    else if checkHasWrite g w.entry then s.onRow r (fun x => { x with walk := { w with phase := .write } })
    else attemptFails r s
  | .write => s.onRow r (fun x => { x with walk := { w with phase := .reread } })
  | .reread => if checkPasses g w.entry value then entryPasses r s else attemptFails r s

/-! ### Samples (R32, R39) -/

/-- A failed SAMPLE exchange (R32, R40). -/
def sampleFails (r : Row) (s : State) : State :=
  let s1 := s.onRow r (fun x => { x with score := min 64 (x.score + 4) })
  if 32 ≤ (s1.row r).score then enterRecovering r .errorScore s1 else s1

/-- A seat's part goes into its latch; for a fitted position the Classifier debounces it (R39, R7). -/
def debounceSeat (r : Row) (b : List Byte) (k : Seat) (s : State) : State :=
  let part := parseSeat b k
  let p : Pos := ⟨r, k⟩
  let s1 := s.onRow r (fun x => { x with latch := x.latch.modify k (fun _ => some part) })
  if posFitted s p then
    takeAnchors p part.leftAnchor part.rightAnchor (takeBuckle p part.buckle s1)
  else s1

/-- The Load Evaluator takes a fitted position's part, the band follows, and the Classifier makes the delivery's one
evaluation of the position (R39, R54, R94). -/
def evaluateSeat (b : List Byte) (p : Pos) (s : State) : State :=
  let part := parseSeat b p.seat
  let report := loadReport (s.load.get p) part
  let s1 := s.onLoad p (fun l => l.take (loadSettings s p) part)
  let s2 := s1.onCls p (fun c => { c with sampled := true })
  match report with
  | .fUpdate first => evaluate true p (updateBand p first s2)
  | .condition => evaluate false p s2

/-- A GOOD SAMPLE is delivered: latches and debounce, then the tag status, then load and evaluation of each fitted
position, with an evaluation of any position elsewhere whose evidence the delivery changed (R39, R94). -/
def deliverSample (r : Row) (b : List Byte) (s : State) : State :=
  let s1 := s.onRow r (fun x => { x with score := x.score - 1 })
  let s2 := forEach allSeats (debounceSeat r b) s1
  let s3 := takeTagStatus r (parseTagStatus b) s2
  let others := (evidenceChanges s2 s3).filter (fun p => p.row != r)
  evaluateEach others (forEach (fittedOf s r) (evaluateSeat b) s3)

/-! ### Exchanges (R18 to R21) -/

/-- The line without its exchange. -/
def endExchange (s : State) : State := s.onLine (fun l => { l with exchange := none })

/-- The exchange's outcome is a failure: it acts on the row in the state it is in (R20, R27, R29, R30, R32). -/
def exchangeFails (x : Exchange) (s : State) : State :=
  match x.kind, (s.row x.row).state with
  | .sample, .online => sampleFails x.row s
  | .readId, .probing => probeFails x.row s
  | .readReg, .checking => if x.detached then s else attemptFails x.row s
  | .writeReg, .checking => if x.detached then s else attemptFails x.row s
  | _, _ => s

/-- The exchange's outcome is GOOD (R27, R29, R39). -/
def exchangeGood (x : Exchange) (b : List Byte) (s : State) : State :=
  match x.kind, (s.row x.row).state with
  | .sample, .online => deliverSample x.row b s
  | .readId, .probing => enterChecking x.row (parseIdentity b) s
  | .readReg, .checking => if x.detached then s else walkStep x.row (parseRegister b) s
  | .writeReg, .checking => if x.detached then s else walkStep x.row (parseRegister b) s
  | _, _ => s

/-- An answer is complete: it ends the exchange on the line with the outcome of R20. With no exchange on the line it is
disregarded (R20, R21). -/
def answerCompletes (b : List Byte) (s : State) : State :=
  match s.line.exchange with
  | none => s
  | some x =>
    match judgeAnswer s x b with
    | .good => endWithBatch (exchangeGood x b (endExchange s))
    | .crcError => endWithBatch (exchangeFails x (endExchange s))
    | .mismatch => endWithBatch (exchangeFails x (endExchange s))

/-- The exchange on the line ends TIMEOUT (R20). -/
def exchangeTimesOut (s : State) : State :=
  match s.line.exchange with
  | none => s
  | some x => endWithBatch (exchangeFails x (endExchange s))

/-! ### Slots (R22, R24, R37) -/

/-- The slot timer's period (R22). -/
def slotPeriod (s : State) : Nat := if s.monitor.device = .rest then 8 else 1

/-- A poll to a row: the sequence sent is the row's, which then advances (R19). -/
def sendPoll (r : Row) (body : PollBody) (s : State) : State :=
  let q := (s.row r).sequence
  let s1 := s.onLine (fun l =>
    { l with exchange := some ⟨r, body.kind, q, pollBytes (rowAddress s r) q body, false⟩ })
  s1.onRow r (fun x => { x with sequence := x.sequence + 1 })

/-- A SAMPLE poll, with the tag start of R37. -/
def sendSample (r : Row) (s : State) : State :=
  if (s.row r).tagRead.isSome then sendPoll r (.sample none) s
  else match nameForStart s r with
    | none => sendPoll r (.sample none) s
    | some p =>
      let n := (s.row r).tagCounter + 1
      let s1 := (startRead p s).onRow r (fun x => { x with tagCounter := n, tagRead := some ⟨p.seat, n, false⟩ })
      sendPoll r (.sample (some (p.seat, n))) s1

/-- The exchange of the check walk's phase (R29). -/
def sendWalk (r : Row) (s : State) : State :=
  let w := (s.row r).walk
  let g := s.settings.active
  match w.phase with
  | .read => sendPoll r (.readReg (checkRegister g w.entry)) s
  | .write => sendPoll r (.writeReg (checkRegister g w.entry) (checkWriteValue g w.entry)) s
  | .reread => sendPoll r (.readReg (checkRegister g w.entry)) s

/-- What a slot naming a row carries (R24). -/
def carrySlot (r : Row) (s : State) : State :=
  if !rowFitted s r then s
  else match (s.row r).state with
    | .probing => if (s.row r).settle = .expired then sendPoll r .readId s else s
    | .checking => sendWalk r s
    | .online => sendSample r s
    | .absent => s
    | .recovering => s
    | .failed => s

/-- The pointer advances and the slot it then points to is taken; the timer restarts (R22, R24). -/
def takeSlot (s : State) : State :=
  let i := s.line.pointer + 1
  let s1 := s.onLine (fun l => { l with pointer := i, timer := .running (slotPeriod s) })
  match slotRow s.settings.active i.toNat with
  | some r => carrySlot r s1
  | none => s1

/-- The slot timer expires: an exchange still on the line is a TIMEOUT, then the next slot is taken (R20, R22). -/
def slotExpires (s : State) : State :=
  match s.line.timer with
  | .running _ => takeSlot (exchangeTimesOut s)
  | .suspended => s
  | .stopped => s

end Sys2Proof.Machine
end

