-- ==== Sys2Proof/Machine/Power.lean ====
section
/-! DEFINITION. The Supply and Wake Monitor: reset, the end of STARTING, IGN, HOLD, sleep and wake (sections 11.2 and
11.4, R10). -/

namespace Sys2Proof.Machine

/-! ### Reset (R174) -/

/-- The row states after reset: row 1 PROBING, the others ABSENT, under VARIANT_FAULT too (R10, R25; assumption 17). -/
def resetRowState (r : Row) : RowState := if r = .r1 then .probing else .absent

/-- The row states at sleep entry: row 1 PROBING, the others ABSENT, under VARIANT_FAULT all PROBING (R5, R25). -/
def sleepRowState (s : State) (r : Row) : RowState := if r = .r1 ∨ variantFault s then .probing else .absent

/-- The record of a position after reset (R10, R102). -/
def resetRecord (s : State) (p : Pos) : ClassRecord :=
  if posFitted s p then .indeterminate .starting else .notFitted

/-- The store after a reset: a write that a reset broke off leaves it with no stated contents (R170, R174;
assumption 4). -/
def storeAfterReset (s : State) : List Byte :=
  match s.settings.write with
  | some w => Config.storeAfterFailure s.settings.store (imageAfterWrite s w)
  | none => s.settings.store

/-- The supply stands below 5.5 V, and so below 7.0 V: a supply that was not is in its first millisecond below. -/
def Supply.fall : Supply → Supply
  | .normal => .dipping 1
  | .dipping n => .dipping n
  | .low => .low

/-- The supply against 7.0 V as a reset finds it: a reset of the RESET pin leaves it as it stands, a supply reset finds it
below (R173, R174), and at power-on it counts as not below until it is reported (assumption 6). -/
def supplyAfterReset (cause : ResetCause) (u : Supply) : Supply :=
  match cause with
  | .resetPin => u
  | .supplyBelow => u.fall
  | .powerOn => .normal

/-- The one reset: every block takes its values after reset, the straps are latched, and the part is held in reset until
the release. The input lines keep their levels (R171, R174). -/
def resetPart (cause : ResetCause) (straps : Straps) (s : State) : State :=
  let v := { State.reset with straps := straps }
  let table : PerPos ClassRecord := (PerPos.all ()).mapIdx (fun p _ => resetRecord v p)
  { State.reset with
    straps := straps
    pins := s.pins
    monitor := { Monitor.reset with
      inReset := true
      supply := supplyAfterReset cause s.monitor.supply }
    line := RowLine.reset ((PerRow.all ()).mapIdx (fun r _ => resetRowState r))
    cls := table.mapIdx (fun _ => ClassState.reset)
    pub := Publication.reset table
    settings := Settings.reset (storeAfterReset s)
    pending := s.pending }

/-- The part leaves reset and STARTING begins; an IGN line found high differs from the debounced value, so its debounce
starts (R171, R174; assumption 14). -/
def releaseReset (s : State) : State :=
  if s.monitor.inReset then
    s.onMonitor (fun m => { m with inReset := false, ignDebounce := if s.pins.ignLine then some 50 else none })
  else s

/-! ### The end of STARTING and of the wake settle (R10, R85, R122, R145, R157) -/

/-- The row record as the rebuild leaves it: row 1, and a fitted row 2 to 5 found mated, in PROBING with RPWR on and the
power settle running; the others ABSENT. Under VARIANT_FAULT every row counts as mated (R10, R5). -/
def rebuildRow (s : State) (r : Row) (x : RowRecord) : RowRecord :=
  if rowFitted s r && (r == .r1 || variantFault s || s.pins.sense.get r) then
    { x with state := .probing, rpwr := true, settle := .running 50, mating := none }
  else { x with state := .absent, rpwr := false, settle := .stopped, mating := none }

/-- The device state by the debounced IGN, the rest timer in REST, HOLD when the supply stands below 7.0 V
(R171, R173). -/
def Monitor.goLive (m : Monitor) (ign : Bool) (restTime : Nat) : Monitor :=
  { m with
    device := if ign then .run else .rest
    ign := ign
    restTimer := if ign then none else some restTime
    wakeSettle := none
    hold := m.supply == .low }

/-- What the end of STARTING and the end of the wake settle share, up to the evaluations: device state, rows, slot timer,
map and degrade timers, output gates (R10, R22, R145, R156, R157, R171). -/
def goLive (ign : Bool) (s : State) : State :=
  let s1 := s.onMonitor (fun m => m.goLive ign (restTime s))
  let s2 := s1.onLine (fun l =>
    { l with
      rows := l.rows.mapIdx (rebuildRow s1)
      timer := if s1.monitor.hold then .suspended else .running (slotPeriod s1) })
  let s3 := s2.onBody (fun b => b.goLive ign (mapPeriod s1))
  gateOutputs s3

/-- The evaluations with which both end: every fitted position is evaluated and settles, the differences are published
in one batch, and the lists of every position that is not held are evaluated (R85, R104, R121). The batch's positions are
evaluated on their lists before all the others, so that the REMINDER notices of this event need not come in ascending position:
the model's choice (assumption 20). -/
def evaluateStart (s : State) : State :=
  endEvent (evaluateAllLists (publish (evaluateEach (allPos.filter (posFitted s)) s)))

/-- Autoload ends, and STARTING with it (R166, R10, R152). -/
def autoloadEnds (answer : StoreAnswer) (s : State) : State :=
  if s.monitor.device = .starting then
    let s1 := { s with settings := autoloaded s answer }
    evaluateStart ((goLive s.monitor.ign s1).onPort (fun u => { u with ready := true }))
  else s

/-! ### IGN (R131, R156, R171) -/

/-- The debounced IGN line asserts. In SLEEP the line is read at the end of the wake settle and not here (R172). -/
def ignAsserts (s : State) : State :=
  let s1 := (s.onPins (fun u => { u with ignLine := true })).onMonitor (fun m => { m with ignDebounce := none })
  if s.monitor.ign || s.monitor.device == .sleep then s1
  else
    let s2 := s1.onMonitor (fun m =>
      { m with
        ign := true
        device := if m.device = .rest then .run else m.device
        restTimer := if m.device = .rest then none else m.restTimer })
    endEvent (evaluateAllLists (s2.onBody Body.ignOn))

/-- The debounced IGN line deasserts (R131, R156, R171). -/
def ignDeasserts (s : State) : State :=
  let s1 := (s.onPins (fun u => { u with ignLine := false })).onMonitor (fun m => { m with ignDebounce := none })
  if !s.monitor.ign || s.monitor.device == .sleep then s1
  else
    let s2 := s1.onMonitor (fun m =>
      { m with
        ign := false
        device := if m.device = .run then .rest else m.device
        restTimer := if m.device = .run then some (restTime s) else m.restTimer })
    endEvent (remIgnOff (s2.onBody Body.ignOff))

/-! ### Wake (R172, R158, R153) -/

/-- The first wake event in SLEEP starts the 4 ms settle and sets RESYNC; the Restraint Port's prepared response is that
of reset and its ready mark is clear (R172, R158, R153). -/
def wake (s : State) : State :=
  if s.monitor.device == .sleep && s.monitor.wakeSettle.isNone then
    ((s.onMonitor (fun m => { m with wakeSettle := some 4 })).onBody (fun b => { b with resync := true })).onPort
      (fun u => { u with response := Response.reset, ready := false })
  else s

/-- The part is in SLEEP and no wake event has come. -/
def asleep (s : State) : Bool := s.monitor.device == .sleep && s.monitor.wakeSettle.isNone

/-- A WAKE input counts when its enable is set; the other wake events always count (R172). -/
def wakeCounts (s : State) : WakeSource → Bool
  | .wake0 => wakeEnabled s 0
  | .wake1 => wakeEnabled s 1
  | .wake2 => wakeEnabled s 2
  | .canActivity => true
  | .chipSelect _ => true
  | .ignition => true

/-- The wake event begins a frame: it is an assertion of chip select. -/
def beginsFrame : WakeSource → Bool
  | .chipSelect asserted => asserted
  | .wake0 | .wake1 | .wake2 | .canActivity | .ignition => false

/-- A wake event (R172). An IGN assertion raises the line; the frame of the chip-select assertion that wakes the part is
marked, and is not received when it ends (R153). Outside SLEEP an IGN assertion so told raises the line's level and starts no
debounce (R171), the model's choice (assumption 45). -/
def takeWakeEvent (w : WakeSource) (s : State) : State :=
  let s1 := if w = .ignition then s.onPins (fun u => { u with ignLine := true }) else s
  if wakeCounts s w then
    let s2 := wake s1
    if asleep s && beginsFrame w then s2.onPort (fun u => { u with wakingFrame := true }) else s2
  else s1

/-- A change on the raw IGN line: outside SLEEP it starts or restarts the debounce, in SLEEP an assertion is a wake event
(R171, R172); in reset only the level is kept. -/
def ignLineChanges (high : Bool) (s : State) : State :=
  let s1 := s.onPins (fun u => { u with ignLine := high })
  if s.monitor.inReset then s1
  else if s.monitor.device == .sleep then (if high then wake s1 else s1)
  else s1.onMonitor (fun m => { m with ignDebounce := some 50 })

/-- The end of the wake settle (R172, R10, R82, R83, R85). -/
def endWakeSettle (s : State) : State :=
  if settling s then
    let s1 := goLive s.pins.ignLine s
    let s2 := { s1 with
      cls := s1.cls.mapIdx (fun _ c => c.wake)
      load := s1.load.mapIdx (fun _ l => l.leaveOnline)
      rem := PerPos.all Reminder.reset }
    evaluateStart (childWake s2)
  else s

/-! ### HOLD (R173, R21, R41, R57, R58) -/

/-- Every row's tag read in flight is abandoned (R41). -/
def abandonAll (s : State) : State := forEach allRows abandonRead s

/-- HOLD is set in RUN or REST (R173). Elsewhere, in reset too, the supply is remembered as standing below 7.0 V. The abandoned
tag reads reach the Classifier (R99), and no position is evaluated for them: the model's choice (assumption 51). -/
def setHold (s : State) : State :=
  let s1 := s.onMonitor (fun m => { m with supply := .low })
  if !s.monitor.inReset && awake s && !s.monitor.hold then
    let s2 := s1.onMonitor (fun m => { m with hold := true })
    let s3 := s2.onLine (fun l => { l with timer := .suspended, exchange := none })
    abandonAll { s3 with load := s3.load.mapIdx (fun _ l => l.freeze) }
  else s1

/-- The position's running age is past its limit and it is not yet stale (R56, R58). -/
def pastLimit (s : State) (p : Pos) : Bool :=
  let l := s.load.get p
  posFitted s p && l.ageMode == .running && !l.stale && decide (staleLimit s p < l.age)

/-- The position becomes stale, with its condition report and its batch (R56, R104). -/
def goStale (p : Pos) (s : State) : State :=
  endWithBatch (evaluate false p (s.onLoad p LoadState.becomeStale))

/-- HOLD clears when the supply rises above 7.5 V: the slot timer restarts with a full period, the ages run on, and a
position whose age is past a limit changed meanwhile becomes stale (R22, R57, R58, R173). The age is judged by the limit then
in force alone; a lower limit that a second write of the same HOLD took back leaves nothing, the model's choice (assumption
44). In reset the supply's standing is all that changes. -/
def clearHold (s : State) : State :=
  let s1 := s.onMonitor (fun m => { m with supply := .normal })
  if !s.monitor.inReset && s.monitor.hold then
    let s2 := s1.onMonitor (fun m => { m with hold := false })
    let s3 := s2.onLine (fun l => { l with timer := .running (slotPeriod s) })
    let s4 := { s3 with load := s3.load.mapIdx (fun _ l => l.thaw) }
    forEach allPos (fun p t => if pastLimit t p then goStale p t else t) s4
  else s1

/-- The supply falls below 7.0 V, which begins the 1 ms qualification, or returns above it, which ends it; it is watched
in every device state and in reset (R173). -/
def supplyEdge (e : SupplyEdge) (s : State) : State :=
  s.onMonitor (fun m =>
    { m with supply := match e with
      | .fellBelow => m.supply.fall
      | .returnedAbove => .normal })

/-! ### Sleep (R171, R172) -/

/-- A row record at sleep entry (R25, R42). -/
def RowRecord.sleep (state : RowState) (x : RowRecord) : RowRecord :=
  { RowRecord.reset state with cause := x.cause, sequence := x.sequence, tagCounter := x.tagCounter }

/-- The Restraint Port at sleep entry (R154); the last request is kept, which is the model's choice (assumption 40). -/
def Restraint.sleep (u : Restraint) : Restraint :=
  { u with response := Response.reset, ready := false, wakingFrame := false }

/-- SLEEP is entered: every block takes its sleep values (R172, R42, R60, R82, R83, R115, R145, R154, R156, R161). -/
def enterSleep (s : State) : State :=
  let s1 := childSleep (abandonAll s)
  { s1 with
    monitor := { s1.monitor with device := .sleep, hold := false, restTimer := none, wakeSettle := none }
    line := { s1.line with
      rows := s1.line.rows.mapIdx (fun r x => x.sleep (sleepRowState s r))
      timer := .stopped
      exchange := none }
    load := s1.load.mapIdx (fun _ l => l.leaveOnline)
    rem := PerPos.all Reminder.reset
    cadence := s1.cadence.sleep
    port := s1.port.sleep
    body := s1.body.sleep }

/-- The rest timer expires in REST (R171, R113). -/
def restExpires (s : State) : State :=
  if s.monitor.device = .rest ∧ s.monitor.restTimer.isSome then
    if s.settings.write.isSome || s.pub.locked then
      s.onMonitor (fun m => { m with restTimer := some (restTime s) })
    else enterSleep s
  else s

/-- The seconds count advances by one, in every device state, and wraps (R171). -/
def secondsTick (s : State) : State :=
  s.onMonitor (fun m => { m with seconds := m.seconds + 1 })

end Sys2Proof.Machine
end

