-- ==== Sys2Proof/Machine/Requests.lean ====
section
/-! DEFINITION. The two controller ports' requests: restraint frames (chapter 9), CAN frames taken by the Body Port
(chapter 10) and the completion of a settings write (R170). -/

namespace Sys2Proof.Machine

/-! ### Restraint port (R148 to R154) -/

/-- The port prepares a response at the end of a frame, and the frame restarts the rest timer (R149, R150, R171). -/
def respond (r : Response) (s : State) : State := restartRest (s.onPort (fun u => { u with response := r }))

/-- The frame whose chip-select assertion woke the part ends: it is not received and prepares no response (R153). -/
def missFrame (s : State) : State := s.onPort (fun u => { u with wakingFrame := false })

/-- A frame that ends: in SLEEP it is not received, its chip-select change being a wake event, and the frame that woke the
part is not received either (R153); otherwise `f`. -/
def takeFrame (f : State → State) (s : State) : State :=
  outsideReset s (fun s => if asleep s then wake s else if s.port.wakingFrame then missFrame s else f s)

/-- The frame error (R150, check 1). -/
def frameErrs (s : State) : State := takeFrame (respond ⟨0xFF, .frameError, 0⟩) s

/-- The first well-formed frame after the wake settle sets the ready mark, and is itself answered NOT_READY (R152,
R153). -/
def answerNotReady (command : Byte) (s : State) : State :=
  respond ⟨command, .notReady, notReadyPayload command⟩
    (s.onPort (fun u => { u with ready := awake s }))

/-- A well-formed frame with command and argument: NOT_READY while the ready mark is clear (R150, check 2), else what
`f` makes of it. Which frames replace the last request held is the model's choice (assumption 46): every well-formed one does,
whatever its answer, and a frame error does not. -/
def takeRequest (command arg : Byte) (f : State → State) (s : State) : State :=
  takeFrame (fun t =>
    let u := t.onPort (fun v => { v with lastRequest := some ⟨command, arg⟩ })
    if u.port.ready then f u else answerNotReady command u) s

/-- An OK answer whose payload is read from the state at the end of the frame (R150, R151). -/
def answerOk (command : Byte) (payload : State → BitVec 12) (s : State) : State :=
  respond ⟨command, .ok, payload s⟩ s

/-- BAD_ARGUMENT (R150, check 4). -/
def answerBad (command : Byte) (s : State) : State := respond ⟨command, .badArgument, 0⟩ s

/-- GET_POSITION (R151, R16). -/
def answerPosition (arg : Byte) (s : State) : State :=
  match posOfNum arg.toNat with
  | some p => answerOk 0x03 (fun t => getPositionPayload t p) s
  | none => answerBad 0x03 s

/-- LOCK (R107, R151). -/
def answerLock (arg : Byte) (s : State) : State :=
  if arg.toNat ≤ 3 then endEvent (answerOk 0x0A (fun _ => 0) (takeLock (holdTime arg) s))
  else answerBad 0x0A s

/-- UNLOCK (R109, R151). -/
def answerUnlock (s : State) : State :=
  if s.pub.locked then endEvent (answerOk 0x0B (fun _ => 0) (releaseLock s))
  else answerOk 0x0B (fun _ => 0) s

/-- The lock's hold timer expires (R110). -/
def holdExpires (s : State) : State :=
  if s.pub.locked && s.pub.holdTimer.isSome then endEvent (releaseLock s) else s

/-! ### Reception on the body port (R155) -/

/-- A CAN frame that arrives: in SLEEP it is a wake event and is not received; during bus-off nothing is received
(R155, R159; assumptions 13, 18). -/
def receive (f : State → State) (s : State) : State :=
  outsideReset s (fun s => if asleep s then wake s else if s.body.busOff then s else f s)

/-- VEHICLE_STATE (R156); a gear outside the five makes the whole frame invalid. A change of a closure restarts the rest
timer (R156, R171). -/
def takeVehicleState (speed gear closures : Byte) (s : State) : State :=
  match parseGear gear with
  | none => s
  | some g =>
    let s1 := s.onBody (fun b => b.takeVehicle speed g (parseClosures closures))
    let s2 := if s.body.vehicle.closures = parseClosures closures then s1 else restartRest s1
    endEvent (afterVanChange s s2)

/-- MAP_REQUEST, taken in RUN and REST (R155, R158). -/
def takeMapRequest (s : State) : State :=
  if awake s then arbitrate (mapsDue (s.onBody (fun b => { b with resync := false }))) else s

/-- REMINDER_ACK, taken in RUN and REST (R127, R163). -/
def takeAck (mask : Word16) (s : State) : State := if awake s then endEvent (acknowledge mask s) else s

/-- The freshness timer expires (R156). -/
def freshnessExpires (s : State) : State :=
  if s.body.freshTimer.isSome then
    endEvent (afterVanChange s (s.onBody (fun b => b.freshnessExpires s.monitor.ign)))
  else s

/-- The degrade timer expires (R156). -/
def degradeExpires (s : State) : State :=
  if s.body.degrade.isSome then endEvent (afterVanChange s (s.onBody Body.degradeExpires)) else s

/-- The map timer expires (R157). -/
def mapExpires (s : State) : State :=
  if s.body.mapTimer.isSome then
    arbitrate (mapsDue (s.onBody (fun b => { b with mapTimer := some (mapPeriod s) })))
  else s

/-! ### Service requests (R164) -/

/-- The kind bytes of the requests (R177). -/
def kindReadParam : Byte := 1
def kindWriteParam : Byte := 2
def kindClear : Byte := 3
def kindReadEntry : Byte := 4
def kindReadRow : Byte := 5

/-- A SERVICE_REQUEST: it restarts the rest timer; while a reply waits it is otherwise disregarded; in STARTING and the
wake settle it is answered NOT_READY with the content given; else `f` (R155, R164, R177). -/
def takeService (kind : Byte) (refusal : List Byte) (f : State → State) (s : State) : State :=
  receive (fun s =>
    let t := restartRest s
    if t.body.reply.isSome then t
    else if awake t then arbitrate (f t)
    else arbitrate (sendReply ⟨kind, replyNotReady, refusal, 0⟩ t)) s

/-- READ_PARAM (R164). -/
def answerReadParam (id value : Word16) (s : State) : State :=
  if knownParam id then
    sendReply ⟨kindReadParam, replyOk, bytesOf16 id ++ bytesOf16 (paramValue s.settings.active id), 0⟩ s
  else sendReply ⟨kindReadParam, replyUnknownParam, bytesOf16 id ++ bytesOf16 value, 0⟩ s

/-- WRITE_PARAM: BUSY while a write is in flight, a refusal by the checks of R169, or the write in flight (R164,
R169). -/
def answerWriteParam (id value : Word16) (s : State) : State :=
  let refuse := fun code => sendReply ⟨kindWriteParam, code, bytesOf16 id ++ bytesOf16 value, 0⟩ s
  if s.settings.write.isSome then refuse replyBusy
  else match writeRefusal s id value with
    | some code => refuse code
    | none => s.onSettings (fun u => { u with write := some ⟨id, value⟩ })

/-- CLEAR_CHILD_LIST (R81, R164): each position at which an entry stood or a contest was is evaluated. -/
def answerClear (s : State) : State :=
  if s.pub.locked then sendReply ⟨kindClear, replyRefusedLocked, [], 0⟩ s
  else if s.settings.write.isSome then sendReply ⟨kindClear, replyBusy, [], 0⟩ s
  else
    let s1 := sendReply ⟨kindClear, replyOk, [], 0⟩ s
    takeReminders (publish (evaluateEvidence s1 (clearChildren s1)))

/-- The 20 content bytes of a READ_CHILD_ENTRY reply (R70, R177). Of an absent entry the bytes after the present byte are
zeros, and are sent: the model's choice (assumption 35). -/
def entryContent (s : State) (index : Byte) : List Byte :=
  match s.child.entries[index.toNat]? with
  | none => [index] ++ List.replicate 19 0
  | some e =>
    let c := s.coil e.pos
    [index, 1] ++ bytesOf24 e.tag
      ++ [byte (orientationCode e.orient), byte (entryStateCode e.state), byte e.pos.num]
      ++ bytesOf32 e.firstSeen ++ bytesOf32 e.confirmed
      ++ bytesOf24 (c.contest.getD 0) ++ [byte (bit c.unknown)]

/-- READ_CHILD_ENTRY (R70, R164). -/
def answerReadEntry (index : Byte) (s : State) : State :=
  if 15 < index.toNat then sendReply ⟨kindReadEntry, replyOutOfRange, [], 0⟩ s
  else sendReply ⟨kindReadEntry, replyOk, entryContent s index, 0⟩ s

/-- The walk byte of a READ_ROW reply, while the row is CHECKING (R43, R177). Bit 2, which R177 gives no use, is 0: the model's
choice (assumption 49). Outside CHECKING the byte is 0 (27). -/
def walkByte (x : RowRecord) : Byte :=
  if x.state = .checking then byte (32 * x.walk.entry + 8 * phaseCode x.walk.phase + x.walk.attempts) else 0

/-- A seat's 20 bytes in a READ_ROW reply: a presence byte and the latch (R43, R177); zeros for an absent latch, the
model's choice (assumption 34). -/
def latchBytes : Option SeatPart → List Byte
  | none => List.replicate 20 0
  | some part => 1#8 :: seatBytes part

/-- The 73 content bytes of a READ_ROW reply (R43, R177); kind, revision and serial of an absent identity are zeros, the
model's choice (assumption 34). -/
def rowContent (s : State) (r : Row) : List Byte :=
  let x := s.row r
  [byte r.num, byte (rowStateCode x.state), byte (rowCauseCode x.cause), byte x.score, byte x.recovery]
    ++ (match x.identity with
        | none => List.replicate 7 0#8
        | some i => [1#8, i.kind, i.revision] ++ bytesOf32 i.serial)
    ++ [walkByte x]
    ++ latchBytes x.latch.seat1 ++ latchBytes x.latch.seat2 ++ latchBytes x.latch.seat3

/-- READ_ROW (R43, R164). -/
def answerReadRow (row : Byte) (s : State) : State :=
  match rowOfNum row.toNat with
  | none => sendReply ⟨kindReadRow, replyOutOfRange, [], 0⟩ s
  | some r => sendReply ⟨kindReadRow, replyOk, rowContent s r, 0⟩ s

/-- A request of unknown kind (R164). -/
def answerUnknownKind (kind : Byte) (s : State) : State := sendReply ⟨kind, replyOutOfRange, [], 0⟩ s

/-! ### The completion of a write (R170) -/

/-- A completed write's stale limits: a position whose running age is past its limit becomes stale (R58). A frozen age is
judged when HOLD clears, by the limit then in force (assumption 44). The condition report has its evaluation at the completion
and settles STALE_SAMPLES there, although R101 says that a write of the load settings never changes the settled record at its
completion: the model's choice (assumption 50). -/
def staleAfterWrite (p : Pos) (s : State) : State :=
  if pastLimit s p then evaluate false p (s.onLoad p LoadState.becomeStale) else s

/-- The positions whose stale limit differs from what it was in `before` (R58). -/
def staleTargets (before s : State) : List Pos := allPos.filter (fun p => staleLimit before p != staleLimit s p)

/-- A change of a position's fitted-sensor flags (R15), from the state before the new value stood. The evaluation for the
anchors comes before that for the tag coil, and either may settle an INDETERMINATE at the completion: both the model's
choice (R94, R96, R101; assumption 37). -/
def sensorsChanged (before : State) (p : Pos) (s : State) : State :=
  let s1 := if anchorsFitted before p && !anchorsFitted s p then
      evaluate false p (afterSeatChange false before p (s.onCls p ClassState.forgetAnchors))
    else s
  if coilFitted before p && !coilFitted s p then evaluateEvidence s1 (coilRemoved p s1)
  else if !coilFitted before p && coilFitted s p then coilAdded p s1
  else s1

/-- A gain of a fitted restraint position was written: its mark is set, and once every fitted restraint position carries
the mark, UNCALIBRATED clears for all of them and each is evaluated (R168), at each later gain write too, which is the
model's choice (assumption 36). -/
def gainWritten (p : Pos) (s : State) : State :=
  if isRestraint p && posFitted s p then
    let s1 := s.onSettings (fun u => { u with gainWritten := u.gainWritten.modify p (fun _ => true) })
    if (fittedRestraints s1).all (fun q => s1.settings.gainWritten.get q) then
      evaluateEach (fittedRestraints s1)
        (s1.onSettings (fun u => { u with uncalibrated := PerPos.all false }))
    else s1
  else s

/-- A written position record whose POSITION_CONFIG_FAULT is set is validated again (R170). -/
def revalidate (p : Pos) (s : State) : State :=
  if s.settings.posFault.get p && positionRecordPasses s p (posWords s.settings.active p) then
    evaluate false p (s.onSettings (fun u => { u with posFault := u.posFault.modify p (fun _ => false) }))
  else s

/-- A completed write of the check table: the walk of each row in CHECKING restarts, its exchange on the line moves no
walk step, and with an empty table the row enters ONLINE (R30). Several rows are taken in ascending order, the model's
choice (assumption 42). -/
def checkTableReplaced (s : State) : State :=
  let checking := allRows.filter (fun r => (s.row r).state == .checking)
  let s1 := s.onLine (fun l =>
    { l with exchange := l.exchange.map (fun x =>
      if checking.contains x.row then { x with detached := true } else x) })
  forEach checking (fun r t =>
    let t1 := t.onRow r (fun x => { x with walk := ⟨0, .read, x.walk.attempts⟩ })
    if checkCount t.settings.active = 0 then enterOnline r t1 else t1) s1

/-- What a new value of a position record causes: its sensor flags, its gains, its record's validity (R15, R168,
R170). -/
def positionEffects (before : State) (p : Pos) (i : Nat) (s : State) : State :=
  let s1 := if i = 19 then sensorsChanged before p s else s
  let s2 := if 8 ≤ i ∧ i ≤ 15 then gainWritten p s1 else s1
  revalidate p s2

/-- What a new value of the check table or of the reminders' own settings causes (R30, R121). -/
def tableEffects (grp i : Nat) (s : State) : State :=
  let s1 := if grp = 19 then checkTableReplaced s else s
  if grp = 17 ∨ (grp = 16 ∧ i ≤ 1) then evaluateAllLists s1 else s1

/-- What the new value of a parameter causes beyond standing in the active settings; `before` is the state in which the
old value stood (R15, R30, R58, R121, R168, R170). -/
def writeEffects (before : State) (grp i : Nat) (s : State) : State :=
  let s1 := match posOfNum grp with
    | some p => positionEffects before p i s
    | none => s
  tableEffects grp i (forEach (staleTargets before s1) staleAfterWrite s1)

/-- The write completes OK: the value is active at once, the configuration state is CONFIGURED, the reply carries the
new value (R170). No check of R169 is made again: an episode limit that a count has meanwhile passed is active all the
same (R130; assumption 39). -/
def writeSucceeds (w : WriteInFlight) (s : State) : State :=
  let s1 := s.onSettings (fun u =>
    { u with
      active := setParam u.active w.id w.value
      config := .configured
      write := none
      store := imageAfterWrite s w })
  let s2 := publish (writeEffects s (idGroup w.id) (idIndex w.id) s1)
  endEvent (sendWriteReply ⟨kindWriteParam, replyOk, bytesOf16 w.id ++ bytesOf16 w.value, 0⟩ s2)

/-- The FAULT notice of an entry to STORE_INCONSISTENT (R170). -/
def storeNotice (grp : Nat) (old : ConfigState) (reason : Nat) : Notice :=
  ⟨.fault, .position ((posOfNum grp).getD ⟨.r1, .s1⟩), byte (configCode old), 3, byte reason, none⟩

/-- The write fails: the value is unchanged. With a reason, 9 or 10, the configuration state becomes STORE_INCONSISTENT,
with a FAULT notice at its entry (R170). -/
def writeFails (w : WriteInFlight) (reason : Option Nat) (s : State) : State :=
  let value := paramValue s.settings.active w.id
  let s1 := s.onSettings (fun u =>
    { u with write := none, store := Config.storeAfterFailure u.store (imageAfterWrite s w) })
  let s2 := match reason with
    | none => s1
    | some n =>
      let t := s1.onSettings (fun u => { u with config := .storeInconsistent })
      if s.settings.config = .storeInconsistent then t
      else notify (storeNotice (idGroup w.id) s.settings.config n) t
  arbitrate (sendWriteReply ⟨kindWriteParam, replyWriteFailed, bytesOf16 w.id ++ bytesOf16 value, 0⟩ s2)

/-- The write in flight completes (R170). -/
def writeCompletes (o : WriteOutcome) (s : State) : State :=
  match s.settings.write with
  | none => s
  | some w => match o with
    | .readBackAsWritten => writeSucceeds w s
    | .notAcknowledged => writeFails w none s
    | .headerFailed => writeFails w (some 9) s
    | .readbackMismatch => writeFails w (some 10) s

/-! ### The transmitter (R159) -/

/-- The frame in the slot is acknowledged and the arbiter fills the slot (R159). -/
def transmitAcked (s : State) : State :=
  if s.body.slot.isSome then arbitrate (s.onBody Body.acknowledged) else s

/-- Bus-off is entered, which may come at any time, in SLEEP too (R159). -/
def busGoesOff (s : State) : State := s.onBody Body.enterBusOff

/-- Bus-off recovery ends and the arbiter fills the slot (R159). -/
def busRecovers (s : State) : State :=
  if s.body.busOff then arbitrate (s.onBody (fun b => { b with busOff := false })) else s

end Sys2Proof.Machine
end

