-- ==== Sys2Proof/Machine/BodyCommands.lean ====
section
/-! DEFINITION. The commands of the body port and the completion of a settings write (chapters 10 and 11). -/

namespace Sys2Proof.Machine

/-- VEHICLE_STATE (R156). -/
def execVehicleState (speed gear closures : Byte) (s : State) : Host.Outcome State Fault Refusal :=
  .next (receive (takeVehicleState speed gear closures) s)

/-- FRESHNESS_TIMER_EXPIRY (R156). -/
def execFreshnessTimerExpiry (s : State) : Host.Outcome State Fault Refusal := .next (freshnessExpires s)

/-- DEGRADE_TIMER_EXPIRY (R156). -/
def execDegradeTimerExpiry (s : State) : Host.Outcome State Fault Refusal := .next (degradeExpires s)

/-- MAP_TIMER_EXPIRY (R157). -/
def execMapTimerExpiry (s : State) : Host.Outcome State Fault Refusal := .next (mapExpires s)

/-- MAP_REQUEST (R158). -/
def execMapRequest (s : State) : Host.Outcome State Fault Refusal := .next (receive takeMapRequest s)

/-- REMINDER_ACK (R127, R163). -/
def execReminderAck (mask : Word16) (s : State) : Host.Outcome State Fault Refusal := .next (receive (takeAck mask) s)

/-- READ_PARAM (R164). A refusal carries the id and the value sent (R177). -/
def execReadParam (id value : Word16) (s : State) : Host.Outcome State Fault Refusal :=
  .next (takeService kindReadParam (bytesOf16 id ++ bytesOf16 value) (answerReadParam id value) s)

/-- WRITE_PARAM (R164, R169). A refusal carries the id and the value sent (R177). -/
def execWriteParam (id value : Word16) (s : State) : Host.Outcome State Fault Refusal :=
  .next (takeService kindWriteParam (bytesOf16 id ++ bytesOf16 value) (answerWriteParam id value) s)

/-- CLEAR_CHILD_LIST (R81, R164). -/
def execClearChildList (s : State) : Host.Outcome State Fault Refusal := .next (takeService kindClear [] answerClear s)

/-- READ_CHILD_ENTRY (R70, R164). -/
def execReadChildEntry (index : Byte) (s : State) : Host.Outcome State Fault Refusal :=
  .next (takeService kindReadEntry [] (answerReadEntry index) s)

/-- READ_ROW (R43, R164). -/
def execReadRow (row : Byte) (s : State) : Host.Outcome State Fault Refusal :=
  .next (takeService kindReadRow [] (answerReadRow row) s)

/-- A SERVICE_REQUEST of unknown kind (R164). -/
def execUnknownServiceRequest (kind : Byte) (s : State) : Host.Outcome State Fault Refusal :=
  .next (takeService kind [] (answerUnknownKind kind) s)

/-- WRITE_COMPLETION (R170). -/
def execWriteCompletion (outcome : WriteOutcome) (s : State) : Host.Outcome State Fault Refusal :=
  .next (writeCompletes outcome s)

/-- TRANSMIT_ACKNOWLEDGED (R159). -/
def execTransmitAcknowledged (s : State) : Host.Outcome State Fault Refusal := .next (transmitAcked s)

/-- BUS_OFF (R159). -/
def execBusOff (s : State) : Host.Outcome State Fault Refusal := .next (outsideReset s busGoesOff)

/-- BUS_OFF_RECOVERY (R159). -/
def execBusOffRecovery (s : State) : Host.Outcome State Fault Refusal := .next (busRecovers s)

end Sys2Proof.Machine
end

