-- ==== Sys2Proof/Machine/OutputCommands.lean ====
section
/-! DEFINITION. The commands of the cadence timers and of OUTEN (chapter 8). -/

namespace Sys2Proof.Machine

/-- CHIME_PERIOD_END (R140, R141, R146). -/
def execChimePeriodEnd (s : State) : Host.Outcome State Fault Refusal := .next (s.onCadence Cadence.chimeEnds)

/-- FLASH_PERIOD_END (R143, R146). -/
def execFlashPeriodEnd (s : State) : Host.Outcome State Fault Refusal := .next (s.onCadence Cadence.flashEnds)

/-- A cadence timer changed. -/
def Cadence.onTimer (c : Cadence) (t : CadenceId) (f : CadenceTimer → CadenceTimer) : Cadence :=
  match t with
  | .chime => { c with chime := f c.chime }
  | .flash => { c with flash := f c.flash }

/-- CADENCE_ON_PART_END (R137). -/
def execCadenceOnPartEnd (timer : CadenceId) (s : State) : Host.Outcome State Fault Refusal :=
  .next (s.onCadence (fun c => c.onTimer timer CadenceTimer.endOnPart))

/-- The OUTEN line rises. In RUN and REST the gates act at that moment (R144, R146); elsewhere the level alone is kept
(R145). A line that is high already does not rise. -/
def outenRises (s : State) : State :=
  if s.pins.outen then s
  else
    let s1 := s.onPins (fun u => { u with outen := true })
    if awake s then s1.onCadence (fun c => c.openGates s.straps.outcfg) else s1

/-- The OUTEN line falls, and both gates close (R144). -/
def outenFalls (s : State) : State :=
  (s.onPins (fun u => { u with outen := false })).onCadence Cadence.closeGates

/-- OUTEN_ASSERTED (R144, R146). -/
def execOutenAsserted (s : State) : Host.Outcome State Fault Refusal := .next (outenRises s)

/-- OUTEN_DEASSERTED (R144). -/
def execOutenDeasserted (s : State) : Host.Outcome State Fault Refusal := .next (outenFalls s)

end Sys2Proof.Machine
end

