-- ==== Sys2Proof/Machine/PositionCommands.lean ====
section
/-! DEFINITION. The commands about one position or one row's tag read: staleness, scan and tag read timers, and the
reminder timers (chapters 3, 4 and 7). -/

namespace Sys2Proof.Machine

/-- A running age that has just become greater than the limit is at least one past it. -/
def agePastLimit (s : State) (p : Pos) (l : LoadState) : LoadState := { l with age := max l.age (staleLimit s p + 1) }

/-- A position's running age becomes greater than its stale limit. A position that is stale already, or whose age does
not run, cannot become stale by it (R56, R57). -/
def ageRunsOut (p : Pos) (s : State) : State :=
  if posFitted s p ∧ (s.load.get p).ageMode = .running ∧ (s.load.get p).stale = false then
    goStale p (s.onLoad p (agePastLimit s p))
  else s

/-- A row's tag read timer runs out: the read in flight completes with FAULT, each position whose evidence changed is
evaluated, and the event's changes are published (R65, R67, R71). -/
def tagReadTimesOut (r : Row) (s : State) : State :=
  match (s.row r).tagRead with
  | none => s
  | some t =>
    if (s.child.tagTimers.get r).isSome then
      endWithBatch (evaluateEvidence s (completeRead r t .fault s))
    else s

/-- A position's delay timer runs out in WAIT (R124). -/
def delayRunsOut (p : Pos) (s : State) : State :=
  if (s.rem.get p).state = .wait ∧ (s.rem.get p).delay.isSome then endEvent (enterVisual p s) else s

/-- A position's audible timer runs out in AUDIBLE: reason 1, TIMER_EXPIRED (R126, R135). -/
def audibleRunsOut (p : Pos) (s : State) : State :=
  if (s.rem.get p).state = .audible ∧ (s.rem.get p).audible.isSome then endEvent (silence p 1 s) else s

/-- POSITION_BECOMES_STALE (R56). -/
def execPositionBecomesStale (pos : Pos) (s : State) : Host.Outcome State Fault Refusal := .next (ageRunsOut pos s)

/-- SCAN_TIMER_EXPIRY (R62). -/
def execScanTimerExpiry (pos : Pos) (moment : Nat) (s : State) : Host.Outcome State Fault Refusal :=
  .next (scanExpires pos moment s)

/-- TAG_READ_TIMER_EXPIRY (R65). -/
def execTagReadTimerExpiry (row : Row) (s : State) : Host.Outcome State Fault Refusal := .next (tagReadTimesOut row s)

/-- DELAY_TIMER_EXPIRY (R124). -/
def execDelayTimerExpiry (pos : Pos) (s : State) : Host.Outcome State Fault Refusal :=
  .next (delayRunsOut pos s)

/-- AUDIBLE_TIMER_EXPIRY (R126). -/
def execAudibleTimerExpiry (pos : Pos) (s : State) : Host.Outcome State Fault Refusal :=
  .next (audibleRunsOut pos s)

end Sys2Proof.Machine
end

