-- ==== Sys2Proof/Machine/PowerCommands.lean ====
section
/-! DEFINITION. The commands of the Supply and Wake Monitor: reset, autoload, IGN, HOLD, rest, sleep and wake
(chapter 11). Every command but RESET, RESET_RELEASE and the changes of the input lines and of the supply finds no effect
to have while the part is held in reset (assumption 15). -/

namespace Sys2Proof.Machine

/-- RESET (R174). -/
def execReset (cause : ResetCause) (straps : Straps) (s : State) : Host.Outcome State Fault Refusal :=
  .next (resetPart cause straps s)

/-- RESET_RELEASE (R174). -/
def execResetRelease (s : State) : Host.Outcome State Fault Refusal := .next (releaseReset s)

/-- AUTOLOAD_END (R166). -/
def execAutoloadEnd (answer : StoreAnswer) (s : State) : Host.Outcome State Fault Refusal :=
  .next (outsideReset s (autoloadEnds answer))

/-- IGN_LINE_CHANGE (R171). -/
def execIgnLineChange (high : Bool) (s : State) : Host.Outcome State Fault Refusal := .next (ignLineChanges high s)

/-- IGN_ASSERTED (R131, R171). -/
def execIgnAsserted (s : State) : Host.Outcome State Fault Refusal := .next (outsideReset s ignAsserts)

/-- IGN_DEASSERTED (R131, R171). -/
def execIgnDeasserted (s : State) : Host.Outcome State Fault Refusal := .next (outsideReset s ignDeasserts)

/-- HOLD_SET (R173). -/
def execHoldSet (s : State) : Host.Outcome State Fault Refusal := .next (setHold s)

/-- HOLD_CLEARED (R173). -/
def execHoldCleared (s : State) : Host.Outcome State Fault Refusal := .next (clearHold s)

/-- SUPPLY_BELOW_HOLD_THRESHOLD (R173). -/
def execSupplyBelowHoldThreshold (edge : SupplyEdge) (s : State) : Host.Outcome State Fault Refusal :=
  .next (supplyEdge edge s)

/-- REST_TIMER_EXPIRY (R171). -/
def execRestTimerExpiry (s : State) : Host.Outcome State Fault Refusal := .next (outsideReset s restExpires)

/-- WAKE_EVENT (R172). -/
def execWakeEvent (source : WakeSource) (s : State) : Host.Outcome State Fault Refusal :=
  .next (outsideReset s (takeWakeEvent source))

/-- END_OF_WAKE_SETTLE (R172). -/
def execEndOfWakeSettle (s : State) : Host.Outcome State Fault Refusal := .next (outsideReset s endWakeSettle)

/-- SECONDS_COUNT_TICK (R171). -/
def execSecondsCountTick (s : State) : Host.Outcome State Fault Refusal := .next (outsideReset s secondsTick)

end Sys2Proof.Machine
end

