-- ==== Sys2Proof/Machine/RestraintCommands.lean ====
section
/-! DEFINITION. The commands of the restraint port and of the crash lock's hold timer (chapters 6 and 9). -/

namespace Sys2Proof.Machine

/-- LOCK_HOLD_TIMER_EXPIRY (R110). -/
def execLockHoldTimerExpiry (s : State) : Host.Outcome State Fault Refusal := .next (holdExpires s)

/-- NOP, command 0x01 (R151). -/
def execNop (arg : Byte) (s : State) : Host.Outcome State Fault Refusal :=
  .next (takeRequest 0x01 arg (answerOk 0x01 nopPayload) s)

/-- GET_FRONT, command 0x02 (R151). -/
def execGetFront (arg : Byte) (s : State) : Host.Outcome State Fault Refusal :=
  .next (takeRequest 0x02 arg (answerOk 0x02 getFrontPayload) s)

/-- GET_POSITION, command 0x03 (R16, R151). -/
def execGetPosition (arg : Byte) (s : State) : Host.Outcome State Fault Refusal :=
  .next (takeRequest 0x03 arg (answerPosition arg) s)

/-- GET_STATUS, command 0x04 (R151). -/
def execGetStatus (arg : Byte) (s : State) : Host.Outcome State Fault Refusal :=
  .next (takeRequest 0x04 arg (answerOk 0x04 getStatusPayload) s)

/-- LOCK, command 0x0A (R107). -/
def execLock (arg : Byte) (s : State) : Host.Outcome State Fault Refusal :=
  .next (takeRequest 0x0A arg (answerLock arg) s)

/-- UNLOCK, command 0x0B (R109). -/
def execUnlock (arg : Byte) (s : State) : Host.Outcome State Fault Refusal :=
  .next (takeRequest 0x0B arg answerUnlock s)

/-- FRAME_ERROR (R150). -/
def execFrameError (s : State) : Host.Outcome State Fault Refusal := .next (frameErrs s)

/-- UNKNOWN_COMMAND (R150). -/
def execUnknownCommand (command arg : Byte) (s : State) : Host.Outcome State Fault Refusal :=
  .next (takeRequest command arg (respond ⟨command, .unknownCommand, 0⟩) s)

end Sys2Proof.Machine
end

