-- ==== Sys2Proof/Machine/RowCommands.lean ====
section
/-! DEFINITION. The commands of the row line and the seat rows (chapters 1 and 2). In reset no exchange is on the line,
no row timer runs and no row state is watched, so that none of them acts there; a sense input's level is kept in every
device state (assumption 15). -/

namespace Sys2Proof.Machine

/-- SLOT_TIMER_EXPIRY (R22). -/
def execSlotTimerExpiry (s : State) : Host.Outcome State Fault Refusal := .next (slotExpires s)

/-- RESPONSE_WINDOW_EXPIRY (R20). -/
def execResponseWindowExpiry (s : State) : Host.Outcome State Fault Refusal := .next (exchangeTimesOut s)

/-- SAMPLE_ANSWER: the answer judged and, when GOOD, delivered (R20, R39, R176). -/
def execSampleAnswer (bytes : List Byte) (s : State) : Host.Outcome State Fault Refusal :=
  .next (answerCompletes bytes s)

/-- READ_ID_ANSWER (R20, R27, R176). -/
def execReadIdAnswer (bytes : List Byte) (s : State) : Host.Outcome State Fault Refusal :=
  .next (answerCompletes bytes s)

/-- READ_REG_ANSWER (R20, R29, R176). -/
def execReadRegAnswer (bytes : List Byte) (s : State) : Host.Outcome State Fault Refusal :=
  .next (answerCompletes bytes s)

/-- WRITE_REG_ANSWER (R20, R29, R176). -/
def execWriteRegAnswer (bytes : List Byte) (s : State) : Host.Outcome State Fault Refusal :=
  .next (answerCompletes bytes s)

/-- SENSE_MATED (R11). -/
def execSenseMated (row : Row) (s : State) : Host.Outcome State Fault Refusal := .next (senseBecomesMated row s)

/-- MATING_DEBOUNCE_STOP (R11): the sense input changes to unmated. -/
def execMatingDebounceStop (row : Row) (s : State) : Host.Outcome State Fault Refusal :=
  .next (senseReadsUnmated row s)

/-- ROW_ARRIVAL (R11). -/
def execRowArrival (row : Row) (s : State) : Host.Outcome State Fault Refusal := .next (rowArrives row s)

/-- ROW_REMOVAL (R13): the sense input reads unmated. -/
def execRowRemoval (row : Row) (s : State) : Host.Outcome State Fault Refusal := .next (senseReadsUnmated row s)

/-- POWER_SETTLE_EXPIRY (R26, R34). -/
def execPowerSettleExpiry (row : Row) (s : State) : Host.Outcome State Fault Refusal := .next (settleExpires row s)

/-- POWER_OFF_TIMER_EXPIRY (R34). -/
def execPowerOffTimerExpiry (row : Row) (s : State) : Host.Outcome State Fault Refusal := .next (powerOffExpires row s)

/-- ONLINE_STABILITY_TIMER_EXPIRY (R31). -/
def execOnlineStabilityTimerExpiry (row : Row) (s : State) : Host.Outcome State Fault Refusal :=
  .next (stabilityExpires row s)

end Sys2Proof.Machine
end

