-- ==== Sys2Proof/Machine/Dispatch.lean ====
section
/-! DEFINITION. One arm per command, each one direct call of its meaning. -/

namespace Sys2Proof.Machine

def exec (i : Instr) (s : State) : Host.Outcome State Fault Refusal :=
  match i with
  | .reset cause straps => Sys2Proof.Machine.execReset cause straps s
  | .autoloadEnd answer => Sys2Proof.Machine.execAutoloadEnd answer s
  | .ignLineChange high => Sys2Proof.Machine.execIgnLineChange high s
  | .ignAsserted => Sys2Proof.Machine.execIgnAsserted s
  | .ignDeasserted => Sys2Proof.Machine.execIgnDeasserted s
  | .holdSet => Sys2Proof.Machine.execHoldSet s
  | .holdCleared => Sys2Proof.Machine.execHoldCleared s
  | .restTimerExpiry => Sys2Proof.Machine.execRestTimerExpiry s
  | .wakeEvent source => Sys2Proof.Machine.execWakeEvent source s
  | .endOfWakeSettle => Sys2Proof.Machine.execEndOfWakeSettle s
  | .secondsCountTick => Sys2Proof.Machine.execSecondsCountTick s
  | .slotTimerExpiry => Sys2Proof.Machine.execSlotTimerExpiry s
  | .responseWindowExpiry => Sys2Proof.Machine.execResponseWindowExpiry s
  | .sampleAnswer bytes => Sys2Proof.Machine.execSampleAnswer bytes s
  | .readIdAnswer bytes => Sys2Proof.Machine.execReadIdAnswer bytes s
  | .readRegAnswer bytes => Sys2Proof.Machine.execReadRegAnswer bytes s
  | .writeRegAnswer bytes => Sys2Proof.Machine.execWriteRegAnswer bytes s
  | .senseMated row => Sys2Proof.Machine.execSenseMated row s
  | .rowArrival row => Sys2Proof.Machine.execRowArrival row s
  | .rowRemoval row => Sys2Proof.Machine.execRowRemoval row s
  | .powerSettleExpiry row => Sys2Proof.Machine.execPowerSettleExpiry row s
  | .powerOffTimerExpiry row => Sys2Proof.Machine.execPowerOffTimerExpiry row s
  | .onlineStabilityTimerExpiry row => Sys2Proof.Machine.execOnlineStabilityTimerExpiry row s
  | .positionBecomesStale pos => Sys2Proof.Machine.execPositionBecomesStale pos s
  | .scanTimerExpiry pos moment => Sys2Proof.Machine.execScanTimerExpiry pos moment s
  | .tagReadTimerExpiry row => Sys2Proof.Machine.execTagReadTimerExpiry row s
  | .lockHoldTimerExpiry => Sys2Proof.Machine.execLockHoldTimerExpiry s
  | .delayTimerExpiry pos => Sys2Proof.Machine.execDelayTimerExpiry pos s
  | .audibleTimerExpiry pos => Sys2Proof.Machine.execAudibleTimerExpiry pos s
  | .chimePeriodEnd => Sys2Proof.Machine.execChimePeriodEnd s
  | .flashPeriodEnd => Sys2Proof.Machine.execFlashPeriodEnd s
  | .cadenceOnPartEnd timer => Sys2Proof.Machine.execCadenceOnPartEnd timer s
  | .outenAsserted => Sys2Proof.Machine.execOutenAsserted s
  | .outenDeasserted => Sys2Proof.Machine.execOutenDeasserted s
  | .nop arg => Sys2Proof.Machine.execNop arg s
  | .getFront arg => Sys2Proof.Machine.execGetFront arg s
  | .getPosition arg => Sys2Proof.Machine.execGetPosition arg s
  | .getStatus arg => Sys2Proof.Machine.execGetStatus arg s
  | .lock arg => Sys2Proof.Machine.execLock arg s
  | .unlock arg => Sys2Proof.Machine.execUnlock arg s
  | .frameError => Sys2Proof.Machine.execFrameError s
  | .unknownCommand command arg => Sys2Proof.Machine.execUnknownCommand command arg s
  | .vehicleState speed gear closures => Sys2Proof.Machine.execVehicleState speed gear closures s
  | .freshnessTimerExpiry => Sys2Proof.Machine.execFreshnessTimerExpiry s
  | .degradeTimerExpiry => Sys2Proof.Machine.execDegradeTimerExpiry s
  | .mapTimerExpiry => Sys2Proof.Machine.execMapTimerExpiry s
  | .mapRequest => Sys2Proof.Machine.execMapRequest s
  | .reminderAck mask => Sys2Proof.Machine.execReminderAck mask s
  | .readParam id value => Sys2Proof.Machine.execReadParam id value s
  | .writeParam id value => Sys2Proof.Machine.execWriteParam id value s
  | .clearChildList => Sys2Proof.Machine.execClearChildList s
  | .readChildEntry index => Sys2Proof.Machine.execReadChildEntry index s
  | .readRow row => Sys2Proof.Machine.execReadRow row s
  | .unknownServiceRequest kind => Sys2Proof.Machine.execUnknownServiceRequest kind s
  | .writeCompletion outcome => Sys2Proof.Machine.execWriteCompletion outcome s
  | .transmitAcknowledged => Sys2Proof.Machine.execTransmitAcknowledged s
  | .busOff => Sys2Proof.Machine.execBusOff s
  | .busOffRecovery => Sys2Proof.Machine.execBusOffRecovery s
  | .matingDebounceStop row => Sys2Proof.Machine.execMatingDebounceStop row s
  | .supplyBelowHoldThreshold edge => Sys2Proof.Machine.execSupplyBelowHoldThreshold edge s
  | .resetRelease => Sys2Proof.Machine.execResetRelease s

end Sys2Proof.Machine
end

