-- ==== Sys2Proof/Machine/Tick.lean ====
section
/-! DEFINITION. One tick of the 1 ms base: what the part does by itself when no command waits (assumption 1). Every
running timer and sample age counts first; the expiries then act in a fixed order, which is the model's (assumption
16). -/

namespace Sys2Proof.Machine

/-- A running timer counts down. -/
def countDown (t : Timer) : Timer := t.map (fun n => n - 1)

/-- The timer has run out. -/
def ranOut (t : Timer) : Bool := t == some 0

def Settle.count : Settle → Settle
  | .running n => .running (n - 1)
  | .stopped => .stopped
  | .expired => .expired

def SlotTimer.count : SlotTimer → SlotTimer
  | .running n => .running (n - 1)
  | .stopped => .stopped
  | .suspended => .suspended

def Supply.count : Supply → Supply
  | .dipping n => .dipping (n - 1)
  | .normal => .normal
  | .low => .low

/-- The Monitor's timers, the tick count and the milliseconds of the second (R171). -/
def Monitor.count (m : Monitor) : Monitor :=
  { m with
    supply := m.supply.count
    ignDebounce := countDown m.ignDebounce
    restTimer := countDown m.restTimer
    wakeSettle := countDown m.wakeSettle
    subSecond := (m.subSecond + 1) % 1000
    now := m.now + 1 }

/-- A row's timers; the stability timer does not run during HOLD (R11, R26, R31, R34). -/
def RowRecord.count (hold : Bool) (x : RowRecord) : RowRecord :=
  { x with
    mating := countDown x.mating
    settle := x.settle.count
    powerOff := countDown x.powerOff
    stability := if hold then x.stability else countDown x.stability }

def Reminder.count (r : Reminder) : Reminder := { r with delay := countDown r.delay, audible := countDown r.audible }

/-- The cadence timers, short of a period end (R137). -/
def Cadence.count (c : Cadence) : Cadence := { c with chime := c.chime.tick.1, flash := c.flash.tick.1 }

def Body.count (b : Body) : Body :=
  { b with freshTimer := countDown b.freshTimer, degrade := countDown b.degrade, mapTimer := countDown b.mapTimer }

/-- Every running timer and age counts (R22, R55, R62, R65, R106, R115, R137, R156, R157, R171, R173). -/
def countTimers (s : State) : State :=
  { s with
    monitor := s.monitor.count
    line := { s.line with
      rows := s.line.rows.mapIdx (fun _ x => x.count s.monitor.hold)
      timer := s.line.timer.count }
    load := s.load.mapIdx (fun _ l => l.tick)
    child := { s.child with
      coils := s.child.coils.mapIdx (fun _ c => { c with scan := countDown c.scan })
      tagTimers := s.child.tagTimers.mapIdx (fun _ t => countDown t) }
    pub := { s.pub with holdTimer := countDown s.pub.holdTimer }
    rem := s.rem.mapIdx (fun _ r => r.count)
    cadence := s.cadence.count
    body := s.body.count }

/-- `f` where the condition holds. -/
def whenTrue (c : State → Bool) (f : State → State) (s : State) : State := if c s then f s else s

/-- The end of the IGN debounce: the debounced value becomes the line's (R171). -/
def ignSettles (s : State) : State :=
  if s.pins.ignLine = s.monitor.ign then s.onMonitor (fun m => { m with ignDebounce := none })
  else if s.pins.ignLine then ignAsserts s
  else ignDeasserts s

/-- The Monitor's expiries that come first: the second and IGN (R171). -/
def monitorExpiries (s : State) : State :=
  whenTrue (fun t => ranOut t.monitor.ignDebounce) ignSettles (whenTrue (fun t => t.monitor.subSecond == 0) secondsTick s)

/-- The Monitor's expiries that come last: the supply dip, after every age that this tick takes past its limit, then the
rest timer and the wake settle (R56, R171 to R173). -/
def lateExpiries (s : State) : State :=
  let s1 := whenTrue (fun t => t.monitor.supply == .dipping 0) setHold s
  let s2 := whenTrue (fun t => ranOut t.monitor.restTimer) restExpires s1
  whenTrue (fun t => ranOut t.monitor.wakeSettle) endWakeSettle s2

/-- The period ends of the cadence timers, which come before any change of the reminders (R140 to R143). -/
def periodExpiries (chime flash : Bool) (s : State) : State :=
  let s1 := if chime then s.onCadence Cadence.chimeEnds else s
  if flash then s1.onCadence Cadence.flashEnds else s1

/-- A row's expiries (R11, R26, R31, R34). -/
def rowExpiries (r : Row) (s : State) : State :=
  let s1 := whenTrue (fun t => ranOut (t.row r).mating) (rowArrives r) s
  let s2 := whenTrue (fun t => (t.row r).settle == .running 0) (settleExpires r) s1
  let s3 := whenTrue (fun t => ranOut (t.row r).powerOff) (powerOffExpires r) s2
  whenTrue (fun t => ranOut (t.row r).stability) (stabilityExpires r) s3

/-- A position's expiries: its age, scan timer, delay timer and audible timer (R56, R62, R124, R126). -/
def positionExpiries (p : Pos) (s : State) : State :=
  let s1 := whenTrue (fun t => pastLimit t p) (goStale p) s
  let s2 := whenTrue (fun t => ranOut (t.coil p).scan) (fun t => scanExpires p t.monitor.now t) s1
  let s3 := whenTrue (fun t => ranOut (t.rem.get p).delay) (delayRunsOut p) s2
  whenTrue (fun t => ranOut (t.rem.get p).audible) (audibleRunsOut p) s3

/-- The Body Port's expiries (R156, R157). -/
def bodyExpiries (s : State) : State :=
  let s1 := whenTrue (fun t => ranOut t.body.freshTimer) freshnessExpires s
  let s2 := whenTrue (fun t => ranOut t.body.degrade) degradeExpires s1
  whenTrue (fun t => ranOut t.body.mapTimer) mapExpires s2

/-- The expiries, in the model's order. `chime` and `flash` say that the timer's period ends at this tick. -/
def takeExpiries (chime flash : Bool) (s : State) : State :=
  let s1 := forEach allRows rowExpiries (monitorExpiries (periodExpiries chime flash s))
  let s2 := whenTrue (fun t => t.line.timer == .running 0) slotExpires s1
  let s3 := forEach allRows (fun r => whenTrue (fun t => ranOut (t.child.tagTimers.get r)) (tagReadTimesOut r)) s2
  let s4 := forEach allPos positionExpiries s3
  let s5 := whenTrue (fun t => ranOut t.pub.holdTimer) holdExpires s4
  lateExpiries (bodyExpiries s5)

/-- A millisecond with the part held in reset: the qualification of a supply below 7.0 V runs on (R173, R174). -/
def tickInReset (s : State) : State :=
  s.onMonitor (fun m => { m with supply := if m.supply.count = .dipping 0 then .low else m.supply.count })

/-- One tick of the 1 ms base. While the part is held in reset nothing counts but the supply (R173, R174). -/
def tick (s : State) : State :=
  if s.monitor.inReset then tickInReset s
  else takeExpiries s.cadence.chime.tick.2 s.cadence.flash.tick.2 (countTimers s)

end Sys2Proof.Machine
end

