-- ==== Sys2Proof/Machine/Ports.lean ====
section
/-! DEFINITION. How the frames on the links spell commands (R148, R155, R176, R177), and how a frame that ends joins the
queue. -/

namespace Sys2Proof.Machine

/-! ### Restraint port (R148, R177) -/

/-- The eight bits at place 8i of a frame, the most significant first (R175). -/
def frameByte (bits : List Bool) (i : Nat) : Byte :=
  BitVec.ofNat 8 (((bits.drop (8 * i)).take 8).foldl (fun acc b => 2 * acc + bit b) 0)

/-- The frame is well formed: exactly 32 bits, and the CRC-8 checks over the first three bytes (R148). -/
def wellFormedFrame (bits : List Bool) : Bool :=
  bits.length == 32
    && frameByte bits 3 == crc8 [frameByte bits 0, frameByte bits 1, frameByte bits 2]

/-- The command of a well-formed request; its third byte is disregarded (R148, R151). -/
def requestCommand (command arg : Byte) : Instr :=
  if command = 0x01 then .nop arg
  else if command = 0x02 then .getFront arg
  else if command = 0x03 then .getPosition arg
  else if command = 0x04 then .getStatus arg
  else if command = 0x0A then .lock arg
  else if command = 0x0B then .unlock arg
  else .unknownCommand command arg

/-- The command that the bits taken in one frame spell (R148, R150). -/
def restraintCommand (bits : List Bool) : Instr :=
  if wellFormedFrame bits then requestCommand (frameByte bits 0) (frameByte bits 1) else .frameError

/-- The bytes the port shifts out during the next frame (R149, R177). In SLEEP the port is silent, its data output
high-impedance, until the wake event (R153, R154). -/
def shiftedOut (s : State) : Option (List Byte) := if asleep s then none else some (responseBytes s.port.response)

/-! ### Body port (R155, R177) -/

/-- The command of a SERVICE_REQUEST's eight bytes. -/
def serviceCommand (d : List Byte) : Instr :=
  let b := fun i => d.getD i 0
  if b 0 = kindReadParam then .readParam (word16 (b 1) (b 2)) (word16 (b 3) (b 4))
  else if b 0 = kindWriteParam then .writeParam (word16 (b 1) (b 2)) (word16 (b 3) (b 4))
  else if b 0 = kindClear then .clearChildList
  else if b 0 = kindReadEntry then .readChildEntry (b 1)
  else if b 0 = kindReadRow then .readRow (b 1)
  else .unknownServiceRequest (b 0)

/-- The command a CAN frame spells under the active identifiers; none for another identifier or another data length
(R155). -/
def canCommand (g : Groups) (id : BitVec 11) (d : List Byte) : Option Instr :=
  let n := id.toNat
  if n = baseId g + 8 then
    (if d.length = 2 then some (.reminderAck (word16 (d.getD 0 0) (d.getD 1 0))) else none)
  else if n = baseId g + 9 then (if d.length = 0 then some .mapRequest else none)
  else if n = baseId g + 10 then (if d.length = 8 then some (serviceCommand d) else none)
  else if n = vehicleId g then
    (if d.length = 4 then some (.vehicleState (d.getD 0 0) (d.getD 1 0) (d.getD 2 0)) else none)
  else none

/-! ### Row line (R20, R176) -/

/-- The command of an answer that is complete: that of the kind of the exchange on the line; none without one (R20). -/
def answerCommand (s : State) (bytes : List Byte) : Option Instr :=
  s.line.exchange.map (fun x => match x.kind with
    | .sample => .sampleAnswer bytes
    | .readId => .readIdAnswer bytes
    | .readReg => .readRegAnswer bytes
    | .writeReg => .writeRegAnswer bytes)

/-! ### The queue -/

/-- A command joins the queue behind those that wait. -/
def State.queue (s : State) (c : Instr) : State := { s with pending := s.pending ++ [c] }

/-- A restraint frame ends. -/
def State.receiveRestraint (s : State) (bits : List Bool) : State := s.queue (restraintCommand bits)

/-- A CAN frame's reception completes. -/
def State.receiveCan (s : State) (id : BitVec 11) (d : List Byte) : State :=
  match canCommand s.settings.active id d with
  | some c => s.queue c
  | none => s

/-- An answer on the row line is complete. -/
def State.receiveAnswer (s : State) (bytes : List Byte) : State :=
  match answerCommand s bytes with
  | some c => s.queue c
  | none => s

end Sys2Proof.Machine
end

