-- ==== Sys2Proof/Safety.lean ====
section
/-! DEFINITION. The terms in which statements about the machine are made: what a command may change, and the
invariants that every step keeps. -/

namespace Sys2Proof.Machine

/-! ### What a command changes -/

/-- The blocks of the state (section 0.3), with the straps, the input lines and the queue of waiting commands. -/
inductive Block where
  | straps | pins | monitor | line | load | child | cls | pub | rem | cadence | port | body | settings | pending
  deriving DecidableEq, Repr

/-- The block holds the same in both states. -/
def Block.same (s t : State) : Block → Prop
  | .straps => t.straps = s.straps
  | .pins => t.pins = s.pins
  | .monitor => t.monitor = s.monitor
  | .line => t.line = s.line
  | .load => t.load = s.load
  | .child => t.child = s.child
  | .cls => t.cls = s.cls
  | .pub => t.pub = s.pub
  | .rem => t.rem = s.rem
  | .cadence => t.cadence = s.cadence
  | .port => t.port = s.port
  | .body => t.body = s.body
  | .settings => t.settings = s.settings
  | .pending => t.pending = s.pending

/-- From `s` to `t` nothing changes but the blocks listed. -/
def ChangesOnly (bs : List Block) (s t : State) : Prop := ∀ b, b ∉ bs → b.same s t

/-! ### Conditions a command meets -/

/-- The part is out of reset and in RUN or REST. -/
def Running (s : State) : Prop := s.monitor.inReset = false ∧ awake s = true

/-- Frames are received: the part is out of reset and not in SLEEP before a wake event (R153, R155). -/
def Listening (s : State) : Prop := s.monitor.inReset = false ∧ asleep s = false

/-- Restraint frames are received: frames are, and the one that ends is not that which woke the part (R153). -/
def Hearing (s : State) : Prop := Listening s ∧ s.port.wakingFrame = false

/-- CAN frames are received (R155, R159). -/
def Receiving (s : State) : Prop := Listening s ∧ s.body.busOff = false

/-! ### Records and rows that several statements name -/

/-- Fitted by R4's table, for a variant code v: rows 1 to 3 for 000 and 001, 1 to 4 for 010 and 011, 1 to 5 otherwise;
position 2 is absent in the valid codes with VAR0 high; under VARIANT_FAULT every position is fitted (R5). -/
def fittedByCode (v : Nat) (p : Pos) : Bool :=
  decide (p.row.num ≤ (if v < 2 then 3 else if v < 4 then 4 else 5))
    && !(decide (v % 2 = 1) && decide (v < 6) && p == ⟨.r1, .s2⟩)

/-- The record a fitted position takes at the end of STARTING and of the wake settle (R85, R90). -/
def startRecord (s : State) (p : Pos) : ClassRecord :=
  if (s.row p.row).state = .absent then .notInstalled
  else if 6 ≤ s.straps.var.toNat then .indeterminate .variantFault
  else if s.settings.posFault.get p then .indeterminate .positionConfigFault
  else if s.settings.uncalibrated.get p then .indeterminate .uncalibrated
  else .indeterminate .rowStarting

/-- The lines of R90's table from the top, each with whether its condition holds and the record it gives. -/
def candidateLines (s : State) (p : Pos) : List (Bool × ClassRecord) :=
  let row := (s.row p.row).state
  let c := s.cls.get p
  let coil := s.coil p
  let enough := minFootprint s.settings.active p ≤ (s.load.get p).footprint
  [ (!posFitted s p, .notFitted),
    (row == .absent, .notInstalled),
    (decide (6 ≤ s.straps.var.toNat), .indeterminate .variantFault),
    (s.settings.posFault.get p, .indeterminate .positionConfigFault),
    (s.settings.uncalibrated.get p, .indeterminate .uncalibrated),
    (row == .probing || row == .checking || row == .recovering || (row == .online && !c.sampled),
      .indeterminate .rowStarting),
    (row == .failed, .indeterminate .rowFailed),
    ((s.load.get p).stale, .indeterminate .staleSamples),
    ((s.load.get p).cellFaults, .indeterminate .cellFaults),
    (coil.contest.isSome && !coil.unknown, .indeterminate .evidenceConflict),
    ((standing s p).map (·.orient) == some .rear && !coil.unknown, .childSeatRear),
    ((standing s p).map (·.orient) == some .forward && !coil.unknown, .childSeatForward),
    (anchored s p && c.band == 3, .indeterminate .evidenceConflict),
    (anchored s p, .childSeat),
    (c.band == 0, .vacant),
    (c.band == 1, .object),
    (c.band == 2, if enough then .smallOccupant else .object),
    (true, if enough then .adult else .object) ]

/-- The record of the first line whose condition holds (R90); the last line's always does. -/
def tableRecord (s : State) (p : Pos) : ClassRecord :=
  match (candidateLines s p).find? (·.1) with
  | some line => line.2
  | none => .notFitted

/-- A reminder that is not held after an evaluation gave it its START and ESCALATE results: `delay` is the delay that a step
from OFF to WAIT takes, `limit` the episode limit, `time` the audible time (R122 to R129). -/
def ladderStep (r : Reminder) (start escalate : Bool) (delay limit time : Nat) : Reminder :=
  let r1 := { r with start := start, escalate := escalate }
  let off := { r1 with state := .off, delay := none, audible := none }
  let audible := { r1 with state := .audible, delay := none, audible := some time, episodes := r.episodes + 1 }
  let visual := if escalate && decide (r.episodes < limit) then audible
    else { r1 with state := .visual, delay := none, audible := none }
  if !start then off
  else match r.state with
    | .off => if delay = 0 then visual else { r1 with state := .wait, delay := some delay }
    | .visual => visual
    | .wait | .audible | .silenced => r1

/-- The row record that the end of STARTING and of the wake settle leave: row 1 and the fitted rows found mated are PROBING
with RPWR on and the settle running, the others ABSENT with RPWR off (R10, R5). -/
def RebuiltRow (s : State) (r : Row) (x : RowRecord) : Prop :=
  if rowFitted s r = true ∧ (r = .r1 ∨ 6 ≤ s.straps.var.toNat ∨ s.pins.sense.get r = true) then
    x.state = .probing ∧ x.rpwr = true ∧ x.settle = .running 50
  else x.state = .absent ∧ x.rpwr = false

/-- The state in which the first wake event leaves a sleeping part: the 4 ms settle runs, RESYNC is set, the Restraint Port
has the prepared response of reset and its ready mark is clear (R153, R158, R172). -/
def woken (s : State) : State :=
  { s with
    monitor := { s.monitor with wakeSettle := some 4 }
    body := { s.body with resync := true }
    port := { s.port with response := ⟨0, .notReady, 0⟩, ready := false } }

/-- At most one entry stands at each position (R69, R76). -/
def OneStanding (c : ChildUnit) : Prop := ∀ p, (c.entries.filter (standsAt p)).length ≤ 1

/-- The exchange of a poll sent to a row: the row's address, its sequence and the poll's bytes (R6, R19, R176). -/
def polled (s : State) (r : Row) (b : PollBody) : Exchange :=
  ⟨r, b.kind, (s.row r).sequence,
    pollBytes (byte (r.num + if s.straps.adofs then 8 else 0)) (s.row r).sequence b, false⟩

/-- The poll of the check walk's phase (R29). -/
def walkPoll (g : Groups) (w : Walk) : PollBody :=
  if w.phase = .write then .writeReg (checkRegister g w.entry) (checkWriteValue g w.entry)
  else .readReg (checkRegister g w.entry)

/-- The command ends the exchange as a failure: the response window runs out, or its answer is not judged GOOD (R20). -/
def FailsExchange (s : State) (x : Exchange) (c : Instr) : Prop :=
  c = .responseWindowExpiry
  ∨ ∃ b, judgeAnswer s x b ≠ .good ∧ c = (match x.kind with
    | .sample => .sampleAnswer b
    | .readId => .readIdAnswer b
    | .readReg => .readRegAnswer b
    | .writeReg => .writeRegAnswer b)

/-- The lowest-numbered position outside the row that is contested by the tag (R73). -/
def LowestContest (s : State) (r : Row) (x : TagId) (q : Pos) : Prop :=
  q.row ≠ r ∧ (s.coil q).contest = some x ∧ ∀ q', q'.row ≠ r → (s.coil q').contest = some x → q.num ≤ q'.num

/-- A row's sense input is watched: a fitted row 2 to 5 without VARIANT_FAULT, in RUN or REST (R5, R8, R11, R42). -/
def Watched (s : State) (r : Row) : Prop :=
  r ≠ .r1 ∧ rowFitted s r = true ∧ s.straps.var.toNat < 6 ∧ awake s = true

/-- From `s` to `t` a row enters ONLINE: score 0, the stability timer at 10 s, and each fitted position prepared for sampling.
Its load state is AWAITING at age 0, frozen under HOLD, with its conditions clear; its sampled mark and dwell are cleared, its
buckle is UNKNOWN and its anchors are OPEN; where a coil is fitted the scan timer starts and an urgent request stands; the
FAULT count and UNKNOWN clear; in RUN and REST the record settles at ROW_STARTING or a higher reason (R12, R31, R55, R59, R62,
R63, R67, R68, R83, R98). -/
def EntersOnline (s t : State) (r : Row) : Prop :=
  (t.row r).state = .online ∧ (t.row r).score = 0 ∧ (t.row r).stability = some 10000
  ∧ ∀ p, p.row = r → posFitted s p = true →
    t.load.get p = { s.load.get p with
      phase := .awaiting, age := 0, ageMode := if s.monitor.hold then .frozen else .running
      cellFaults := false, stale := false, faultCount := 0 }
    ∧ (t.cls.get p).sampled = false ∧ (t.cls.get p).dwell = 0 ∧ (t.cls.get p).band = (s.cls.get p).band
    ∧ (t.cls.get p).buckle = .unknown ∧ (t.cls.get p).prevBuckle = none ∧ (t.cls.get p).buckleFaults = 0
    ∧ (t.cls.get p).left = ⟨false, none⟩ ∧ (t.cls.get p).right = ⟨false, none⟩
    ∧ (t.cls.get p).settled = (if awake s then startRecord t p else (s.cls.get p).settled)
    ∧ t.coil p = (if coilFitted s p then
        { s.coil p with scan := some (scanInterval s), due := none, urgent := true, faults := 0, unknown := false }
      else { s.coil p with faults := 0, unknown := false })

/-! ### What a record of the image must hold (R167) -/

/-- Thresholds in the order that R86 asks for. -/
def ThresholdsOrdered (th1 th2 th3 h : Nat) : Prop := h < th1 ∧ th1 + h < th2 ∧ th2 + h < th3

/-- A group set of th1, th2, th3, h, minimum footprint, dwell and stale limit, from index i on (R46, R86). -/
def SetPasses (l : List Word16) (i : Nat) : Prop :=
  wordAt l i ≤ 16376 ∧ wordAt l (i + 1) ≤ 16376 ∧ wordAt l (i + 2) ≤ 16376 ∧ wordAt l (i + 3) ≤ 1000
  ∧ 1 ≤ wordAt l (i + 4) ∧ wordAt l (i + 4) ≤ 8 ∧ 1 ≤ wordAt l (i + 5) ∧ wordAt l (i + 5) ≤ 32
  ∧ 20 ≤ wordAt l (i + 6) ∧ wordAt l (i + 6) ≤ 1000
  ∧ ThresholdsOrdered (wordAt l i) (wordAt l (i + 1)) (wordAt l (i + 2)) (wordAt l (i + 3))

/-- A device record (R62, R86, R165, R178). -/
def DeviceRecordPasses (l : List Word16) : Prop :=
  SetPasses l 0 ∧ SetPasses l 7 ∧ 60 ≤ wordAt l 14 ∧ wordAt l 14 ≤ 3600 ∧ wordAt l 15 ≤ 7
  ∧ 200 ≤ wordAt l 16 ∧ wordAt l 16 ≤ 10000 ∧ 200 ≤ wordAt l 17 ∧ wordAt l 17 ≤ 10000

/-- A position record: its fields in range, an optional one where its override bit is set alone (assumption 25), its own
thresholds in order, and no sensors that R14 forbids (R14, R46, R86, R178). -/
def PositionRecordPasses (s : State) (p : Pos) (l : List Word16) : Prop :=
  let own := fun (n : Nat) => (wordAt l 20).testBit n = true
  (∀ i, i ≤ 7 → wordAt l i ≤ 1023) ∧ (∀ i, 8 ≤ i → i ≤ 15 → 64 ≤ wordAt l i ∧ wordAt l i ≤ 511)
  ∧ wordAt l 16 ≤ 255 ∧ wordAt l 17 ≤ 4 ∧ wordAt l 18 ≤ 255 ∧ wordAt l 19 ≤ 7 ∧ wordAt l 20 ≤ 15
  ∧ (own 0 → wordAt l 21 ≤ 16376 ∧ wordAt l 22 ≤ 16376 ∧ wordAt l 23 ≤ 16376 ∧ wordAt l 24 ≤ 1000
    ∧ ThresholdsOrdered (wordAt l 21) (wordAt l 22) (wordAt l 23) (wordAt l 24))
  ∧ (own 1 → 1 ≤ wordAt l 25 ∧ wordAt l 25 ≤ 8) ∧ (own 2 → 1 ≤ wordAt l 26 ∧ wordAt l 26 ≤ 32)
  ∧ (own 3 → 20 ≤ wordAt l 27 ∧ wordAt l 27 ≤ 1000)
  ∧ (posFitted s p = false → wordAt l 19 = 0)
  ∧ (p = ⟨.r1, .s2⟩ ∨ p = ⟨.r1, .s3⟩ → (wordAt l 19).testBit 1 = true → (wordAt l 19).testBit 2 = true)

/-- A reminder record (R116). -/
def ReminderRecordPasses (l : List Word16) : Prop :=
  wordAt l 0 ≤ 254 ∧ wordAt l 1 ≤ 254 ∧ wordAt l 2 ≤ 30000 ∧ wordAt l 3 ≤ 30000 ∧ wordAt l 4 ≤ 30000
  ∧ 10 ≤ wordAt l 5 ∧ wordAt l 5 ≤ 300 ∧ 1 ≤ wordAt l 6 ∧ wordAt l 6 ≤ 7

/-- List k of a condition list record: its count, and all eight term words, those beyond the count too (R120, R178;
assumption 25). -/
def ListPasses (l : List Word16) (k : Nat) : Prop :=
  wordAt l (9 * k) ≤ 8 ∧ ∀ i, 1 ≤ i → i ≤ 8 → wordAt l (9 * k + i) < 64 ∧ wordAt l (9 * k + i) % 16 ≤ 9

/-- A check table record (R28, R178). -/
def CheckRecordPasses (l : List Word16) : Prop :=
  wordAt l 0 ≤ 8 ∧ (∀ e, e < 8 → wordAt l (1 + 4 * e) % 256 < 64 ∧ wordAt l (1 + 4 * e) < 512)
  ∧ ∀ e, e < wordAt l 0 → l.getD (3 + 4 * e) 0 &&& ~~~ l.getD (2 + 4 * e) 0 = 0

/-- A body port record: the VEHICLE_STATE identifier is none of the seven counted from the base (R155, R160, R178). -/
def PortRecordPasses (l : List Word16) : Prop :=
  wordAt l 0 ≤ 0x7F5 ∧ wordAt l 1 ≤ 0x7FF
  ∧ (∀ k, 1 ≤ k → k ≤ 8 → let code := wordAt l 2 / 2 ^ (2 * k - 2) % 4
    code ≤ 1 ∨ (code = 2 ∧ k = 1))
  ∧ ∀ d, d ∈ [0, 1, 2, 3, 8, 9, 10] → wordAt l 1 ≠ wordAt l 0 + d

/-- A group takes its record of the image, of n values, where that passes, and its built-in values otherwise (R167). -/
def TakesRecord (now builtIn : List Word16) (got : Option (List Word16)) (n : Nat) (passes : List Word16 → Prop) : Prop :=
  (∀ l, got = some l → l.length = n → passes l → now = l)
  ∧ ((∀ l, got = some l → l.length = n → ¬ passes l) → now = builtIn)

/-! ### The contents of two service replies, byte by byte (R43, R70, R176, R177) -/

/-- The 20 bytes of an entry at an index. -/
def entryBytes (s : State) (index : Byte) (e : Entry) : List Byte :=
  let contest := (s.coil e.pos).contest.getD 0
  [index, 1, e.tag.extractLsb' 16 8, e.tag.extractLsb' 8 8, e.tag.extractLsb' 0 8,
    (match e.orient with | .rear => 0 | .forward => 1),
    (match e.state with | .present => 1 | .provisional => 2 | .missing => 3), BitVec.ofNat 8 e.pos.num,
    e.firstSeen.extractLsb' 24 8, e.firstSeen.extractLsb' 16 8, e.firstSeen.extractLsb' 8 8, e.firstSeen.extractLsb' 0 8,
    e.confirmed.extractLsb' 24 8, e.confirmed.extractLsb' 16 8, e.confirmed.extractLsb' 8 8, e.confirmed.extractLsb' 0 8,
    contest.extractLsb' 16 8, contest.extractLsb' 8 8, contest.extractLsb' 0 8,
    if (s.coil e.pos).unknown then 1 else 0]

/-- The 20 bytes of a seat's latch: presence, eight cells, tension, and the state byte. -/
def seatLatchBytes (latch : Option SeatPart) : List Byte :=
  let anchor := fun (a : AnchorReading) => (match a with | .isOpen => 0 | .engaged => 1 | .notFitted => 2 : BitVec 2)
  match latch with
  | none => List.replicate 20 0
  | some part => [1]
    ++ part.cells.toList.flatMap (fun c =>
      [(BitVec.ofBool c.faulted ++ 0#3 ++ c.code.extractLsb' 8 4 : BitVec 8), c.code.extractLsb' 0 8])
    ++ (match part.tension with
      | none => [0x80, 0]
      | some v => [(0#6 ++ v.extractLsb' 8 2 : BitVec 8), v.extractLsb' 0 8])
    ++ [(0#2 ++ anchor part.rightAnchor ++ anchor part.leftAnchor
      ++ (match part.buckle with | .isOpen => 0#2 | .latched => 1#2 | .fault => 2#2) : BitVec 8)]

/-- The 73 bytes of a row's record; bit 2 of the walk byte is 0, the model's choice (assumption 49). -/
def rowBytes (s : State) (r : Row) : List Byte :=
  let x := s.row r
  [BitVec.ofNat 8 r.num,
    (match x.state with
      | .absent => 0 | .probing => 1 | .checking => 2 | .online => 3 | .recovering => 4 | .failed => 5),
    (match x.cause with
      | .none => 0 | .senseMated => 1 | .senseUnmated => 2 | .checkPassed => 3 | .probeExhausted => 4
      | .checkExhausted => 5 | .errorScore => 6 | .recoveryExhausted => 7 | .noSlot => 8),
    BitVec.ofNat 8 x.score, BitVec.ofNat 8 x.recovery]
  ++ (match x.identity with
    | none => [0, 0, 0, 0, 0, 0, 0]
    | some i => [1, i.kind, i.revision, i.serial.extractLsb' 24 8, i.serial.extractLsb' 16 8, i.serial.extractLsb' 8 8,
        i.serial.extractLsb' 0 8])
  ++ [if x.state = .checking then
      BitVec.ofNat 8 (32 * x.walk.entry + (match x.walk.phase with | .read => 0 | .write => 8 | .reread => 16)
        + x.walk.attempts)
    else 0]
  ++ seatLatchBytes (x.latch.get .s1) ++ seatLatchBytes (x.latch.get .s2) ++ seatLatchBytes (x.latch.get .s3)

/-! ### Lamps (R134) -/

/-- The lamp state of a position, by the first line of R134's table that applies. -/
def lampByTable (s : State) (p : Pos) : BitVec 3 :=
  let c := s.pub.table.get p
  let b := (s.cls.get p).buckle
  let occupied := [ClassRecord.smallOccupant, .adult, .childSeat, .childSeatRear, .childSeatForward]
  if (s.rem.get p).state = .audible then 3
  else if (s.rem.get p).state = .visual ∨ (s.rem.get p).state = .silenced then 2
  else if c ∈ [ClassRecord.vacant, .object, .notInstalled, .notFitted] ∨ (s.row p.row).state = .absent then 0
  else if b = .latched ∧ (beltRequired s p = true ∨ c ∈ occupied) then 1
  else if c ∉ occupied ∨ b = .unknown then 4
  else 0

/-! ### What a request leaves -/

/-- The state after a restraint request was taken and answered: the request and the response are kept, and in REST the rest
timer restarts (R149, R150, R171). -/
def answered (s : State) (command arg : Byte) (status : Status) (payload : BitVec 12) : State :=
  restartRest { s with port := { s.port with
    lastRequest := some ⟨command, arg⟩, response := ⟨command, status, payload⟩ } }

/-- A SERVICE_REQUEST is taken and may be answered: frames are received, the part is in RUN or REST, and no reply waits. -/
def Serving (s : State) : Prop := Running s ∧ s.body.busOff = false ∧ s.body.reply = none

/-- The reply that a request leaves waiting; nothing but the Body Port and, in REST, the rest timer changes. -/
def RepliesWith (c : Instr) (s : State) (kind : Byte) (code : BitVec 4) (content : List Byte) : Prop :=
  ∃ t, exec c s = .next t ∧ t.body.reply = some ⟨kind, code, content, 0⟩
    ∧ t.monitor = (restartRest s).monitor ∧ t.body.queue.map (·.notice) = s.body.queue.map (·.notice)
    ∧ t.body.vehicle = s.body.vehicle ∧ t.body.resync = s.body.resync ∧ ChangesOnly [.monitor, .body] s t

/-! ### Notices that wait -/

/-- The queue split at its oldest eligible entry of a class: no older entry has its subject, and each older one of the class
has an older one with its own subject (R162). -/
def FirstEligible (urgent : Bool) (q l : List QueueEntry) (e : QueueEntry) (r : List QueueEntry) : Prop :=
  q = l ++ e :: r ∧ e.urgent = urgent ∧ (∀ x ∈ l, x.notice.subject ≠ e.notice.subject)
  ∧ ∀ l1 x l2, l = l1 ++ x :: l2 → x.urgent = urgent → ∃ y ∈ l1, y.notice.subject = x.notice.subject

/-- No entry of a class is eligible (R162). -/
def NoneEligible (urgent : Bool) (q : List QueueEntry) : Prop :=
  ∀ l x r, q = l ++ x :: r → x.urgent = urgent → ∃ y ∈ l, y.notice.subject = x.notice.subject

/-- The class a kind and two class codes give a notice under the kind-to-class map: code 1 URGENT, code 2 URGENT where the old
or the new class is a child seat class or INDETERMINATE, 4 to 7 (R105, R160, R178). -/
def urgentByMap (g : Groups) (n : Notice) : Bool :=
  decide (kindClass g (noticeKindCode n.kind) = 1)
    || (decide (kindClass g (noticeKindCode n.kind) = 2)
      && (decide (4 ≤ n.old.toNat ∧ n.old.toNat ≤ 7) || decide (4 ≤ n.new.toNat ∧ n.new.toNat ≤ 7)))

/-- A notice stands in the queue. -/
def Waits (b : Body) (n : Notice) : Prop := ∃ e ∈ b.queue, e.notice = n

/-- No notice of a kind about a subject stands in the queue. -/
def NoneWaits (b : Body) (k : NoticeKind) (x : Subject) : Prop :=
  ∀ e ∈ b.queue, ¬ (e.notice.kind = k ∧ e.notice.subject = x)

/-! ### Invariants -/

/-- The pending marks stand where the settled record differs from the published one, and while the lock is not held
there is no such position (R104, R108, R111). -/
def PublicationInv (s : State) : Prop :=
  ∀ p, s.pub.marks.get p = unpublished s p ∧ (s.pub.locked = false → unpublished s p = false)

/-- Two ROUTINE entries of one kind and one subject. -/
def sameRoutine (a b : QueueEntry) : Prop :=
  a.urgent = false ∧ b.urgent = false ∧ a.notice.kind = b.notice.kind ∧ a.notice.subject = b.notice.subject

/-- The queue holds at most 24 entries, no two ROUTINE ones of one kind and subject, and the count of consecutive URGENT
transmissions is at most 3 (R160 to R162). -/
def QueueInv (b : Body) : Prop :=
  b.queue.length ≤ 24 ∧ b.queue.Pairwise (fun x y => ¬ sameRoutine x y) ∧ b.urgentCount ≤ 3

/-- The transmit slot holds a frame of something that waits, and its bytes: the waiting copy of a map, the next unsent frame
of the waiting reply, or the notice of the one queue entry marked as in the slot (R157, R159, R164, R177). -/
def SlotInv (b : Body) : Prop :=
  (b.queue.filter (·.inSlot)).length = (match b.slot with
    | some f => if f.owner = .notice then 1 else 0
    | none => 0)
  ∧ match b.slot with
    | none => True
    | some f => match f.owner with
      | .occMap => b.occMap = some f.data
      | .beltMap => b.beltMap = some f.data
      | .reply => b.reply.map replyFrameBytes = some f.data
      | .notice => (b.queue.find? (·.inSlot)).map (fun e => noticeBytes e.notice) = some f.data

/-- Each tag has at most one entry (R69). -/
def TagsInv (c : ChildUnit) : Prop := (c.entries.map (·.tag)).Nodup

/-- A position is contested only by a tag whose entry stands at another position (R72, R77). -/
def ContestsStand (c : ChildUnit) : Prop :=
  ∀ p x, (c.coils.get p).contest = some x → ∃ e ∈ c.entries, e.tag = x ∧ e.state ≠ .missing ∧ e.pos ≠ p

/-- The child seat list: at most 16 entries, one for each tag, one standing at each position, and every contest by an entry
that stands elsewhere (R69, R72, R76). -/
def ListInv (c : ChildUnit) : Prop := TagsInv c ∧ OneStanding c ∧ c.entries.length ≤ 16 ∧ ContestsStand c

/-- The counts of a row record keep their ranges (R25). -/
def RowCountsInv (x : RowRecord) : Prop :=
  x.idFailures ≤ 16 ∧ x.walk.attempts ≤ 3 ∧ x.score ≤ 64 ∧ x.recovery ≤ 3

/-- The Cadence Generator shows the reminder states: its copy is theirs, the chime timer runs while a position is
AUDIBLE and holds a profile just then, and the flash timer runs while TELLTALE flashes (R139 to R143). -/
def CadenceInv (s : State) : Prop :=
  (∀ p, s.cadence.copy.get p = (s.rem.get p).state)
  ∧ (s.cadence.chime.running = true ↔ wantedProfile s.cadence.copy ≠ .none)
  ∧ (s.cadence.active = .none ↔ wantedProfile s.cadence.copy = .none)
  ∧ (s.cadence.flash.running = true ↔ telltaleState s.cadence.copy = .flashing)

/-- The outputs' gates are closed outside RUN and REST and while OUTEN is deasserted, and open otherwise
(R144, R145). -/
def GateInv (s : State) : Prop :=
  (s.cadence.chimeGate = .closed ↔ ¬ (awake s = true ∧ s.pins.outen = true))
  ∧ (s.cadence.telltaleGate = .closed ↔ ¬ (awake s = true ∧ s.pins.outen = true))

/-- A reminder's timers run in their own states alone (R122, R124 to R126, R129). -/
def RemTimersInv (r : Reminder) : Prop :=
  (r.delay.isSome = true ↔ r.state = .wait) ∧ (r.audible.isSome = true ↔ r.state = .audible)

end Sys2Proof.Machine
end

