-- ==== Sys2Proof/Certificates/Slice0/Obligations.lean ====
section
/-! DEFINITION. The statements about the machine. -/

open Sys2Proof Sys2Proof.Machine

/-! ### The step, the queue and reset -/

/-- A step with a command in front of the queue is that command's effect on the state with the queue's rest. -/
def Obligations.StepRunsTheFrontCommand : Prop :=
  ∀ (c : Instr) (rest : List Instr) (s : State), s.pending = c :: rest →
    step s = exec c { s with pending := rest }

/-- The model's choice (assumption 1): a step on an empty queue lets 1 ms pass. The count of the base advances by one, the
seconds count by one each 1000 ms (R171), and the straps, the lines and the queue stay. While the part is held in reset
nothing moves but the 1 ms qualification of a supply below 7.0 V (R173; assumption 6). -/
def Obligations.IdleStepsCountTime : Prop :=
  ∀ s : State, s.pending = [] →
    (s.monitor.inReset = true → step s = .next { s with monitor := { s.monitor with supply :=
      match s.monitor.supply with
      | .dipping n => if n ≤ 1 then .low else .dipping (n - 1)
      | .normal => .normal
      | .low => .low } })
    ∧ (s.monitor.inReset = false → ∃ t, step s = .next t
      ∧ t.monitor.now = s.monitor.now + 1 ∧ t.monitor.subSecond = (s.monitor.subSecond + 1) % 1000
      ∧ t.monitor.seconds = (if (s.monitor.subSecond + 1) % 1000 = 0 then s.monitor.seconds + 1 else s.monitor.seconds)
      ∧ t.straps = s.straps ∧ t.pins = s.pins ∧ t.pending = [])

/-- The model's reading of the spec (assumption 28; with 15 for a part held in reset and 19 for an expiry whose timer does
not run): every command answers a next state in every state, and none of them touches the queue of waiting commands. -/
def Obligations.EveryCommandAnswers : Prop :=
  ∀ (c : Instr) (s : State), ∃ t, exec c s = .next t ∧ t.pending = s.pending

/-- The state after reset holds the values the spec gives each block (R22, R25, R44, R62, R69, R83, R102, R103, R106,
R115, R149, R156 to R162). -/
def Obligations.StateAfterReset : Prop :=
  State.reset.monitor.device = .starting ∧ State.reset.monitor.hold = false ∧ State.reset.monitor.seconds = 0
  ∧ State.reset.line.timer = .stopped ∧ State.reset.line.pointer = 31 ∧ State.reset.line.exchange = none
  ∧ (∀ r, (State.reset.row r).state = (if r = .r1 then .probing else .absent)
      ∧ (State.reset.row r).rpwr = false ∧ (State.reset.row r).settle = .stopped ∧ (State.reset.row r).mating = none
      ∧ (State.reset.row r).powerOff = none ∧ (State.reset.row r).score = 0 ∧ (State.reset.row r).recovery = 0
      ∧ (State.reset.row r).cause = .none ∧ (State.reset.row r).identity = none ∧ (State.reset.row r).sequence = 0
      ∧ (State.reset.row r).tagCounter = 0 ∧ (State.reset.row r).tagRead = none)
  ∧ (∀ p, (State.reset.load.get p).phase = .stopped ∧ (State.reset.load.get p).filtered = 0
      ∧ (State.reset.coil p).scan = none ∧ (State.reset.coil p).urgent = false ∧ (State.reset.coil p).contest = none
      ∧ (State.reset.cls.get p).band = 0 ∧ (State.reset.cls.get p).dwell = 0
      ∧ (State.reset.cls.get p).buckle = .unknown ∧ (State.reset.cls.get p).left.engaged = false
      ∧ (State.reset.cls.get p).right.engaged = false
      ∧ (State.reset.rem.get p).state = .off ∧ (State.reset.rem.get p).episodes = 0
      ∧ State.reset.pub.marks.get p = false)
  ∧ State.reset.child.entries = [] ∧ State.reset.pub.epoch = 0 ∧ State.reset.pub.locked = false
  ∧ State.reset.pub.holdTimer = none ∧ State.reset.cadence.chime.running = false
  ∧ State.reset.cadence.flash.running = false ∧ State.reset.cadence.active = .none
  ∧ State.reset.port.response = ⟨0, .notReady, 0⟩ ∧ State.reset.port.ready = false
  ∧ State.reset.body.vehicle = ⟨0, .unknown, Closures.closed, .stale⟩ ∧ State.reset.body.mapTimer = none
  ∧ State.reset.body.queue = [] ∧ State.reset.body.resync = false ∧ State.reset.body.urgentCount = 0
  ∧ State.reset.body.reply = none ∧ State.reset.body.slot = none ∧ State.reset.settings.write = none

/-- RESET latches the straps and gives every block its values after reset: the Monitor in STARTING with HOLD and the seconds
count clear, the row records (R25), the slot timer and the exchange (R22), the load states (R44), an empty child seat list,
the Classifier's state of each position (R83), each position INDETERMINATE(STARTING) or, where the latched variant does not
fit it, NOT_FITTED (R4, R10, R102), epoch, lock and marks clear (R103, R106), reminders OFF, outputs gated, the Restraint
Port's and the Body Port's values, and no write in flight, with the gain-written marks clear (R168, R174). The input lines
and the waiting commands stay. RESET_RELEASE lets STARTING begin, and leaves a part that is not held in reset as it is. The
model's own, not the spec's words: rows 2 to 5 are ABSENT for straps 110 and 111 too, where R5 and R9 say that no row is
(assumption 17); the tick count and the part of a second in State.reset.monitor (1); the part is held from every reset until
RESET_RELEASE (15); how the supply stands against 7.0 V (6); the lengths and counts of the stopped cadence timers, in
State.reset.cadence (7); the built-in settings, UNCONFIGURED and the store until autoload ends (8); a debounced IGN that is
deasserted, and its debounce started at the release by a line that stands high (14); bus-off clear, in State.reset.body (18);
no last request, in State.reset.port (40). -/
def Obligations.ResetTakesEveryBlock : Prop :=
  (∀ (cause : ResetCause) (straps : Straps) (s : State), ∃ t, exec (.reset cause straps) s = .next t
    ∧ t.straps = straps ∧ t.pins = s.pins ∧ t.pending = s.pending
    ∧ t.monitor = { State.reset.monitor with
        device := .starting, inReset := true, hold := false, seconds := 0, ign := false
        supply := match cause with
          | .powerOn => .normal
          | .resetPin => s.monitor.supply
          | .supplyBelow => if s.monitor.supply = .normal then .dipping 1 else s.monitor.supply }
    ∧ t.line.exchange = none ∧ t.line.timer = .stopped ∧ t.line.pointer = 31
    ∧ (∀ r, t.row r = {
        state := if r = .r1 then .probing else .absent, rpwr := false, mating := none, settle := .stopped
        powerOff := none, idFailures := 0, walk := ⟨0, .read, 0⟩, score := 0, stability := none, recovery := 0
        cause := .none, identity := none, sequence := 0, tagCounter := 0, tagRead := none, latch := PerSeat.all none })
    ∧ t.child = State.reset.child ∧ t.load = State.reset.load ∧ t.rem = State.reset.rem
    ∧ t.cadence = State.reset.cadence ∧ t.port = State.reset.port ∧ t.body = State.reset.body
    ∧ t.settings.active = Groups.builtIn ∧ t.settings.config = .unconfigured ∧ t.settings.write = none
    ∧ (s.settings.write = none → t.settings.store = s.settings.store)
    ∧ t.pub.epoch = 0 ∧ t.pub.locked = false ∧ t.pub.holdTimer = none
    ∧ (∀ p, t.pub.table.get p
        = (if fittedByCode straps.var.toNat p then .indeterminate .starting else .notFitted)
      ∧ t.cls.get p = {
          band := 0, sampled := false, previous := none, dwell := 0, settled := t.pub.table.get p, buckle := .unknown
          prevBuckle := none, buckleFaults := 0, left := ⟨false, none⟩, right := ⟨false, none⟩ }
      ∧ t.pub.marks.get p = false ∧ t.settings.gainWritten.get p = false ∧ t.settings.posFault.get p = false
      ∧ t.settings.uncalibrated.get p = false))
  ∧ ∀ s : State,
    (s.monitor.inReset = true → exec .resetRelease s = .next { s with
      monitor := { s.monitor with inReset := false, ignDebounce := if s.pins.ignLine then some 50 else none } })
    ∧ (s.monitor.inReset = false → exec .resetRelease s = .next s)

/-- Autoload judges the store in the order of R166; in UNCONFIGURED and CONFIG_FAULT every setting is its built-in default
and each fitted restraint position is UNCALIBRATED, in CONFIGURED none is (R168). In CONFIGURED the first record of a group in
the body stands, a record that runs past the body's end ends it (R178), and each is validated (R167): a group's record that
passes is active whole, condition lists are judged list by list, and what fails or is missing takes its built-in values. A
position's record that fails leaves its load settings at the built-in defaults and sets POSITION_CONFIG_FAULT of a fitted
position; no other position has it. A write in flight is not touched. Four points are the model's: a byte past the store's
answer reads 0xFF (assumption 11), the built-in defaults of a position's optional values are its group's (5), a failed record
keeps its sensors, override mask, thresholds, footprint and dwell and gets its stale limit as the position's own (10), and how
far the checks reach into values that are disregarded (25). -/
def Obligations.AutoloadJudgesTheImage : Prop :=
  (∀ (a : StoreAnswer) (s : State), s.monitor.inReset = false → s.monitor.device = .starting →
    ∃ t, exec (.autoloadEnd a) s = .next t
    ∧ t.settings.config = (match a with
      | .unacknowledged => .configFault
      | .image b =>
        if word16 (storeByte b 0) (storeByte b 1) ≠ 0xA7C5#16 then .unconfigured
        else if storeByte b 2 ≠ 1 ∨ 2032 < (word16 (storeByte b 4) (storeByte b 5)).toNat
          ∨ 6 ≤ s.straps.var.toNat ∨ (storeByte b 3).toNat ≠ s.straps.var.toNat
          ∨ crc16 (imageBody b) ≠ word16 (storeByte b 6) (storeByte b 7) then .configFault
        else .configured)
    ∧ (t.settings.config ≠ .configured →
        t.settings.active = Groups.builtIn ∧ ∀ p, t.settings.posFault.get p = false)
    ∧ (∀ b, a = .image b → t.settings.config = .configured →
        let now := t.settings.active
        let std := Groups.builtIn
        let got := fun (g : Nat) => ((bodyRecords (imageBody b)).find? (fun r => r.group == g)).map (·.values)
        TakesRecord now.device std.device (got 0) 18 DeviceRecordPasses
        ∧ TakesRecord now.reminder std.reminder (got 16) 7 ReminderRecordPasses
        ∧ (∀ l k i, got 17 = some l → l.length = 36 → k < 4 → i < 9 →
            (ListPasses l k → now.lists.getD (9 * k + i) 0 = l.getD (9 * k + i) 0)
            ∧ (¬ ListPasses l k → now.lists.getD (9 * k + i) 0 = std.lists.getD (9 * k + i) 0))
        ∧ ((∀ l, got 17 = some l → l.length ≠ 36) → now.lists = std.lists)
        ∧ TakesRecord now.schedule std.schedule (got 18) 32 (fun l => ∀ i, i < 32 → wordAt l i ≤ 5)
        ∧ TakesRecord now.check std.check (got 19) 33 CheckRecordPasses
        ∧ TakesRecord now.port std.port (got 20) 3 PortRecordPasses
        ∧ ∀ p : Pos,
          let v := now.positions.get p
          let d := std.positions.get p
          (got p.num = none → v = d ∧ t.settings.posFault.get p = false)
          ∧ ∀ l, got p.num = some l →
            (l.length = 28 → PositionRecordPasses s p l → v = l ∧ t.settings.posFault.get p = false)
            ∧ (l.length = 28 → ¬ PositionRecordPasses s p l → t.settings.posFault.get p = posFitted s p
              ∧ v = (List.range 28).map (fun i => if i ≤ 18 ∨ i = 27 then d.getD i 0
                else if i = 20 then l.getD 20 0 ||| 8 else l.getD i 0))
            ∧ (l.length ≠ 28 → t.settings.posFault.get p = posFitted s p ∧ v = d.set 20 8))
    ∧ (∀ p, t.settings.uncalibrated.get p
        = (decide (t.settings.config ≠ .configured) && isRestraint p && posFitted s p))
    ∧ t.settings.write = s.settings.write)
  ∧ (∀ (b : List Byte), imageBody b
    = (List.range (word16 (storeByte b 4) (storeByte b 5)).toNat).map (fun i => b.getD (16 + i) 0xFF))
  ∧ ∀ (g n : Byte) (rest : List Byte), bodyRecords [] = [] ∧ bodyRecords [g] = []
    ∧ bodyRecords (g :: n :: rest) = (if rest.length < 2 * n.toNat then []
      else ⟨g.toNat, (List.range n.toNat).map (fun i => word16 (rest.getD (2 * i) 0) (rest.getD (2 * i + 1) 0))⟩
        :: bodyRecords (rest.drop (2 * n.toNat)))

/-- At the end of STARTING the device state follows the debounced IGN, the ready mark becomes set, the rows are rebuilt
from their sense inputs, the slot and map timers start, every fitted position is evaluated and published, and the reminder of
each position that is not held acts on its lists; where the supply has stood below 7.0 V for 1 ms, HOLD is set at that moment
and the slot timer is suspended (R10, R22, R85, R104, R121, R152, R157, R171, R173). -/
def Obligations.StartingEnds : Prop :=
  ∀ (a : StoreAnswer) (s : State), s.monitor.inReset = false → s.monitor.device = .starting →
    s.pub.locked = false →
    ∃ t, exec (.autoloadEnd a) s = .next t
    ∧ t.monitor.device = (if s.monitor.ign then .run else .rest) ∧ t.port.ready = true
    ∧ t.monitor.hold = decide (s.monitor.supply = .low)
    ∧ t.line.timer = (if s.monitor.supply = .low then .suspended else .running (if s.monitor.ign then 1 else 8))
    ∧ t.line.pointer = s.line.pointer
    ∧ t.body.mapTimer = some (if s.monitor.ign then 100 else 1000)
    ∧ (∀ r, RebuiltRow s r (t.row r))
    ∧ (∀ p, posFitted s p = true →
        (t.cls.get p).settled = startRecord t p ∧ t.pub.table.get p = startRecord t p)
    ∧ (∀ p, remHeld t p = true → t.rem.get p = s.rem.get p)
    ∧ (∀ p, remHeld t p = false → RemTimersInv (s.rem.get p) →
        t.rem.get p = ladderStep (s.rem.get p) (startResult t p) (escalateResult t p) (startDelay t p) (episodeLimit t)
          (audibleTime t))
    ∧ ChangesOnly [.monitor, .line, .cls, .pub, .rem, .cadence, .port, .body, .settings] s t

/-! ### The Supply and Wake Monitor -/

/-- The lines of the Monitor: a change of the raw IGN line outside reset and SLEEP starts its 50 ms debounce; the supply's fall
below 7.0 V starts its 1 ms qualification and its return cancels it, in every state, and while the part is held in reset
HOLD_SET and HOLD_CLEARED move the supply's standing alone; each tick of the seconds count adds one modulo 2^32
(R171, R173). That the supply is watched in reset is the model's choice (assumption 6). -/
def Obligations.MonitorLines : Prop :=
  ∀ s : State,
    (∀ high, s.monitor.inReset = false → s.monitor.device ≠ .sleep → exec (.ignLineChange high) s = .next { s with
      pins := { s.pins with ignLine := high }, monitor := { s.monitor with ignDebounce := some 50 } })
    ∧ (s.monitor.supply = .normal → exec (.supplyBelowHoldThreshold .fellBelow) s = .next { s with
      monitor := { s.monitor with supply := .dipping 1 } })
    ∧ (s.monitor.supply ≠ .normal → exec (.supplyBelowHoldThreshold .fellBelow) s = .next s)
    ∧ exec (.supplyBelowHoldThreshold .returnedAbove) s = .next { s with
      monitor := { s.monitor with supply := .normal } }
    ∧ (s.monitor.inReset = true →
      exec .holdSet s = .next { s with monitor := { s.monitor with supply := .low } }
      ∧ exec .holdCleared s = .next { s with monitor := { s.monitor with supply := .normal } })
    ∧ (s.monitor.inReset = false → exec .secondsCountTick s = .next { s with
      monitor := { s.monitor with seconds := BitVec.ofNat 32 (s.monitor.seconds.toNat + 1) } })

/-- At an assertion of the debounced IGN in REST the device state becomes RUN, the rest timer stops, a STALE vehicle copy
starts its degrade timer, and the lists of every position that is not held are evaluated (R121, R131, R156, R171). A list's
result is the fold of its terms from left to right, each the signal's value, negated by its invert flag and joined by AND or
OR, and false without terms (R121). Each such position acts on its results: OFF leads to WAIT, with the group's start delay,
where START holds; VISUAL leads to AUDIBLE where ESCALATE holds and an episode is left; every state leads to OFF where START
does not hold, with both timers stopped (R122 to R129). A position that is held stays as it is. The signals are those of R117
to R119, read from the copy as the Body Port presents it: a DEGRADED one shows speed 255, gear DRIVE and every closure closed
(R156). BELT_REQUIRED follows the published class, the row and the anchors (R68, R118). -/
def Obligations.IgnAssertsInRest : Prop :=
  (∀ s : State, s.monitor.inReset = false → s.monitor.ign = false → s.monitor.device = .rest →
    ∃ t, exec .ignAsserted s = .next t
    ∧ t.monitor = { s.monitor with ign := true, device := .run, restTimer := none, ignDebounce := none }
    ∧ t.body.degrade = (if s.body.vehicle.freshness = .stale then some 2000 else s.body.degrade)
    ∧ t.body.vehicle = s.body.vehicle
    ∧ (∀ p, remHeld t p = false →
        (t.rem.get p).start = startResult t p ∧ (t.rem.get p).escalate = escalateResult t p
        ∧ (RemTimersInv (s.rem.get p) → t.rem.get p = ladderStep (s.rem.get p) (startResult t p) (escalateResult t p)
            (startDelay t p) (episodeLimit t) (audibleTime t)))
    ∧ (∀ p, remHeld t p = true → t.rem.get p = s.rem.get p)
    ∧ ChangesOnly [.pins, .monitor, .rem, .cadence, .body] s t)
  ∧ (∀ (s : State) (p : Pos),
    startResult s p = foldTerms (fun w => signal s p (w.toNat % 16) != w.getLsbD 4)
      (listTerms s.settings.active (if p.num ≤ 3 then 0 else 2))
    ∧ escalateResult s p = foldTerms (fun w => signal s p (w.toNat % 16) != w.getLsbD 4)
      (listTerms s.settings.active (if p.num ≤ 3 then 1 else 3)))
  ∧ (∀ (s : State) (p : Pos),
    let v := s.body.vehicle
    let lost := decide (v.freshness = .degraded)
    let speed := if lost then 255 else v.speed.toNat
    let sliding := lost || !(v.closures.slidingLeft || v.closures.slidingRight)
    signal s p 0 = s.monitor.ign
    ∧ signal s p 1 = decide (wordAt s.settings.active.reminder 0 ≤ speed)
    ∧ signal s p 2 = decide (wordAt s.settings.active.reminder 1 ≤ speed)
    ∧ signal s p 3 = (lost || decide (v.gear = .drive ∨ v.gear = .reverse))
    ∧ signal s p 4 = (lost || (sliding && !(v.closures.frontLeft || v.closures.frontRight || v.closures.rear)))
    ∧ signal s p 5 = sliding
    ∧ signal s p 6 = decide (v.freshness = .fresh)
    ∧ signal s p 7 = s.pub.locked
    ∧ signal s p 8 = (posFitted s p && decide ((s.row p.row).state ≠ .absent) && match s.pub.table.get p with
      | .smallOccupant | .adult => true
      | .childSeat | .childSeatRear | .childSeatForward =>
        !((wordAt (posWords s.settings.active p) 19).testBit 1 && (s.cls.get p).left.engaged && (s.cls.get p).right.engaged)
      | .indeterminate _ => decide (p.num ≤ 3)
      | .vacant | .object | .notInstalled | .notFitted => false)
    ∧ signal s p 9 = decide ((s.cls.get p).buckle ≠ .latched))
  ∧ (∀ (value : Word16 → Bool) (first last : Word16) (terms : List Word16),
    foldTerms value [] = false ∧ foldTerms value [first] = value first
    ∧ foldTerms value (first :: terms ++ [last]) = (if last.getLsbD 5 then foldTerms value (first :: terms) || value last
        else foldTerms value (first :: terms) && value last))

/-- At a deassertion of the debounced IGN in RUN every position enters OFF with its timers stopped and its episode count 0,
the device state becomes REST with the rest timer started, the degrade timer stops and a DEGRADED copy returns to STALE
(R131, R156, R171); the Cadence Generator sees every position OFF. -/
def Obligations.IgnDeassertsInRun : Prop :=
  ∀ s : State, s.monitor.inReset = false → s.monitor.ign = true → s.monitor.device = .run →
    ∃ t, exec .ignDeasserted s = .next t
    ∧ t.monitor = { s.monitor with
        ign := false, device := .rest, restTimer := some (restTime s), ignDebounce := none }
    ∧ (∀ p, t.rem.get p
        = { s.rem.get p with state := .off, delay := none, audible := none, episodes := 0 })
    ∧ (∀ p, t.cadence.copy.get p = .off)
    ∧ t.body.degrade = none
    ∧ t.body.vehicle = { s.body.vehicle with freshness :=
        if s.body.vehicle.freshness = .degraded then .stale else s.body.vehicle.freshness }
    ∧ ChangesOnly [.pins, .monitor, .rem, .cadence, .body] s t

/-- HOLD set in RUN or REST suspends the slot timer, abandons the exchange and every tag read, and freezes the running
ages; everything else of the rows and of the load states stays (R21, R22, R41, R57, R173). That the Classifier's state stays
whole, with no evaluation for an abandoned read, is the model's choice (assumption 51). -/
def Obligations.HoldIsSet : Prop :=
  ∀ s : State, Running s → s.monitor.hold = false →
    ∃ t, exec .holdSet s = .next t
    ∧ t.monitor = { s.monitor with hold := true, supply := .low }
    ∧ t.line.timer = .suspended ∧ t.line.exchange = none ∧ t.line.pointer = s.line.pointer
    ∧ (∀ r, t.row r = { s.row r with tagRead := none })
    ∧ (∀ r, t.child.tagTimers.get r = (if (s.row r).tagRead = none then s.child.tagTimers.get r else none))
    ∧ (∀ p, t.coil p = { s.coil p with urgent := (s.coil p).urgent || (coilFitted s p &&
        decide ((s.row p.row).tagRead.map (·.seat) = some p.seat)) })
    ∧ t.child.entries = s.child.entries
    ∧ (∀ p, t.load.get p = { s.load.get p with
        ageMode := if (s.load.get p).ageMode = .running then .frozen else (s.load.get p).ageMode })
    ∧ ChangesOnly [.monitor, .line, .load, .child] s t

/-- HOLD clears: the slot timer restarts with a full period of the device state, the frozen ages run on, and a position
whose age is past its limit becomes stale at that moment (R22, R57, R58, R173). That the limit in force when HOLD clears alone
counts, whatever writes came before it in the same HOLD, is the model's choice (assumption 44). -/
def Obligations.HoldIsCleared : Prop :=
  ∀ s : State, Running s → s.monitor.hold = true →
    ∃ t, exec .holdCleared s = .next t
    ∧ t.monitor.hold = false ∧ t.monitor.supply = .normal ∧ t.monitor.device = s.monitor.device
    ∧ t.line = { s.line with timer := .running (if s.monitor.device = .rest then 8 else 1) }
    ∧ (∀ p, let l := s.load.get p
        let mode := if l.ageMode = .frozen then AgeMode.running else l.ageMode
        t.load.get p =
          (if posFitted s p = true ∧ mode = .running ∧ l.stale = false ∧ staleLimit s p < l.age then
            { l with ageMode := mode, stale := true, phase := if l.phase = .live then .awaiting else l.phase }
          else { l with ageMode := mode }))
    ∧ ChangesOnly [.monitor, .line, .load, .cls, .pub, .rem, .cadence, .body] s t

/-- At the rest timer's expiry in REST the part sleeps if no write is in flight and the lock is not held: HOLD clears, the
rows take their sleep values with RPWR off, PRESENT entries become PROVISIONAL, reminders, outputs, ready mark, queue and
reply are cleared, and the settings, the published table and the seconds count are kept. Otherwise the timer restarts
(R25, R82, R113, R115, R145, R154, R156, R161, R171, R172). Two clauses are the model's: a running IGN debounce runs on through
sleep entry, with the rest of the Monitor's fields (assumption 30), and the mark of the frame whose chip-select assertion woke
the part is cleared (18). -/
def Obligations.RestTimerExpires : Prop :=
  ∀ (s : State) (n : Nat), s.monitor.inReset = false → s.monitor.device = .rest → s.monitor.restTimer = some n →
    (s.settings.write = none → s.pub.locked = false → ∃ t, exec .restTimerExpiry s = .next t
      ∧ t.monitor = { s.monitor with device := .sleep, hold := false, restTimer := none, wakeSettle := none }
      ∧ t.line.timer = .stopped ∧ t.line.exchange = none ∧ t.line.pointer = s.line.pointer
      ∧ (∀ r, t.row r = { RowRecord.reset (if r = .r1 ∨ 6 ≤ s.straps.var.toNat then .probing else .absent) with
          cause := (s.row r).cause, sequence := (s.row r).sequence, tagCounter := (s.row r).tagCounter })
      ∧ t.child.entries = s.child.entries.map (fun e =>
          { e with state := if e.state = .present then .provisional else e.state })
      ∧ (∀ p, (t.coil p).scan = none ∧ (t.coil p).due = none ∧ (t.coil p).contest = none
          ∧ (t.load.get p).phase = .stopped ∧ (t.load.get p).ageMode = .stopped
          ∧ t.rem.get p = Reminder.reset ∧ t.cadence.copy.get p = .off)
      ∧ t.cadence.chime.running = false ∧ t.cadence.flash.running = false ∧ t.cadence.active = .none
      ∧ chimePin t = .highImpedance ∧ telltalePin t = .highImpedance
      ∧ t.port.response = ⟨0, .notReady, 0⟩ ∧ t.port.ready = false ∧ t.port.wakingFrame = false ∧ shiftedOut t = none
      ∧ t.body.queue = [] ∧ t.body.resync = false ∧ t.body.reply = none ∧ t.body.slot = none
      ∧ t.body.mapTimer = none ∧ t.body.vehicle = { s.body.vehicle with freshness := .stale }
      ∧ ChangesOnly [.monitor, .line, .load, .child, .rem, .cadence, .port, .body] s t)
    ∧ (s.settings.write.isSome = true ∨ s.pub.locked = true → exec .restTimerExpiry s = .next { s with
        monitor := { s.monitor with restTimer := some (restTime s) } })

/-- In SLEEP an enabled WAKE input, CAN activity, a chip-select change either way and an IGN assertion, whatever the enables
say, wake the part; a disabled WAKE input does not. A frame that arrives before a wake event, on either controller port, is
not received: it is that wake event and nothing else. Until then the restraint port is silent, and from then on it shifts
out the response of reset. Further wake events during the settle have no effect but the level of the IGN line. The frame
whose chip-select assertion woke the part is not received when it ends (R153 to R155, R172). That CAN frames are taken like
restraint frames here is the model's reading (assumption 18). -/
def Obligations.WakeEvents : Prop :=
  ∀ s : State, s.monitor.inReset = false → s.monitor.device = .sleep →
    let frame := fun (c : Instr) => match c with
      | .nop _ | .getFront _ | .getPosition _ | .getStatus _ | .lock _ | .unlock _ | .frameError
      | .unknownCommand _ _ => true
      | _ => false
    let high := fun (u : State) => { u with pins := { u.pins with ignLine := true } }
    (s.monitor.wakeSettle = none →
      exec (.wakeEvent .canActivity) s = .next (woken s)
      ∧ exec (.wakeEvent (.chipSelect false)) s = .next (woken s)
      ∧ exec (.wakeEvent (.chipSelect true)) s
          = .next { woken s with port := { (woken s).port with wakingFrame := true } }
      ∧ exec (.wakeEvent .ignition) s = .next (woken (high s)) ∧ exec (.ignLineChange true) s = .next (woken (high s))
      ∧ (∀ i : Fin 3, exec (.wakeEvent (if i = 0 then .wake0 else if i = 1 then .wake1 else .wake2)) s
          = .next (if wakeEnabled s i then woken s else s))
      ∧ (∀ c, frame c = true ∨ (match c with
          | .vehicleState _ _ _ | .mapRequest | .reminderAck _ | .readParam _ _ | .writeParam _ _ | .clearChildList
          | .readChildEntry _ | .readRow _ | .unknownServiceRequest _ => True
          | _ => False) → exec c s = .next (woken s))
      ∧ shiftedOut s = none ∧ shiftedOut (woken s) = some (responseBytes ⟨0, .notReady, 0⟩))
    ∧ (∀ n, s.monitor.wakeSettle = some n →
      exec (.wakeEvent .canActivity) s = .next s ∧ (∀ b, exec (.wakeEvent (.chipSelect b)) s = .next s)
      ∧ (∀ i : Fin 3, exec (.wakeEvent (if i = 0 then .wake0 else if i = 1 then .wake1 else .wake2)) s = .next s)
      ∧ exec (.wakeEvent .ignition) s = .next (high s) ∧ exec (.ignLineChange true) s = .next (high s)
      ∧ (∀ c, s.port.wakingFrame = true → frame c = true →
          exec c s = .next { s with port := { s.port with wakingFrame := false } }))

/-- At the end of the wake settle IGN is read and gives RUN or REST, the rows are rebuilt from their sense inputs, the slot
and map timers start, the positions take their wake values and are evaluated and published, each reminder takes its values
after reset and, where it is not held, acts on its lists, and every PROVISIONAL entry of a row found ABSENT becomes MISSING,
with a CHILD_SEAT_MISSING of cause ROW_REMOVED, while every other entry stays; where the supply has stood below 7.0 V for 1 ms,
HOLD is set at that moment and the slot timer is suspended (R10, R22, R82, R83, R85, R115, R121, R172, R173). -/
def Obligations.WakeSettleEnds : Prop :=
  ∀ (s : State) (n : Nat), s.monitor.inReset = false → s.monitor.device = .sleep → s.monitor.wakeSettle = some n →
    s.pub.locked = false → OneStanding s.child →
    ∃ t, exec .endOfWakeSettle s = .next t
    ∧ t.monitor.device = (if s.pins.ignLine then .run else .rest) ∧ t.monitor.ign = s.pins.ignLine
    ∧ t.monitor.wakeSettle = none ∧ t.monitor.seconds = s.monitor.seconds
    ∧ t.monitor.restTimer = (if s.pins.ignLine then none else some (restTime s))
    ∧ t.monitor.hold = decide (s.monitor.supply = .low)
    ∧ t.line.timer = (if s.monitor.supply = .low then .suspended else .running (if s.pins.ignLine then 1 else 8))
    ∧ t.line.pointer = s.line.pointer
    ∧ t.body.mapTimer = some (if s.pins.ignLine then 100 else 1000)
    ∧ (∀ r, RebuiltRow s r (t.row r))
    ∧ (∀ p, posFitted s p = true →
        (t.cls.get p).settled = startRecord t p ∧ t.pub.table.get p = startRecord t p
        ∧ (t.cls.get p).buckle = .unknown ∧ (t.cls.get p).band = 0 ∧ (t.cls.get p).sampled = false
        ∧ (t.load.get p).phase = .stopped)
    ∧ (∀ p, remHeld t p = true → t.rem.get p = ⟨.off, none, none, 0, false, false⟩)
    ∧ (∀ p, remHeld t p = false → t.rem.get p = ladderStep ⟨.off, none, none, 0, false, false⟩ (startResult t p)
        (escalateResult t p) (startDelay t p) (episodeLimit t) (audibleTime t))
    ∧ (TagsInv s.child → t.child.entries = s.child.entries.map (fun e =>
        if e.state = .provisional ∧ (t.row e.pos.row).state = .absent then { e with state := .missing } else e))
    ∧ (s.body.queue = [] → kindClass s.settings.active 6 = 1 → TagsInv s.child →
        ∀ e ∈ s.child.entries, e.state = .provisional → (t.row e.pos.row).state = .absent →
          Waits t.body ⟨.childSeatMissing, .position e.pos, BitVec.ofNat 8 e.pos.num, 0, 4, some e.tag⟩)
    ∧ (∀ p, coilFitted s p = true → (t.coil p).urgent = true)
    ∧ ChangesOnly [.monitor, .line, .load, .child, .cls, .pub, .rem, .cadence, .body] s t

/-! ### The row line and the rows -/

/-- Each expiry of the slot timer advances the pointer, restarts the timer with the period of the device state and takes
the slot it then points to. The slot carries what the named row's state calls for: READ_ID in PROBING with the settle
expired, the check walk's exchange in CHECKING, SAMPLE in ONLINE, and none otherwise. An exchange still on the line is first
ended as a TIMEOUT, as at the end of its response window (R20, R22, R24, R27, R29, R37). The read number that a SAMPLE poll
without a tag start carries, 0, is the model's choice (assumption 48). -/
def Obligations.SlotIsTaken : Prop :=
  (∀ (s : State) (n : Nat) (x : Exchange), s.line.timer = .running n → s.line.exchange = some x →
    ∃ s1, exec .responseWindowExpiry s = .next s1 ∧ s1.line.exchange = none ∧ s1.line.timer = .running n
    ∧ s1.line.pointer = s.line.pointer ∧ exec .slotTimerExpiry s = exec .slotTimerExpiry s1)
  ∧ ∀ (s : State) (n : Nat), s.line.timer = .running n → s.line.exchange = none →
    ∃ t, exec .slotTimerExpiry s = .next t
    ∧ t.line.pointer = s.line.pointer + 1
    ∧ t.line.timer = .running (if s.monitor.device = .rest then 8 else 1)
    ∧ ChangesOnly [.line, .child] s t
    ∧ (slotRow s.settings.active (s.line.pointer + 1).toNat = none →
        t.line.exchange = none ∧ t.line.rows = s.line.rows ∧ t.child = s.child)
    ∧ (∀ r, slotRow s.settings.active (s.line.pointer + 1).toNat = some r →
        (∀ q, q ≠ r → t.row q = s.row q)
        ∧ (rowFitted s r = false ∨ (s.row r).state = .absent ∨ (s.row r).state = .recovering
            ∨ (s.row r).state = .failed ∨ ((s.row r).state = .probing ∧ (s.row r).settle ≠ .expired) →
          t.line.exchange = none ∧ t.row r = s.row r ∧ t.child = s.child)
        ∧ (rowFitted s r = true → (s.row r).state = .probing → (s.row r).settle = .expired →
          t.line.exchange = some (polled s r .readId) ∧ t.child = s.child
          ∧ t.row r = { s.row r with sequence := (s.row r).sequence + 1 })
        ∧ (rowFitted s r = true → (s.row r).state = .checking →
          t.line.exchange = some (polled s r (walkPoll s.settings.active (s.row r).walk)) ∧ t.child = s.child
          ∧ t.row r = { s.row r with sequence := (s.row r).sequence + 1 })
        ∧ (rowFitted s r = true → (s.row r).state = .online →
          (∃ start, t.line.exchange = some (polled s r (.sample start)))
          ∧ (t.row r).sequence = (s.row r).sequence + 1 ∧ (t.row r).state = .online))

/-- A SAMPLE slot of a row without a tag read in flight starts a read at the lowest-numbered position with an urgent
request, else at the due position whose scan timer expired first (the lower-numbered of two at one millisecond), else
none. At the naming the urgent request and the due mark clear, the scan timer restarts and the 200 ms tag read timer
runs. With a read in flight no start is sent (R37, R62, R64). The read number of a poll without a start, 0, is the model's
choice (assumption 48). -/
def Obligations.TagStartIsNamed : Prop :=
  ∀ (s : State) (n : Nat) (r : Row), s.line.timer = .running n → s.line.exchange = none →
    slotRow s.settings.active (s.line.pointer + 1).toNat = some r → rowFitted s r = true →
    (s.row r).state = .online →
    ∃ t, exec .slotTimerExpiry s = .next t
    ∧ ((s.row r).tagRead.isSome = true →
        t.line.exchange = some (polled s r (.sample none)) ∧ t.child = s.child
        ∧ (t.row r).tagRead = (s.row r).tagRead)
    ∧ ((s.row r).tagRead = none →
        (∀ p, p.row = r → coilFitted s p = true →
          (((s.coil p).urgent = true
              ∧ ∀ q, q.row = r → coilFitted s q = true → (s.coil q).urgent = true → p.num ≤ q.num)
            ∨ ((∀ q, q.row = r → coilFitted s q = true → (s.coil q).urgent = false)
              ∧ ∃ m, (s.coil p).due = some m ∧ ∀ q k, q.row = r → coilFitted s q = true → (s.coil q).due = some k →
                m < k ∨ (m = k ∧ p.num ≤ q.num))) →
          t.line.exchange = some (polled s r (.sample (some (p.seat, (s.row r).tagCounter + 1))))
          ∧ (t.row r).tagRead = some ⟨p.seat, (s.row r).tagCounter + 1, false⟩
          ∧ (t.row r).tagCounter = (s.row r).tagCounter + 1
          ∧ t.coil p = { s.coil p with urgent := false, due := none, scan := some (scanInterval s) }
          ∧ (∀ q, q ≠ p → t.coil q = s.coil q)
          ∧ t.child.tagTimers.get r = some 200 ∧ (∀ q, q ≠ r → t.child.tagTimers.get q = s.child.tagTimers.get q)
          ∧ t.child.entries = s.child.entries)
        ∧ ((∀ q, q.row = r → coilFitted s q = true → (s.coil q).urgent = false ∧ (s.coil q).due = none) →
          t.line.exchange = some (polled s r (.sample none)) ∧ t.child = s.child))

/-- A failed SAMPLE exchange (TIMEOUT, or an answer judged CRC_ERROR or MISMATCH) of an ONLINE row adds 4 to the score.
Below 32 nothing else of the rows moves and no load, class, evidence or published record changes. At 32 or more the row
leaves ONLINE: to FAILED when its recovery count reaches 3, to RECOVERING with the 50 ms power-off otherwise (R32, R33, R34,
R35, R40). Then the load states of its fitted positions stop, their buckles become UNKNOWN, their records settle at the row's
reason or a higher one and are published while the lock is not held (R59, R98, R90, R104); the contests at its positions
clear, an entry standing there moves to the lowest-numbered other position contested by its tag, and stays where no other
is (R80); an URGENT ROW_CHANGE, and for FAILED an URGENT FAULT naming seat 1, enter a queue with room (R36). -/
def Obligations.SampleExchangeFails : Prop :=
  ∀ (s : State) (x : Exchange) (c : Instr), s.line.exchange = some x → x.kind = .sample →
    (s.row x.row).state = .online → FailsExchange s x c →
    ((s.row x.row).score + 4 < 32 → PublicationInv s → ∃ t, exec c s = .next t
      ∧ t.line = { s.line with
          exchange := none, rows := s.line.rows.modify x.row (fun y => { y with score := y.score + 4 }) }
      ∧ ChangesOnly [.line, .cadence, .body] s t)
    ∧ (32 ≤ (s.row x.row).score + 4 → ∃ t, exec c s = .next t
      ∧ t.line.exchange = none ∧ (t.row x.row).rpwr = false ∧ (t.row x.row).score = 0
      ∧ (t.row x.row).identity = none ∧ (∀ k, (t.row x.row).latch.get k = none) ∧ (t.row x.row).tagRead = none
      ∧ ((s.row x.row).recovery + 1 < 3 → (t.row x.row).state = .recovering ∧ (t.row x.row).cause = .errorScore
        ∧ (t.row x.row).powerOff = some 50 ∧ (t.row x.row).recovery = (s.row x.row).recovery + 1)
      ∧ (3 ≤ (s.row x.row).recovery + 1 → (t.row x.row).state = .failed
        ∧ (t.row x.row).cause = .recoveryExhausted ∧ (t.row x.row).recovery = 3)
      ∧ (∀ q, q ≠ x.row → t.row q = s.row q)
      ∧ (∀ p, p.row = x.row → (t.coil p).contest = none ∧ (t.coil p).scan = none ∧ (t.coil p).faults = 0)
      ∧ (∀ p, p.row = x.row → posFitted s p = true →
          t.load.get p = { s.load.get p with
            phase := .stopped, age := 0, ageMode := .stopped, cellFaults := false, stale := false }
          ∧ (t.cls.get p).buckle = .unknown ∧ (t.cls.get p).prevBuckle = none ∧ (t.cls.get p).sampled = false
          ∧ (awake s = true →
            (t.cls.get p).settled = (if (t.row x.row).state = .failed ∧ startRecord t p = .indeterminate .rowStarting
              then .indeterminate .rowFailed else startRecord t p)
            ∧ (s.pub.locked = false → t.pub.table.get p = (t.cls.get p).settled)))
      ∧ (∀ p, p.row ≠ x.row → t.load.get p = s.load.get p)
      ∧ (ListInv s.child → ∀ e ∈ s.child.entries, e.state ≠ .missing → e.pos.row = x.row →
          ((∀ q, ¬ LowestContest s x.row e.tag q) → e ∈ t.child.entries)
          ∧ (∀ q, LowestContest s x.row e.tag q →
            { e with state := .present, pos := q, confirmed := s.monitor.seconds } ∈ t.child.entries
            ∧ (t.coil q).contest = none))
      ∧ (s.body.queue.length < 23 → kindClass s.settings.active 7 = 1 → kindClass s.settings.active 8 = 1 →
          let new : Byte := if 3 ≤ (s.row x.row).recovery + 1 then 5 else 4
          let cause : Byte := if 3 ≤ (s.row x.row).recovery + 1 then 7 else 6
          Waits t.body ⟨.rowChange, .row x.row, 3, new, cause, none⟩
          ∧ (3 ≤ (s.row x.row).recovery + 1 → Waits t.body ⟨.fault, .position ⟨x.row, .s1⟩, 3, 5, 7, none⟩))
      ∧ ChangesOnly [.monitor, .line, .load, .child, .cls, .pub, .rem, .cadence, .body] s t)

/-- A READ_ID exchange of a PROBING row: GOOD stores the identity and takes the row to CHECKING at entry 0, phase READ (for
a table with entries), and on to ONLINE at once, with its positions prepared and a ROW_CHANGE of cause CHECK_PASSED in a queue
with room, for an empty table; a failure (TIMEOUT, CRC_ERROR or MISMATCH) adds one to the count, and the 16th in a row sends the row
to RECOVERING with cause PROBE_EXHAUSTED, or to FAILED when its recovery count reaches 3 (R12, R20, R27, R31, R33, R36). -/
def Obligations.ReadIdOutcomes : Prop :=
  ∀ (s : State) (x : Exchange), s.line.exchange = some x → x.kind = .readId → (s.row x.row).state = .probing →
    (∀ b, judgeAnswer s x b = .good → 0 < checkCount s.settings.active → ∃ t, exec (.readIdAnswer b) s = .next t
      ∧ t.line.exchange = none
      ∧ t.row x.row = { s.row x.row with
          state := .checking, idFailures := 0, walk := ⟨0, .read, 0⟩
          identity := some ⟨answerByte b 2, answerByte b 3,
            answerByte b 4 ++ answerByte b 5 ++ answerByte b 6 ++ answerByte b 7⟩ }
      ∧ (∀ q, q ≠ x.row → t.row q = s.row q)
      ∧ ChangesOnly [.monitor, .line, .cls, .pub, .rem, .cadence, .body] s t)
    ∧ (∀ b, judgeAnswer s x b = .good → checkCount s.settings.active = 0 → ∃ t, exec (.readIdAnswer b) s = .next t
      ∧ t.line.exchange = none ∧ EntersOnline s t x.row ∧ (t.row x.row).idFailures = 0
      ∧ (t.row x.row).identity = some ⟨answerByte b 2, answerByte b 3,
          answerByte b 4 ++ answerByte b 5 ++ answerByte b 6 ++ answerByte b 7⟩
      ∧ (s.body.queue.length < 24 → kindClass s.settings.active 7 = 1 →
          Waits t.body ⟨.rowChange, .row x.row, 2, 3, 3, none⟩)
      ∧ (∀ q, q ≠ x.row → t.row q = s.row q)
      ∧ ChangesOnly [.monitor, .line, .load, .child, .cls, .pub, .rem, .cadence, .body] s t)
    ∧ (∀ c, FailsExchange s x c → (s.row x.row).idFailures + 1 < 16 → ∃ t, exec c s = .next t
      ∧ t.line.exchange = none
      ∧ t.row x.row = { s.row x.row with idFailures := (s.row x.row).idFailures + 1 }
      ∧ (∀ q, q ≠ x.row → t.row q = s.row q)
      ∧ ChangesOnly [.monitor, .line, .pub, .rem, .cadence, .body] s t)
    ∧ (∀ c, FailsExchange s x c → 16 ≤ (s.row x.row).idFailures + 1 → ∃ t, exec c s = .next t
      ∧ t.line.exchange = none ∧ (t.row x.row).rpwr = false
      ∧ ((s.row x.row).recovery + 1 < 3 → (t.row x.row).state = .recovering ∧ (t.row x.row).cause = .probeExhausted
        ∧ (t.row x.row).idFailures = 0 ∧ (t.row x.row).powerOff = some 50
        ∧ (t.row x.row).recovery = (s.row x.row).recovery + 1)
      ∧ (3 ≤ (s.row x.row).recovery + 1 → (t.row x.row).state = .failed
        ∧ (t.row x.row).cause = .recoveryExhausted ∧ (t.row x.row).recovery = 3)
      ∧ (∀ q, q ≠ x.row → t.row q = s.row q)
      ∧ ChangesOnly [.monitor, .line, .child, .cls, .pub, .rem, .cadence, .body] s t)

/-- The check walk of a CHECKING row. By a GOOD answer: an entry that passes leads to the next entry or, after the last, to
ONLINE with score 0, the 10 s stability timer, its positions prepared (R12, R59, R62, R63) and a ROW_CHANGE with cause
CHECK_PASSED in a queue with room (R36); one that fails leads from READ to WRITE when it has a write value, and else is a
failed attempt; a GOOD WRITE_REG leads to REREAD. A failed exchange (TIMEOUT, CRC_ERROR or MISMATCH) is a failed attempt too. A
failed attempt is counted: below 3 the walk restarts, and at 3 the row goes to RECOVERING with cause CHECK_EXHAUSTED, or to
FAILED. The outcome of an exchange that a replaced table detached, GOOD or failed, moves nothing of the rows (R20, R28 to R31,
R33, R35). That a row which fails keeps the count of 3 is the model's reading (assumption 27). -/
def Obligations.CheckWalkMoves : Prop :=
  ∀ (s : State) (x : Exchange), s.line.exchange = some x → (s.row x.row).state = .checking →
    let g := s.settings.active
    let w := (s.row x.row).walk
    let passes := fun (b : List Byte) => (parseRegister b &&& checkMask g w.entry) = checkExpected g w.entry
    let walkTo := fun (w' : Walk) (t : State) => t.line.exchange = none
      ∧ t.row x.row = { s.row x.row with walk := w' } ∧ ∀ q, q ≠ x.row → t.row q = s.row q
    let attempt := fun (t : State) =>
      (w.attempts + 1 < 3 → walkTo ⟨0, .read, w.attempts + 1⟩ t)
      ∧ (3 ≤ w.attempts + 1 → (s.row x.row).recovery + 1 < 3 →
          (t.row x.row).state = .recovering ∧ (t.row x.row).cause = .checkExhausted
          ∧ (t.row x.row).walk = ⟨0, .read, 0⟩ ∧ (t.row x.row).powerOff = some 50)
      ∧ (3 ≤ w.attempts + 1 → 3 ≤ (s.row x.row).recovery + 1 →
          (t.row x.row).state = .failed ∧ (t.row x.row).cause = .recoveryExhausted ∧ (t.row x.row).walk.attempts = 3)
      ∧ ∀ q, q ≠ x.row → t.row q = s.row q
    (∀ b, x.detached = false → judgeAnswer s x b = .good →
      (x.kind = .readReg → w.phase ≠ .write → ∃ t, exec (.readRegAnswer b) s = .next t
        ∧ (passes b → w.entry + 1 < checkCount g → walkTo ⟨w.entry + 1, .read, w.attempts⟩ t)
        ∧ (passes b → checkCount g ≤ w.entry + 1 → EntersOnline s t x.row
            ∧ t.child.entries = s.child.entries
            ∧ (∀ p, p.row ≠ x.row → t.load.get p = s.load.get p ∧ t.coil p = s.coil p)
            ∧ (s.body.queue.length < 24 → kindClass g 7 = 1 →
              Waits t.body ⟨.rowChange, .row x.row, 2, 3, 3, none⟩))
        ∧ (¬ passes b → w.phase = .read → checkHasWrite g w.entry = true → walkTo ⟨w.entry, .write, w.attempts⟩ t)
        ∧ (¬ passes b → (w.phase = .reread ∨ checkHasWrite g w.entry = false) → attempt t)
        ∧ (∀ q, q ≠ x.row → t.row q = s.row q)
        ∧ ChangesOnly [.monitor, .line, .load, .child, .cls, .pub, .rem, .cadence, .body] s t)
      ∧ (x.kind = .writeReg → w.phase = .write → ∃ t, exec (.writeRegAnswer b) s = .next t
        ∧ walkTo ⟨w.entry, .reread, w.attempts⟩ t
        ∧ ChangesOnly [.monitor, .line, .pub, .rem, .cadence, .body] s t))
    ∧ (∀ b, x.detached = true → judgeAnswer s x b = .good → (x.kind = .readReg ∨ x.kind = .writeReg) →
      ∃ t, exec (if x.kind = .readReg then .readRegAnswer b else .writeRegAnswer b) s = .next t
      ∧ t.line = { s.line with exchange := none }
      ∧ ChangesOnly [.monitor, .line, .pub, .rem, .cadence, .body] s t)
    ∧ (∀ c, (x.kind = .readReg ∨ x.kind = .writeReg) → FailsExchange s x c → ∃ t, exec c s = .next t
      ∧ (x.detached = false → attempt t)
      ∧ (x.detached = true → t.line = { s.line with exchange := none })
      ∧ ChangesOnly [.monitor, .line, .child, .cls, .pub, .rem, .cadence, .body] s t)

/-- A GOOD SAMPLE of an ONLINE row takes 1 from the score, writes the three latches, and is evaluated for each fitted
position of the row. Fewer than three faulted cells: each cell gives (code − offset, not below 0) × gain / 256, at most 2047,
0 where it is faulted; W is their sum, C the tension code × k / 64 where a tension sensor is declared and 0 otherwise, E is
W − C and not below 0, F is E at a first sample and moves by the filter otherwise, the footprint counts the unfaulted cells
that reach the cell threshold, and the band follows F. Three or more leave them and set CELL_FAULTS. The age restarts and
STALE_SAMPLES clears in both cases (R32, R39, R47 to R53, R87, R88). The buckle and the anchors are debounced over two equal
readings (R68, R97). In RUN and REST the candidate is the record of R90's table and settles by the dwell, and while the lock
is not held the settled record is the published one (R90, R94 to R96, R104). Load states elsewhere stay. A DONE with the seat
and the number of the row's read in flight clears the read and stops its timer, and leaves the list, the contests, the FAULT
counts and the UNKNOWN marks as its result does, unless the read is marked to be discarded (R15, R65, R67, R72, R74); any other
DONE, IDLE and BUSY leave them as they are (R65). Beside those of the result, each change of an anchor or of the band raises an
urgent request (R63). A position elsewhere whose evidence changed is evaluated (R71, R94). The model's own: the band is held
under a threshold set that is not valid (assumption 33), and a load setting written under POSITION_CONFIG_FAULT is used (41);
what the latch holds of the bits that R176 gives as zero (27); the orientation of a FOUND whose orientation byte is neither 0
nor 1 (3). -/
def Obligations.SampleIsDelivered : Prop :=
  ∀ (s : State) (x : Exchange) (b : List Byte), s.line.exchange = some x → x.kind = .sample →
    (s.row x.row).state = .online → judgeAnswer s x b = .good →
    ∃ t, exec (.sampleAnswer b) s = .next t
    ∧ t.line.exchange = none ∧ (t.row x.row).state = .online ∧ (t.row x.row).score = (s.row x.row).score - 1
    ∧ (∀ k, (t.row x.row).latch.get k = some (parseSeat b k))
    ∧ (∀ q, q ≠ x.row → t.row q = s.row q)
    ∧ (∀ p, posFitted s p = true → p.row = x.row →
        let part := parseSeat b p.seat
        let g := s.settings.active
        let l := s.load.get p
        let c := s.cls.get p
        let words := posWords g p
        let faulted := (part.cells.toList.filter (·.faulted)).length
        let w := part.cells.toList.zipIdx.map (fun (r, i) =>
          if r.faulted then 0 else min 2047 ((r.code.toNat - wordAt words i) * wordAt words (8 + i) / 256))
        let comp := if (wordAt words 19).testBit 0 then (part.tension.getD 0).toNat * wordAt words 16 / 64 else 0
        let engaged := fun (r : AnchorReading) => decide (r = .engaged) && (wordAt words 19).testBit 1
        (t.cls.get p).sampled = true ∧ (t.load.get p).age = 0 ∧ (t.load.get p).stale = false
        ∧ (t.load.get p).faultCount = faulted
        ∧ (3 ≤ faulted →
            (t.load.get p).cellFaults = true ∧ (t.load.get p).filtered = l.filtered
            ∧ (t.load.get p).total = l.total ∧ (t.load.get p).footprint = l.footprint
            ∧ (t.load.get p).phase = (if l.phase = .live then .awaiting else l.phase)
            ∧ (t.cls.get p).band = c.band)
        ∧ (faulted < 3 →
            (t.load.get p).cellFaults = false ∧ (t.load.get p).cells.toList = w ∧ (t.load.get p).total = w.sum
            ∧ (t.load.get p).compensation = comp
            ∧ (t.load.get p).effective = w.sum - comp ∧ (t.load.get p).phase = .live
            ∧ (t.load.get p).filtered
              = (if l.phase = .live then filterUpdate (wordAt words 17) l.filtered (w.sum - comp) else w.sum - comp)
            ∧ (t.load.get p).footprint
              = ((part.cells.toList.zip w).filter (fun u => !u.1.faulted && decide (wordAt words 18 ≤ u.2))).length
            ∧ (t.cls.get p).band = (if positionThresholdsValid g p = false then c.band
              else if l.phase = .live then moveBand (bandSet g p) (t.load.get p).filtered c.band
              else firstBand (bandSet g p) (t.load.get p).filtered))
        ∧ (t.cls.get p).buckle = (match part.buckle with
            | .fault => if 3 ≤ c.buckleFaults + 1 then .unknown else c.buckle
            | .latched => if c.prevBuckle = some .latched then .latched else c.buckle
            | .isOpen => if c.prevBuckle = some .isOpen then .isOpen else c.buckle)
        ∧ (t.cls.get p).prevBuckle = some part.buckle
        ∧ (t.cls.get p).buckleFaults = (if part.buckle = .fault then min 3 (c.buckleFaults + 1) else 0)
        ∧ (t.cls.get p).left = ⟨if c.left.previous = some (engaged part.leftAnchor) then engaged part.leftAnchor
            else c.left.engaged, some (engaged part.leftAnchor)⟩
        ∧ (t.cls.get p).right = ⟨if c.right.previous = some (engaged part.rightAnchor) then engaged part.rightAnchor
            else c.right.engaged, some (engaged part.rightAnchor)⟩
        ∧ (awake s = true →
            (t.cls.get p).previous = some (tableRecord t p)
            ∧ (t.cls.get p).settled = (c.settle (tableRecord t p) (decide (faulted < 3)) (dwellLimit g p)).settled
            ∧ (t.cls.get p).dwell = (c.settle (tableRecord t p) (decide (faulted < 3)) (dwellLimit g p)).dwell
            ∧ (s.pub.locked = false → t.pub.table.get p = (t.cls.get p).settled)))
    ∧ (∀ p, posFitted s p = false ∨ p.row ≠ x.row → t.load.get p = s.load.get p)
    ∧ (let tags := fun (u : State) => t.child.entries = u.child.entries
          ∧ (∀ p, t.coil p = { u.coil p with urgent := (u.coil p).urgent || (coilFitted s p &&
            (decide ((t.cls.get p).band ≠ (s.cls.get p).band)
              || decide ((t.cls.get p).left.engaged ≠ (s.cls.get p).left.engaged)
              || decide ((t.cls.get p).right.engaged ≠ (s.cls.get p).right.engaged))) })
          ∧ (u.body.queue.length ≤ 15 → ∀ e ∈ u.body.queue, e.urgent = true → Waits t.body e.notice)
        let keeps := (t.row x.row).tagRead = (s.row x.row).tagRead ∧ t.child.tagTimers = s.child.tagTimers ∧ tags s
        (∀ y k n res, (s.row x.row).tagRead = some y → parseTagStatus b = .done k n res →
          (k = y.seat.num → n = y.number → (t.row x.row).tagRead = none
            ∧ t.child.tagTimers = s.child.tagTimers.modify x.row (fun _ => none)
            ∧ tags (if y.discard then s else takeResult ⟨x.row, y.seat⟩ res s))
          ∧ (k ≠ y.seat.num ∨ n ≠ y.number → keeps))
        ∧ ((s.row x.row).tagRead = none ∨ parseTagStatus b = .idle ∨ parseTagStatus b = .busy → keeps))
    ∧ (∀ p, p.row ≠ x.row → (t.cls.get p).band = (s.cls.get p).band ∧ (t.cls.get p).buckle = (s.cls.get p).buckle
        ∧ (evidence s p = evidence t p → t.cls.get p = s.cls.get p)
        ∧ (evidence s p ≠ evidence t p → posFitted s p = true → awake s = true →
            (t.cls.get p).previous = some (tableRecord t p)))
    ∧ ChangesOnly [.monitor, .line, .load, .child, .cls, .pub, .rem, .cadence, .body] s t

/-- At the expiry of the mating debounce the row enters PROBING with RPWR on and its 50 ms settle running, its fitted
positions settle at once at INDETERMINATE(ROW_STARTING) or the higher reason that holds and are published while the lock
is not held, and an URGENT ROW_CHANGE from ABSENT to PROBING with cause SENSE_MATED enters a queue that has room (R11,
R26, R36, R104). -/
def Obligations.RowArrives : Prop :=
  ∀ (s : State) (r : Row) (n : Nat), Watched s r → (s.row r).state = .absent → (s.row r).mating = some n →
    ∃ t, exec (.rowArrival r) s = .next t
    ∧ t.row r = { s.row r with
        state := .probing, rpwr := true, mating := none, settle := .running 50, powerOff := none }
    ∧ (∀ q, q ≠ r → t.row q = s.row q) ∧ t.line.exchange = s.line.exchange
    ∧ (∀ p, p.row = r → posFitted s p = true → (t.cls.get p).settled = startRecord t p
        ∧ (s.pub.locked = false → t.pub.table.get p = startRecord t p)
        ∧ (s.pub.locked = true → t.pub.table.get p = s.pub.table.get p))
    ∧ (s.body.queue.length < 24 → kindClass s.settings.active 7 = 1 →
        ∃ e ∈ t.body.queue, e.urgent = true ∧ e.notice = ⟨.rowChange, .row r, 0, 1, 1, none⟩)
    ∧ ChangesOnly [.monitor, .line, .cls, .pub, .rem, .cadence, .body] s t

/-- The sense input of a row in any state but ABSENT reads unmated: the row becomes ABSENT with RPWR off, its timers
stopped, its score and recovery count 0 and its tag read abandoned, an exchange with it is discarded, and its fitted
positions become NOT_INSTALLED with reminders OFF, buckles UNKNOWN, anchors OPEN and load states stopped. Each entry
standing there moves to the lowest-numbered position outside the row that its tag contests, and becomes MISSING where there
is none; an URGENT ROW_CHANGE to ABSENT enters a queue with room (R13, R36, R73, R80, R133). -/
def Obligations.RowIsRemoved : Prop :=
  ∀ (s : State) (r : Row), Watched s r → (s.row r).state ≠ .absent →
    ∃ t, exec (.rowRemoval r) s = .next t
    ∧ t.pins = { s.pins with sense := s.pins.sense.modify r (fun _ => false) }
    ∧ t.row r = { s.row r with
        state := .absent, rpwr := false, mating := none, settle := .stopped, powerOff := none, score := 0
        stability := none, recovery := 0, identity := none, latch := PerSeat.all none, tagRead := none }
    ∧ (∀ q, q ≠ r → t.row q = s.row q)
    ∧ (t.line.exchange = match s.line.exchange with
        | some x => if x.row = r then none else some x
        | none => none)
    ∧ (∀ p, p.row = r → posFitted s p = true →
        (t.cls.get p).settled = .notInstalled ∧ (t.cls.get p).buckle = .unknown
        ∧ (t.cls.get p).left.engaged = false ∧ (t.cls.get p).right.engaged = false
        ∧ (t.rem.get p).state = .off ∧ (t.rem.get p).delay = none ∧ (t.rem.get p).audible = none
        ∧ (t.load.get p).phase = .stopped ∧ (t.load.get p).ageMode = .stopped
        ∧ (s.pub.locked = false → t.pub.table.get p = .notInstalled)
        ∧ (s.pub.locked = true → t.pub.table.get p = s.pub.table.get p))
    ∧ (∀ p, p.row = r → (t.coil p).contest = none ∧ (t.coil p).scan = none ∧ (t.coil p).faults = 0)
    ∧ (ListInv s.child → ∀ e ∈ s.child.entries, e.state ≠ .missing → e.pos.row = r →
        ((∀ q, ¬ LowestContest s r e.tag q) → { e with state := .missing } ∈ t.child.entries)
        ∧ (∀ q, LowestContest s r e.tag q →
          { e with state := .present, pos := q, confirmed := s.monitor.seconds } ∈ t.child.entries
          ∧ (t.coil q).contest = none))
    ∧ (s.body.queue.length < 24 → kindClass s.settings.active 7 = 1 →
        Waits t.body ⟨.rowChange, .row r, BitVec.ofNat 8 (rowStateCode (s.row r).state), 0, 2, none⟩)
    ∧ ChangesOnly [.pins, .monitor, .line, .load, .child, .cls, .pub, .rem, .cadence, .body] s t

/-- The expiry of a row's power settle: in PROBING with a slot it is marked expired with the READ_ID failure count 0; in
PROBING without a slot the row enters FAILED with cause NO_SLOT and its recovery count unchanged; in RECOVERING the row
enters PROBING with its settle served (R26, R34, R35). -/
def Obligations.PowerSettleExpires : Prop :=
  ∀ (s : State) (r : Row) (n : Nat), (s.row r).settle = .running n →
    ((s.row r).state = .probing → hasSlot s.settings.active r = true →
      exec (.powerSettleExpiry r) s = .next { s with
        line := { s.line with rows := s.line.rows.modify r (fun x => { x with settle := .expired, idFailures := 0 }) } })
    ∧ ((s.row r).state = .probing → hasSlot s.settings.active r = false →
      ∃ t, exec (.powerSettleExpiry r) s = .next t
      ∧ (t.row r).state = .failed ∧ (t.row r).cause = .noSlot ∧ (t.row r).rpwr = false
      ∧ (t.row r).recovery = (s.row r).recovery ∧ (∀ q, q ≠ r → t.row q = s.row q)
      ∧ ChangesOnly [.monitor, .line, .load, .child, .cls, .pub, .rem, .cadence, .body] s t)
    ∧ ((s.row r).state = .recovering →
      ∃ t, exec (.powerSettleExpiry r) s = .next t
      ∧ t.row r = { s.row r with state := .probing, settle := .expired } ∧ (∀ q, q ≠ r → t.row q = s.row q)
      ∧ ChangesOnly [.monitor, .line, .cls, .pub, .rem, .cadence, .body] s t)

/-- Four timers act on one record alone. At the sense input of a fitted ABSENT row 2 to 5 a change to mated starts the
100 ms mating debounce from zero and a change to unmated stops it (R11). The power-off timer of a RECOVERING row switches
RPWR on and starts the settle; the stability timer of a row outside HOLD clears its recovery count, and during HOLD it does
not act (R31, R34); a position's scan timer makes it due at the moment recorded and does not restart (R62). That the expiry of
the stability timer has no effect during HOLD is the model's choice (assumption 19). -/
def Obligations.TimersActAlone : Prop :=
  ∀ (s : State) (r : Row) (p : Pos) (n moment : Nat),
    ((s.row r).state = .recovering → (s.row r).powerOff = some n →
      exec (.powerOffTimerExpiry r) s = .next { s with line := { s.line with
        rows := s.line.rows.modify r (fun x => { x with powerOff := none, rpwr := true, settle := .running 50 }) } })
    ∧ ((s.row r).stability = some n → s.monitor.hold = false →
      exec (.onlineStabilityTimerExpiry r) s = .next { s with line := { s.line with
        rows := s.line.rows.modify r (fun x => { x with stability := none, recovery := 0 }) } })
    ∧ (s.monitor.hold = true → exec (.onlineStabilityTimerExpiry r) s = .next s)
    ∧ ((s.coil p).scan = some n →
      exec (.scanTimerExpiry p moment) s = .next { s with child := { s.child with
        coils := s.child.coils.modify p (fun c => { c with scan := none, due := some moment }) } })
    ∧ (Watched s r → (s.row r).state = .absent →
      exec (.senseMated r) s = .next { s with
        pins := { s.pins with sense := s.pins.sense.modify r (fun _ => true) }
        line := { s.line with rows := s.line.rows.modify r (fun x => { x with mating := some 100 }) } }
      ∧ exec (.matingDebounceStop r) s = .next { s with
        pins := { s.pins with sense := s.pins.sense.modify r (fun _ => false) }
        line := { s.line with rows := s.line.rows.modify r (fun x => { x with mating := none }) } })

/-! ### Positions: age, tag reads, bands, dwell -/

/-- When the running age of a fitted position becomes greater than its limit, STALE_SAMPLES is set and a LIVE phase becomes
AWAITING; where no higher reason holds, the position settles at INDETERMINATE(STALE_SAMPLES) at once and, while the lock
is not held, is published so (R56, R90, R96, R104). That the age is then at least one above the limit is the model's reading
(assumption 23). -/
def Obligations.PositionGoesStale : Prop :=
  ∀ (s : State) (p : Pos), posFitted s p = true → (s.load.get p).ageMode = .running → (s.load.get p).stale = false →
    ∃ t, exec (.positionBecomesStale p) s = .next t
    ∧ t.load.get p = { s.load.get p with
        stale := true, age := max (s.load.get p).age (staleLimit s p + 1)
        phase := if (s.load.get p).phase = .live then .awaiting else (s.load.get p).phase }
    ∧ (∀ q, q ≠ p → t.load.get q = s.load.get q ∧ t.cls.get q = s.cls.get q)
    ∧ (awake s = true → (s.row p.row).state = .online → (s.cls.get p).sampled = true → s.straps.var.toNat < 6 →
        s.settings.posFault.get p = false → s.settings.uncalibrated.get p = false →
        (t.cls.get p).settled = .indeterminate .staleSamples
        ∧ (s.pub.locked = false → t.pub.table.get p = .indeterminate .staleSamples))
    ∧ ChangesOnly [.monitor, .load, .cls, .pub, .rem, .cadence, .body] s t

/-- The 200 ms tag read timer completes the read in flight with FAULT: the read clears, the position's FAULT count rises up
to 3, at 3 its evidence is UNKNOWN, and the list, the contests and every other position's evidence stand (R65, R67). The result
of a read marked to be discarded moves nothing (R15). -/
def Obligations.TagReadTimesOut : Prop :=
  ∀ (s : State) (r : Row) (x : TagRead) (n : Nat), (s.row r).tagRead = some x → s.child.tagTimers.get r = some n →
    ∃ t, exec (.tagReadTimerExpiry r) s = .next t
    ∧ t.row r = { s.row r with tagRead := none } ∧ (∀ q, q ≠ r → t.row q = s.row q)
    ∧ t.child.tagTimers.get r = none ∧ t.child.entries = s.child.entries
    ∧ (x.discard = false → t.coil ⟨r, x.seat⟩ = { s.coil ⟨r, x.seat⟩ with
        faults := min 3 ((s.coil ⟨r, x.seat⟩).faults + 1)
        unknown := (s.coil ⟨r, x.seat⟩).unknown || decide (3 ≤ (s.coil ⟨r, x.seat⟩).faults + 1) })
    ∧ (x.discard = true → t.coil ⟨r, x.seat⟩ = s.coil ⟨r, x.seat⟩)
    ∧ (∀ p, p ≠ ⟨r, x.seat⟩ → t.coil p = s.coil p)
    ∧ ChangesOnly [.monitor, .line, .child, .cls, .pub, .rem, .cadence, .body] s t

/-- The result of a completed read at p: FAULT moves the count and the UNKNOWN mark alone; NONE and FOUND X first clear both
(R67), and before a FOUND X a contest at p by another tag clears, while one by X stays and, where X stands elsewhere, raises an
urgent request there (R72). The cases of a FOUND X at p (R74 to R77), for a list in which each tag has one entry. X standing at p is confirmed.
X standing elsewhere as PRESENT in an ONLINE row marks p contested and asks for an urgent scan where it stands; standing
elsewhere as PROVISIONAL, or as PRESENT in a row that is not ONLINE, it moves to p and every contest naming it clears. X
MISSING returns at p in its place; X absent is appended, after the oldest MISSING entry was evicted from a list of 16. An entry
Y standing at p first gives way: it moves to the position its tag contests, or becomes MISSING. NONE at p clears the contest
there, and an entry standing there moves or becomes MISSING (R72, R73, R78). The notices are those of R79, in that order. That
a displaced entry's own move carries cause ABSENCE_CONFIRMED is the model's reading (assumption 22). -/
def Obligations.TagResultsActOnTheList : Prop :=
  ∀ (s : State) (p : Pos) (x : TagId) (o : Orientation), TagsInv s.child →
    let es := s.child.entries
    let now := s.monitor.seconds
    let num := fun (q : Pos) => (BitVec.ofNat 8 q.num : Byte)
    let new : Entry := ⟨x, o, .present, p, now, now⟩
    let confirmed := fun (e : Entry) => { e with state := .present, orient := o, pos := p, confirmed := now }
    let put := fun (e e' : Entry) (u : State) => { u with child := { u.child with
      entries := u.child.entries.map (fun d => if d = e then e' else d) } }
    let append := fun (u : State) => { u with child := { u.child with entries := u.child.entries ++ [new] } }
    let added := notify ⟨.childSeatAdded, .position p, 0, num p, 1, some x⟩
    let clear := fun (q : Pos) (u : State) => { u with child := { u.child with
      coils := u.child.coils.modify q (fun c => { c with contest := none }) } }
    let urgent := fun (q : Pos) (u : State) => if coilFitted u q then { u with child := { u.child with
      coils := u.child.coils.modify q (fun c => { c with urgent := true }) } } else u
    let found := { s with child := { s.child with
      coils := s.child.coils.modify p (fun c => { c with faults := 0, unknown := false }) } }
    let gone := fun (y : Entry) (cause : Byte) (u : State) =>
      notify ⟨.childSeatMissing, .position p, num p, 0, cause, some y.tag⟩ (put y { y with state := .missing } u)
    let moved := fun (y : Entry) (q : Pos) (u : State) =>
      notify ⟨.childSeatMoved, .position q, num p, num q, 6, some y.tag⟩
        (clear q (put y { y with state := .present, pos := q, confirmed := now } u))
    takeResult p .fault s = { s with child := { s.child with coils := s.child.coils.modify p (fun c =>
      { c with faults := min 3 (c.faults + 1), unknown := c.unknown || decide (3 ≤ c.faults + 1) }) } }
    ∧ takeResult p .nothing s = takeNone p found
    ∧ ((s.coil p).contest = none → takeResult p (.found x o) s = takeFound p x o found)
    ∧ (∀ y, (s.coil p).contest = some y → y ≠ x → takeResult p (.found x o) s = takeFound p x o (clear p found))
    ∧ ((s.coil p).contest = some x →
      (∀ e ∈ es, e.tag = x → e.state ≠ .missing → e.pos ≠ p →
        takeResult p (.found x o) s = takeFound p x o (urgent e.pos found))
      ∧ ((∀ e ∈ es, e.tag = x → e.state = .missing ∨ e.pos = p) →
        takeResult p (.found x o) s = takeFound p x o found))
    ∧ (∀ e ∈ es, e.tag = x → standsAt p e = true → takeFound p x o s = put e (confirmed e) s)
    ∧ (∀ e ∈ es, e.tag = x → e.state = .present → e.pos ≠ p → (s.row e.pos.row).state = .online →
      (takeFound p x o s).child.entries = es
      ∧ ((takeFound p x o s).coil p).contest = some x
      ∧ ((takeFound p x o s).coil e.pos).urgent = ((s.coil e.pos).urgent || coilFitted s e.pos)
      ∧ ChangesOnly [.child] s (takeFound p x o s))
    ∧ (∀ e ∈ es, e.tag = x → e.pos ≠ p → standing s p = none →
      e.state = .provisional ∨ (e.state = .present ∧ (s.row e.pos.row).state ≠ .online) →
      ∃ t, takeFound p x o s = notify ⟨.childSeatMoved, .position p, num e.pos, num p,
          if e.state = .provisional then 8 else 7, some x⟩ t
      ∧ t.child.entries = (put e (confirmed e) s).child.entries
      ∧ (∀ q, t.coil q = { s.coil q with contest := if (s.coil q).contest = some x then none else (s.coil q).contest })
      ∧ t.child.tagTimers = s.child.tagTimers ∧ ChangesOnly [.child] s t)
    ∧ (∀ e ∈ es, e.tag = x → e.state = .missing → standing s p = none →
      takeFound p x o s = added (put e (confirmed e) s))
    ∧ ((∀ e ∈ es, e.tag ≠ x) → es.length < 16 →
      (standing s p = none → takeFound p x o s = added (append s))
      ∧ (∀ y, standing s p = some y → (∀ q, (s.coil q).contest ≠ some y.tag) →
          takeFound p x o s = added (append (gone y 3 s)))
      ∧ (∀ y q, standing s p = some y → q ≠ p → standing s q = none → (∀ r, (s.coil r).contest = some y.tag ↔ r = q) →
          takeFound p x o s = added (append (moved y q s))))
    ∧ (∀ l e r, (∀ d ∈ es, d.tag ≠ x) → es.length = 16 → standing s p = none → es = l ++ e :: r → e.state = .missing →
      (∀ d ∈ l, d.state ≠ .missing) →
      takeFound p x o s = added { s with child := { s.child with entries := l ++ r ++ [new] } })
    ∧ (standing s p = none → takeNone p s = clear p s)
    ∧ (∀ y, standing s p = some y → (∀ q, q ≠ p → (s.coil q).contest ≠ some y.tag) →
        takeNone p s = gone y 2 (clear p s))
    ∧ (∀ y q, standing s p = some y → q ≠ p → standing s q = none →
        (∀ r, r ≠ p → ((s.coil r).contest = some y.tag ↔ r = q)) → takeNone p s = moved y q (clear p s))

/-- The band after an update (R87, R88), for a valid set. With F at the next climb point the band rises to the highest band
whose threshold F reaches; else with F below its drop point it falls to the first band whose drop point F reaches; else
it stays. A first sample takes the highest band whose threshold F reaches, whatever band was held. -/
def Obligations.BandsHoldTheLoad : Prop :=
  ∀ (b : BandSet) (f band : Nat), band ≤ 3 → thresholdsValid b.th1 b.th2 b.th3 b.h = true →
    moveBand b f band ≤ 3
    ∧ (band < 3 → b.th (band + 1) ≤ f → moveBand b f band = firstBand b f)
    ∧ ((band < 3 → f < b.th (band + 1)) → 0 < band → f < b.th band - b.h →
        moveBand b f band < band ∧ f < b.th (moveBand b f band + 1) - b.h
        ∧ (0 < moveBand b f band → b.th (moveBand b f band) - b.h ≤ f))
    ∧ ((band < 3 → f < b.th (band + 1)) → (0 < band → b.th band - b.h ≤ f) → moveBand b f band = band)
    ∧ firstBand b f ≤ 3
    ∧ (∀ k, 1 ≤ k → k ≤ 3 → (b.th k ≤ f ↔ k ≤ firstBand b f))

/-- The filter of R52: F moves by the gap divided by 2^s, truncated toward zero, and by 1 toward a gap that is not 0 where
the quotient is 0; every update leaves F between its old value and E, both included, and closer to E until it is E. -/
def Obligations.FilterStaysBetween : Prop :=
  ∀ (shift f e : Nat),
    ((filterUpdate shift f e : Nat) : Int) = f + (
      if ((e : Int) - f).tdiv (2 ^ shift) ≠ 0 then ((e : Int) - f).tdiv (2 ^ shift)
      else if f < e then 1 else if e < f then -1 else 0)
    ∧ (f ≤ e → f ≤ filterUpdate shift f e ∧ filterUpdate shift f e ≤ e)
    ∧ (e ≤ f → e ≤ filterUpdate shift f e ∧ filterUpdate shift f e ≤ f)
    ∧ (f ≠ e → filterUpdate shift f e ≠ f)
    ∧ filterUpdate 0 f e = e
    ∧ (f ≤ 16376 → e ≤ 16376 → filterUpdate shift f e ≤ 16376)

/-- The dwell law (R95, R96): an evaluation settles a candidate that is INDETERMINATE, NOT_INSTALLED or NOT_FITTED at once;
another candidate settles only at an F update that brings its count of consecutive updates to the position's dwell count,
and until then the settled record stands. -/
def Obligations.DwellSettles : Prop :=
  ∀ (c : ClassState) (cand : ClassRecord) (fUpdate : Bool) (limit : Nat), 1 ≤ limit →
    (c.settle cand fUpdate limit).previous = some cand
    ∧ (settlesAtOnce cand = true →
        (c.settle cand fUpdate limit).settled = cand ∧ (c.settle cand fUpdate limit).dwell = 0)
    ∧ (settlesAtOnce cand = false → cand ≠ c.settled →
        (fUpdate = false → (c.settle cand fUpdate limit).settled = c.settled
          ∧ (c.settle cand fUpdate limit).dwell = (if c.previous = some cand then c.dwell else 0))
        ∧ (fUpdate = true →
          let n := if c.previous = some cand ∧ 0 < c.dwell then c.dwell + 1 else 1
          (n < limit → (c.settle cand fUpdate limit).settled = c.settled ∧ (c.settle cand fUpdate limit).dwell = n)
          ∧ (limit ≤ n → (c.settle cand fUpdate limit).settled = cand ∧ (c.settle cand fUpdate limit).dwell = 0)))
    ∧ (settlesAtOnce cand = false → cand = c.settled →
        (c.settle cand fUpdate limit).settled = c.settled ∧ (c.settle cand fUpdate limit).dwell = 0)
    ∧ (c.settle cand fUpdate limit).buckle = c.buckle ∧ (c.settle cand fUpdate limit).band = c.band

/-- The debounced buckle of a position takes two equal readings in a row to change between LATCHED and OPEN, and the third
FAULT in a row makes it UNKNOWN (R97). A change restarts the rest timer in REST and makes a BUCKLE_CHANGE notice, which enters a
queue with room and no BUCKLE_CHANGE of the position to coalesce with (R98, R161, R171). Where it changes BUCKLE_OPEN of a
position that is not held, that position's lists are evaluated; a step from OFF to WAIT then takes the change-of-status delay
if the change was LATCHED to OPEN and ESCALATE was true before it, and the group's start delay otherwise (R119, R121, R123). No
other reminder moves. -/
def Obligations.BuckleChanges : Prop :=
  ∀ (s : State) (p : Pos) (reading : BuckleReading),
    let c := s.cls.get p
    let t := takeBuckle p reading s
    let old := c.buckle
    let new := (t.cls.get p).buckle
    t.cls.get p = { c with
      prevBuckle := some reading
      buckleFaults := if reading = .fault then min 3 (c.buckleFaults + 1) else 0
      buckle := match reading with
        | .fault => if 3 ≤ c.buckleFaults + 1 then .unknown else c.buckle
        | .latched => if c.prevBuckle = some .latched then .latched else c.buckle
        | .isOpen => if c.prevBuckle = some .isOpen then .isOpen else c.buckle }
    ∧ (∀ q, q ≠ p → t.cls.get q = s.cls.get q ∧ t.rem.get q = s.rem.get q)
    ∧ (old = new → t.monitor = s.monitor ∧ t.body = s.body)
    ∧ (old ≠ new → t.monitor = (restartRest s).monitor
      ∧ (s.body.queue.length + 2 ≤ 24 → NoneWaits s.body .buckleChange (.position p) →
        Waits t.body ⟨.buckleChange, .position p, BitVec.ofNat 8 (buckleCode old), BitVec.ofNat 8 (buckleCode new), 0, none⟩))
    ∧ (remHeld s p = true ∨ (old = .latched ↔ new = .latched) → t.rem = s.rem)
    ∧ (remHeld s p = false → ¬ (old = .latched ↔ new = .latched) → RemTimersInv (s.rem.get p) →
      t.rem.get p = ladderStep (s.rem.get p) (startResult t p) (escalateResult t p)
        (if old = .latched ∧ new = .isOpen ∧ (s.rem.get p).escalate = true then changeDelay s else startDelay s p)
        (episodeLimit s) (audibleTime s))
    ∧ ChangesOnly [.monitor, .cls, .rem, .body] s t

/-- The settled changes of one event reach the Publication Unit. While the lock is not held they are one batch: every
published record becomes its settled one, the epoch advances by one when a record changed and not otherwise, each changed
record makes a CLASS_CHANGE notice of the class that the map gives it, in a queue with room and no CLASS_CHANGE to coalesce
with, the rest timer restarts in REST, and the reminder of each position whose BELT_REQUIRED changed and which is not held acts
on its lists (R103 to R105, R118, R121 to R125, R171). While it is held only the pending marks move (R108). -/
def Obligations.BatchIsPublished : Prop :=
  (∀ s : State, s.pub.locked = false →
    let t := publish s
    let moved := allPos.filter (fun p => decide ((s.cls.get p).settled ≠ s.pub.table.get p))
    (∀ p, t.pub.table.get p = (s.cls.get p).settled)
    ∧ t.pub = { s.pub with table := t.pub.table, epoch := if moved = [] then s.pub.epoch else s.pub.epoch + 1 }
    ∧ t.monitor = (if moved = [] then s.monitor else (restartRest s).monitor)
    ∧ (moved = [] → t = s)
    ∧ (s.body.queue.length + 2 * moved.length ≤ 24 → (∀ q, NoneWaits s.body .classChange (.position q)) → ∀ p ∈ moved,
        let n : Notice := ⟨.classChange, .position p, BitVec.ofNat 8 (classCode (s.pub.table.get p)),
          BitVec.ofNat 8 (classCode (s.cls.get p).settled), BitVec.ofNat 8 (recordReason (s.cls.get p).settled), none⟩
        ∃ e ∈ t.body.queue, e.notice = n ∧ e.urgent = urgentByMap s.settings.active n)
    ∧ (∀ p, remHeld s p = true ∨ beltRequired t p = beltRequired s p → t.rem.get p = s.rem.get p)
    ∧ (∀ p, remHeld s p = false → beltRequired t p ≠ beltRequired s p → RemTimersInv (s.rem.get p) →
        t.rem.get p = ladderStep (s.rem.get p) (startResult t p) (escalateResult t p) (startDelay s p) (episodeLimit s)
          (audibleTime s))
    ∧ ChangesOnly [.monitor, .pub, .rem, .body] s t)
  ∧ ∀ s : State, s.pub.locked = true →
    (∀ p, (publish s).pub.marks.get p = decide ((s.cls.get p).settled ≠ s.pub.table.get p))
    ∧ publish s = { s with pub := { s.pub with marks := (publish s).pub.marks } }

/-! ### Reminders and outputs -/

/-- A position's delay timer expires in WAIT: it enters VISUAL, and AUDIBLE at once while ESCALATE holds and an episode is
left, with the count raised and the audible timer started (R124, R125). A position's audible timer expires in AUDIBLE: it
enters SILENCED (R126). No other position's reminder moves. Each entry to AUDIBLE and to SILENCED makes a REMINDER notice,
which enters a queue that has room and no REMINDER of the position to coalesce with (R135, R161). -/
def Obligations.ReminderTimersExpire : Prop :=
  ∀ (s : State) (p : Pos) (n : Nat),
    let room := s.body.queue.length < 24 ∧ NoneWaits s.body .reminder (.position p)
    ((s.rem.get p).state = .wait → (s.rem.get p).delay = some n →
      ∃ t, exec (.delayTimerExpiry p) s = .next t
      ∧ t.rem = s.rem.modify p (fun r =>
          if r.escalate = true ∧ r.episodes < episodeLimit s then
            { r with state := .audible, delay := none, audible := some (audibleTime s), episodes := r.episodes + 1 }
          else { r with state := .visual, delay := none })
      ∧ (room → (t.rem.get p).state = .audible →
          Waits t.body ⟨.reminder, .position p, 2, 3, BitVec.ofNat 8 (t.rem.get p).episodes, none⟩)
      ∧ (room → (t.rem.get p).state = .visual → NoneWaits t.body .reminder (.position p))
      ∧ t.cadence.copy.get p = (t.rem.get p).state
      ∧ ChangesOnly [.rem, .cadence, .body] s t)
    ∧ ((s.rem.get p).state = .audible → (s.rem.get p).audible = some n →
      ∃ t, exec (.audibleTimerExpiry p) s = .next t
      ∧ t.rem = s.rem.modify p (fun r => { r with state := .silenced, audible := none })
      ∧ (room → Waits t.body ⟨.reminder, .position p, 3, 4, 1, none⟩)
      ∧ t.cadence.copy.get p = .silenced
      ∧ ChangesOnly [.rem, .cadence, .body] s t)

/-- A REMINDER_ACK taken in RUN or REST silences each REAR position in AUDIBLE whose bit is set, and disregards every other
bit; it makes no reply. Each entry to SILENCED makes a REMINDER notice with reason ACKNOWLEDGED, which enters a queue that has
room and no REMINDER to coalesce with (R16, R126, R127, R135, R163). -/
def Obligations.AcknowledgementSilences : Prop :=
  ∀ (s : State) (mask : Word16), Running s → s.body.busOff = false →
    ∃ t, exec (.reminderAck mask) s = .next t
    ∧ (∀ p, t.rem.get p =
        (if mask.getLsbD (p.num - 1) = true ∧ 4 ≤ p.num ∧ (s.rem.get p).state = .audible then
          { s.rem.get p with state := .silenced, audible := none }
        else s.rem.get p))
    ∧ (∀ p, (s.rem.get p).state = .audible → (t.rem.get p).state = .silenced → s.body.queue.length ≤ 12 →
        (∀ q, NoneWaits s.body .reminder (.position q)) → Waits t.body ⟨.reminder, .position p, 3, 4, 2, none⟩)
    ∧ t.body.reply = s.body.reply ∧ t.body.heldReply = s.body.heldReply
    ∧ ChangesOnly [.rem, .cadence, .body] s t

/-- The period ends of the cadence timers (R137 to R141, R143, R146): a running chime timer reloads while the wanted profile
is the active one, and takes the cadence of the other profile when that is wanted; a running flash timer reloads; each
releases its release-pending output. The end of an on part turns the level OFF. -/
def Obligations.CadencePeriodsEnd : Prop :=
  ∀ s : State,
    (s.cadence.chime.running = true → wantedProfile s.cadence.copy ≠ .none →
      exec .chimePeriodEnd s = .next { s with cadence := { s.cadence with
        chime := if wantedProfile s.cadence.copy = s.cadence.active then { s.cadence.chime with unit := 0, sub := 0 }
          else if wantedProfile s.cadence.copy = .front then ⟨2, 250, 125, 0, 0, true⟩ else ⟨8, 150, 38, 0, 0, true⟩
        active := wantedProfile s.cadence.copy
        chimeGate := if s.cadence.chimeGate = .pending then .following else s.cadence.chimeGate } })
    ∧ (s.cadence.flash.running = true →
      exec .flashPeriodEnd s = .next { s with cadence := { s.cadence with
        flash := { s.cadence.flash with unit := 0, sub := 0 }
        telltaleGate := if s.cadence.telltaleGate = .pending then .following else s.cadence.telltaleGate } })
    ∧ (∀ id, ∃ t, exec (.cadenceOnPartEnd id) s = .next t
      ∧ ((match id with | .chime => t.cadence.chime | .flash => t.cadence.flash).onCount
          < (match id with | .chime => t.cadence.chime | .flash => t.cadence.flash).period →
        (match id with | .chime => t.cadence.chime | .flash => t.cadence.flash).level = false)
      ∧ t.cadence.copy = s.cadence.copy ∧ t.cadence.active = s.cadence.active
      ∧ t.cadence.chimeGate = s.cadence.chimeGate ∧ t.cadence.telltaleGate = s.cadence.telltaleGate
      ∧ ChangesOnly [.cadence] s t)

/-- OUTEN in RUN and REST (R144, R146): a deassertion takes both outputs to inactive with OUTCFG 0 and to high-impedance
with OUTCFG 1; an assertion with OUTCFG 0 drives both by their levels at once, with OUTCFG 1 it leaves an output whose
timer runs high-impedance until its release and drives the other. The timers count on. -/
def Obligations.OutenGatesTheOutputs : Prop :=
  ∀ s : State, awake s = true →
    (∃ t, exec .outenDeasserted s = .next t
      ∧ chimePin t = (if s.straps.outcfg then .highImpedance else .inactive)
      ∧ telltalePin t = (if s.straps.outcfg then .highImpedance else .inactive)
      ∧ t.pins.outen = false ∧ t.cadence.chime = s.cadence.chime ∧ t.cadence.flash = s.cadence.flash
      ∧ t.cadence.active = s.cadence.active ∧ t.cadence.copy = s.cadence.copy
      ∧ ChangesOnly [.pins, .cadence] s t)
    ∧ (s.pins.outen = false → ∃ t, exec .outenAsserted s = .next t
      ∧ chimePin t = (if s.straps.outcfg && s.cadence.chime.running then .highImpedance
          else if s.cadence.chime.level then .active else .inactive)
      ∧ telltalePin t = (if s.straps.outcfg && s.cadence.flash.running then .highImpedance
          else if telltaleLevel s.cadence then .active else .inactive)
      ∧ t.pins.outen = true ∧ t.cadence.chime = s.cadence.chime ∧ t.cadence.flash = s.cadence.flash
      ∧ t.cadence.active = s.cadence.active ∧ t.cadence.copy = s.cadence.copy
      ∧ ChangesOnly [.pins, .cadence] s t)

/-! ### The restraint port and the crash lock -/

/-- The payloads of NOP, GET_FRONT, GET_POSITION and GET_STATUS, field by field (R17, R151, R177), in a frame that is not the
one that woke the part (R153). The requests change nothing but the port and, in REST, the rest timer. -/
def Obligations.RestraintReadsAnswer : Prop :=
  ∀ (s : State) (arg : Byte), Running s → s.port.wakingFrame = false → s.port.ready = true →
    exec (.nop arg) s = .next (answered s 0x01 arg .ok
      (BitVec.ofNat 2 (deviceCode s.monitor.device) ++ BitVec.ofBool s.pub.locked
        ++ s.pub.epoch.setWidth 9 : BitVec 12))
    ∧ exec (.getFront arg) s = .next (answered s 0x02 arg .ok
      (BitVec.ofNat 4 (classCode (s.pub.table.get ⟨.r1, .s2⟩)) ++ BitVec.ofNat 4 (classCode (s.pub.table.get ⟨.r1, .s3⟩))
        ++ BitVec.ofBool s.pub.locked ++ s.pub.epoch.setWidth 3 : BitVec 12))
    ∧ (∀ p : Pos, arg.toNat = p.num → exec (.getPosition arg) s = .next (answered s 0x03 arg .ok
      (BitVec.ofNat 4 (classCode (s.pub.table.get p)) ++ BitVec.ofNat 4 (recordReason (s.pub.table.get p))
        ++ s.pub.epoch.setWidth 4 : BitVec 12)))
    ∧ exec (.getStatus arg) s = .next (answered s 0x04 arg .ok
      (BitVec.ofNat 2 (deviceCode s.monitor.device) ++ BitVec.ofBool s.monitor.hold
        ++ BitVec.ofNat 2 (configCode s.settings.config) ++ BitVec.ofBool s.pub.locked
        ++ BitVec.ofBool (s.body.vehicle.freshness == .degraded)
        ++ BitVec.ofBool (rowFitted s .r5 && (s.row .r5).state != .online)
        ++ BitVec.ofBool (rowFitted s .r4 && (s.row .r4).state != .online)
        ++ BitVec.ofBool (rowFitted s .r3 && (s.row .r3).state != .online)
        ++ BitVec.ofBool (rowFitted s .r2 && (s.row .r2).state != .online)
        ++ BitVec.ofBool (rowFitted s .r1 && (s.row .r1).state != .online) : BitVec 12))

/-- The answers without an effect (R150). A frame error is answered at every ready mark and leaves the last request as it was.
While the ready mark is set: a command outside the six, GET_POSITION outside 1 to 15 and LOCK with a select above 3. While it
is clear every well-formed frame, LOCK, UNLOCK and a command outside the six included, is answered NOT_READY with the payload
of its command; the first one after the wake settle sets the mark (R152, R153). The frame whose chip-select assertion woke the
part is not received when it ends (R153). That each of these well-formed frames replaces the last request held, and a frame error
does not, is the model's choice (assumption 46); the mark of the frame that woke the part is its reading (18). -/
def Obligations.RestraintRefusalsHaveNoEffect : Prop :=
  (∀ s : State, Hearing s →
    let notReady := fun (command arg : Byte) (payload : BitVec 12) => restartRest { s with port := { s.port with
      lastRequest := some ⟨command, arg⟩, response := ⟨command, .notReady, payload⟩, ready := awake s } }
    exec .frameError s = .next (restartRest { s with port := { s.port with response := ⟨0xFF, .frameError, 0⟩ } })
    ∧ (s.port.ready = true → ∀ command arg : Byte,
      exec (.unknownCommand command arg) s = .next (answered s command arg .unknownCommand 0)
      ∧ (arg.toNat = 0 ∨ 15 < arg.toNat → exec (.getPosition arg) s = .next (answered s 0x03 arg .badArgument 0))
      ∧ (3 < arg.toNat → exec (.lock arg) s = .next (answered s 0x0A arg .badArgument 0)))
    ∧ (s.port.ready = false → ∀ command arg : Byte,
      exec (.nop arg) s = .next (notReady 0x01 arg 0)
      ∧ exec (.getFront arg) s = .next (notReady 0x02 arg (7#4 ++ 7#4 ++ 0#4 : BitVec 12))
      ∧ exec (.getPosition arg) s = .next (notReady 0x03 arg (7#4 ++ 9#4 ++ 0#4 : BitVec 12))
      ∧ exec (.getStatus arg) s = .next (notReady 0x04 arg 0)
      ∧ exec (.lock arg) s = .next (notReady 0x0A arg 0)
      ∧ exec (.unlock arg) s = .next (notReady 0x0B arg 0)
      ∧ (command ≠ 0x02 → command ≠ 0x03 →
        exec (.unknownCommand command arg) s = .next (notReady command arg 0))))
  ∧ ∀ (s : State) (c : Instr), Listening s → s.port.wakingFrame = true →
    (match c with
      | .nop _ | .getFront _ | .getPosition _ | .getStatus _ | .lock _ | .unlock _ | .frameError
      | .unknownCommand _ _ => True
      | _ => False) → exec c s = .next { s with port := { s.port with wakingFrame := false } }

/-- The crash lock. A LOCK with hold select 0 to 3 takes the lock, or restarts the hold timer of a lock that is held, with 1, 2,
5 or 10 s; the published table, the epoch and the pending marks are unchanged and the answer is OK (R106, R107). At the
release, by UNLOCK or by the hold timer's expiry, every pending position's record becomes its settled record, the epoch
advances by one when a record changed and not otherwise, the marks clear and the lock is UNLOCKED (R109, R110, R111). An UNLOCK
of a lock that is not held changes nothing but the answer. -/
def Obligations.LockIsTakenAndReleased : Prop :=
  (∀ (s : State) (arg : Byte), Running s → s.port.wakingFrame = false → s.port.ready = true → arg.toNat ≤ 3 →
    ∃ t, exec (.lock arg) s = .next t
    ∧ t.pub = { s.pub with
        locked := true
        holdTimer := some (if arg = 0 then 1000 else if arg = 1 then 2000 else if arg = 2 then 5000 else 10000) }
    ∧ t.port = { s.port with lastRequest := some ⟨0x0A, arg⟩, response := ⟨0x0A, .ok, 0⟩ }
    ∧ ChangesOnly [.monitor, .pub, .rem, .cadence, .port, .body] s t)
  ∧ ∀ s : State,
    let released := fun (t : State) =>
      t.pub.locked = false ∧ t.pub.holdTimer = none
      ∧ (∀ p, t.pub.marks.get p = false
          ∧ t.pub.table.get p = (if s.pub.marks.get p = true then (s.cls.get p).settled else s.pub.table.get p))
      ∧ ((∃ p, t.pub.table.get p ≠ s.pub.table.get p) → t.pub.epoch = s.pub.epoch + 1)
      ∧ ((∀ p, t.pub.table.get p = s.pub.table.get p) → t.pub.epoch = s.pub.epoch)
    (∀ arg, Running s → s.port.wakingFrame = false → s.port.ready = true → s.pub.locked = true →
      ∃ t, exec (.unlock arg) s = .next t
      ∧ released t ∧ t.port = { s.port with lastRequest := some ⟨0x0B, arg⟩, response := ⟨0x0B, .ok, 0⟩ }
      ∧ ChangesOnly [.monitor, .pub, .rem, .cadence, .port, .body] s t)
    ∧ (∀ arg, Running s → s.port.wakingFrame = false → s.port.ready = true → s.pub.locked = false →
      exec (.unlock arg) s = .next (answered s 0x0B arg .ok 0))
    ∧ (∀ n, s.pub.locked = true → s.pub.holdTimer = some n → ∃ t, exec .lockHoldTimerExpiry s = .next t
      ∧ released t ∧ ChangesOnly [.monitor, .pub, .rem, .cadence, .body] s t)

/-! ### The body port -/

/-- A VEHICLE_STATE with one of the five gears replaces the copy's values, makes it FRESH and restarts the 500 ms freshness
timer; a change of a closure restarts the rest timer in REST; another gear code makes the frame have no effect (R156,
R171). The stop of the degrade timer is the model's (assumption 12). The freshness timer's expiry makes the copy STALE with
its values held and starts the 2000 ms degrade timer while IGN is asserted; the degrade timer's expiry makes it DEGRADED, and
the Body Port then presents speed 255, gear DRIVE and every closure closed in place of the held values (R156). -/
def Obligations.VehicleStateIsTaken : Prop :=
  (∀ (s : State) (speed gear closures : Byte), Receiving s →
    (gear.toNat ≤ 4 → ∃ t, exec (.vehicleState speed gear closures) s = .next t
      ∧ t.body.vehicle = ⟨speed,
          (if gear = 0 then .park else if gear = 1 then .reverse else if gear = 2 then .neutral
            else if gear = 3 then .drive else .unknown),
          ⟨closures.getLsbD 0, closures.getLsbD 1, closures.getLsbD 2, closures.getLsbD 3, closures.getLsbD 4⟩, .fresh⟩
      ∧ t.body.freshTimer = some 500 ∧ t.body.degrade = none
      ∧ t.monitor = (if s.body.vehicle.closures = t.body.vehicle.closures ∨ s.monitor.device ≠ .rest then s.monitor
          else { s.monitor with restTimer := some (restTime s) })
      ∧ ChangesOnly [.monitor, .rem, .cadence, .body] s t)
    ∧ (4 < gear.toNat → exec (.vehicleState speed gear closures) s = .next s))
  ∧ ∀ (s : State) (n : Nat),
    (s.body.freshTimer = some n → ∃ t, exec .freshnessTimerExpiry s = .next t
      ∧ t.body.vehicle = { s.body.vehicle with freshness := .stale } ∧ t.body.freshTimer = none
      ∧ t.body.degrade = (if s.monitor.ign then some 2000 else s.body.degrade)
      ∧ ChangesOnly [.rem, .cadence, .body] s t)
    ∧ (s.body.degrade = some n → ∃ t, exec .degradeTimerExpiry s = .next t
      ∧ t.body.vehicle = { s.body.vehicle with freshness := .degraded } ∧ t.body.degrade = none
      ∧ presented t.body = ⟨255, .drive, Closures.closed, .degraded⟩
      ∧ ChangesOnly [.rem, .cadence, .body] s t)

/-- At the map timer's expiry both maps fall due from one snapshot, replacing earlier copies, and the timer restarts with
the period of the device state; a MAP_REQUEST taken in RUN or REST clears RESYNC and makes both due from a snapshot taken
after the clearing, without restarting the timer (R157, R158). -/
def Obligations.MapsFallDue : Prop :=
  ∀ s : State,
    (∀ n, s.body.mapTimer = some n → ∃ t, exec .mapTimerExpiry s = .next t
      ∧ t.body.occMap = some (bytesOf64 (occMapWord s)) ∧ t.body.beltMap = some (bytesOf64 (beltMapWord s))
      ∧ t.body.mapTimer = some (if s.monitor.device = .rest then 1000 else 100)
      ∧ t.body.resync = s.body.resync ∧ ChangesOnly [.body] s t)
    ∧ (Running s → s.body.busOff = false → ∃ t, exec .mapRequest s = .next t
      ∧ t.body.resync = false ∧ t.body.mapTimer = s.body.mapTimer
      ∧ t.body.occMap = some (bytesOf64 (occMapWord s))
      ∧ t.body.beltMap
          = some (bytesOf64 (beltMapWord { s with body := { s.body with resync := false } }))
      ∧ ChangesOnly [.body] s t)

/-- The two maps (R147, R157, R177). OCC_MAP carries the class of position p in bits 67−4p..64−4p, by the codes of R84, and
the epoch's low 4 bits below. BELT_MAP carries the lamp state of position p in bits 66−3p..64−3p, by the first line of R134's
table that applies, then CHIME driven, TELLTALE, which is 0 while its pin does not follow its level and else 2 with an AUDIBLE
position of row 1, 1 with a VISUAL or SILENCED one and 0 with neither (R139, R147), the active profile, the epoch's low 8 bits,
the lock, RESYNC, the configuration state, the freshness and a zero bit. That the table holds to the letter right after reset,
and gives NONE for a fitted rear position then, is the model's reading (assumption 38). -/
def Obligations.MapLayouts : Prop :=
  ∀ s : State,
    let front := fun (a b : RemState) => ∃ p : Pos, p.row = .r1 ∧ (s.cadence.copy.get p = a ∨ s.cadence.copy.get p = b)
    (∀ p : Pos, (occMapWord s).extractLsb' (64 - 4 * p.num) 4 = (match s.pub.table.get p with
      | .vacant => 0#4 | .object => 1#4 | .smallOccupant => 2#4 | .adult => 3#4 | .childSeatRear => 4#4
      | .childSeatForward => 5#4 | .childSeat => 6#4 | .indeterminate _ => 7#4 | .notInstalled => 8#4
      | .notFitted => 15#4))
    ∧ (occMapWord s).extractLsb' 0 4 = s.pub.epoch.setWidth 4
    ∧ (∀ p : Pos, (beltMapWord s).extractLsb' (64 - 3 * p.num) 3 = lampByTable s p)
    ∧ (beltMapWord s).getLsbD 18 = decide (chimePin s = .active)
    ∧ (s.cadence.telltaleGate ≠ .following → (beltMapWord s).extractLsb' 16 2 = 0#2)
    ∧ (s.cadence.telltaleGate = .following →
      (front .audible .audible → (beltMapWord s).extractLsb' 16 2 = 2#2)
      ∧ (¬ front .audible .audible → front .visual .silenced → (beltMapWord s).extractLsb' 16 2 = 1#2)
      ∧ (¬ front .audible .audible → ¬ front .visual .silenced → (beltMapWord s).extractLsb' 16 2 = 0#2))
    ∧ (beltMapWord s).getLsbD 15 = decide (s.cadence.active = .rear)
    ∧ (beltMapWord s).extractLsb' 7 8 = s.pub.epoch.setWidth 8
    ∧ (beltMapWord s).getLsbD 6 = s.pub.locked ∧ (beltMapWord s).getLsbD 5 = s.body.resync
    ∧ (beltMapWord s).extractLsb' 3 2 = (match s.settings.config with
      | .configured => 0#2 | .unconfigured => 1#2 | .configFault => 2#2 | .storeInconsistent => 3#2)
    ∧ (beltMapWord s).extractLsb' 1 2 = (match s.body.vehicle.freshness with
      | .fresh => 0#2 | .stale => 1#2 | .degraded => 2#2)
    ∧ (beltMapWord s).getLsbD 0 = false

/-! ### Service requests and settings -/

/-- The reading requests and the request of unknown kind: READ_PARAM with the active value or UNKNOWN_PARAM,
READ_CHILD_ENTRY with the 20 bytes of the entry at an index to 15 or OUT_OF_RANGE, READ_ROW with the 73 bytes of the row's
record or OUT_OF_RANGE, byte by byte, and an unknown kind with OUT_OF_RANGE (R16, R43, R70, R164, R177). The model's own in
those contents: the stored word of a value whose override bit is clear (assumption 26), the walk byte 0 outside CHECKING and
the zero bits of a latch (27), bit 2 of the walk byte (49), and zeros for an absent identity, latch or entry (34, 35). A
SERVICE_REQUEST taken while a reply waits only restarts the rest timer, the model's reading (30); one taken in STARTING or the
wake settle is answered NOT_READY, carrying a parameter's id and value (R155, R164, R177). -/
def Obligations.ServiceReadsReply : Prop :=
  (∀ s : State, Serving s →
    (∀ id value, RepliesWith (.readParam id value) s 1 (if knownParam id then 0 else 6)
      (bytesOf16 id ++ bytesOf16 (if knownParam id then paramValue s.settings.active id else value)))
    ∧ (∀ (index : Byte) (e : Entry), index.toNat ≤ 15 → s.child.entries[index.toNat]? = some e →
      RepliesWith (.readChildEntry index) s 4 0 (entryBytes s index e))
    ∧ (∀ index : Byte, index.toNat ≤ 15 → s.child.entries.length ≤ index.toNat →
      RepliesWith (.readChildEntry index) s 4 0 (index :: List.replicate 19 0))
    ∧ (∀ index : Byte, 15 < index.toNat → RepliesWith (.readChildEntry index) s 4 4 [])
    ∧ (∀ r : Row, RepliesWith (.readRow (BitVec.ofNat 8 r.num)) s 5 0 (rowBytes s r) ∧ (rowBytes s r).length = 73)
    ∧ (∀ row : Byte, row.toNat = 0 ∨ 5 < row.toNat → RepliesWith (.readRow row) s 5 4 [])
    ∧ (∀ kind : Byte, RepliesWith (.unknownServiceRequest kind) s kind 4 []))
  ∧ ∀ (s : State) (c : Instr), Receiving s →
    (match c with
      | .readParam _ _ | .writeParam _ _ | .clearChildList | .readChildEntry _ | .readRow _
      | .unknownServiceRequest _ => True
      | _ => False) →
    (s.body.reply.isSome = true → exec c s = .next (restartRest s))
    ∧ (s.body.reply = none → awake s = false → ∃ t, exec c s = .next t
      ∧ t.body.reply = some (match c with
        | .readParam id value => ⟨1, 8, bytesOf16 id ++ bytesOf16 value, 0⟩
        | .writeParam id value => ⟨2, 8, bytesOf16 id ++ bytesOf16 value, 0⟩
        | .clearChildList => ⟨3, 8, [], 0⟩
        | .readChildEntry _ => ⟨4, 8, [], 0⟩
        | .readRow _ => ⟨5, 8, [], 0⟩
        | .unknownServiceRequest kind => ⟨kind, 8, [], 0⟩
        | _ => ⟨0, 0, [], 0⟩)
      ∧ t.settings = s.settings ∧ t.child = s.child ∧ ChangesOnly [.body] s t)

/-- A WRITE_PARAM is judged in the order of R169: BUSY while a write is in flight, REFUSED_LOCKED, REFUSED_MOVING,
UNKNOWN_PARAM, OUT_OF_RANGE, INCONSISTENT, each with the id and the value sent and nothing changed; a write that passes
becomes the write in flight and makes no reply (R164, R169). Which values the range check and the cross-checks reach is in part
the model's own (assumptions 25 and 32). -/
def Obligations.WriteParamIsJudged : Prop :=
  ∀ (s : State) (id value : Word16), Serving s →
    let refusal : BitVec 4 :=
      if s.settings.write.isSome then 1
      else if s.pub.locked then 2
      else if ¬ (s.body.vehicle.freshness = .fresh ∧ s.body.vehicle.speed = 0 ∧ s.body.vehicle.gear = .park) then 3
      else if ¬ (id.toNat % 64 < paramCount (id.toNat / 64)) then 6
      else if paramInRange (id.toNat / 64) (id.toNat % 64) value.toNat = false then 4
      else if breaksCrossCheck s id value = true then 5
      else 0
    (refusal ≠ 0 → RepliesWith (.writeParam id value) s 2 refusal (bytesOf16 id ++ bytesOf16 value))
    ∧ (refusal = 0 → ∃ t, exec (.writeParam id value) s = .next t
      ∧ t.settings = { s.settings with write := some ⟨id, value⟩ } ∧ t.body.reply = none
      ∧ t.monitor = (restartRest s).monitor ∧ ChangesOnly [.monitor, .body, .settings] s t)

/-- CLEAR_CHILD_LIST outside the lock and with no write in flight empties the list, clears every contest mark, raises an
urgent scan request for every fitted position with a tag coil and replies OK; under the lock it is REFUSED_LOCKED and the
list stands (R81, R113, R164). -/
def Obligations.ChildListIsCleared : Prop :=
  ∀ s : State, Serving s →
    (s.pub.locked = false → s.settings.write = none → ∃ t, exec .clearChildList s = .next t
      ∧ t.child.entries = []
      ∧ (∀ p, t.coil p = { s.coil p with
          contest := none, urgent := (s.coil p).urgent || coilFitted s p })
      ∧ t.child.tagTimers = s.child.tagTimers ∧ t.body.reply = some ⟨3, 0, [], 0⟩
      ∧ ChangesOnly [.monitor, .child, .cls, .pub, .rem, .cadence, .body] s t)
    ∧ (s.pub.locked = true → RepliesWith .clearChildList s 3 2 [])
    ∧ (s.pub.locked = false → s.settings.write.isSome = true → RepliesWith .clearChildList s 3 1 [])

/-- The completion of a write: read back as written, the new value is active at once, the configuration state is CONFIGURED
and the reply is OK; a failure leaves every active value, answers WRITE_FAILED, and enters STORE_INCONSISTENT unless the
store did not acknowledge, with an URGENT FAULT notice at the entry, in a queue with room (R170). With another reply waiting,
the write's reply is held (R164). The model's own: that the value a WRITE_FAILED carries is the unchanged active one (assumption
26), and, in the image the store then holds, where a record is appended behind one that runs past the body's end (47). -/
def Obligations.WriteCompletes : Prop :=
  ∀ (s : State) (w : WriteInFlight), s.settings.write = some w →
    (∃ t, exec (.writeCompletion .readBackAsWritten) s = .next t
      ∧ t.settings.active = setParam s.settings.active w.id w.value
      ∧ t.settings.config = .configured ∧ t.settings.write = none ∧ t.settings.store = imageAfterWrite s w
      ∧ (s.body.reply = none → t.body.reply = some ⟨2, 0, bytesOf16 w.id ++ bytesOf16 w.value, 0⟩)
      ∧ (∀ r, s.body.reply = some r → t.body.reply = some r
          ∧ t.body.heldReply = some ⟨2, 0, bytesOf16 w.id ++ bytesOf16 w.value, 0⟩)
      ∧ (∀ p, (t.load.get p).filtered = (s.load.get p).filtered)
      ∧ ChangesOnly [.monitor, .line, .load, .child, .cls, .pub, .rem, .cadence, .body, .settings] s t)
    ∧ (∀ o, o ≠ .readBackAsWritten → ∃ t, exec (.writeCompletion o) s = .next t
      ∧ t.settings.active = s.settings.active ∧ t.settings.write = none
      ∧ t.settings.config = (if o = .notAcknowledged then s.settings.config else .storeInconsistent)
      ∧ (s.body.reply = none → t.body.reply
          = some ⟨2, 7, bytesOf16 w.id ++ bytesOf16 (paramValue s.settings.active w.id), 0⟩)
      ∧ (∀ r, s.body.reply = some r → t.body.reply = some r
          ∧ t.body.heldReply = some ⟨2, 7, bytesOf16 w.id ++ bytesOf16 (paramValue s.settings.active w.id), 0⟩)
      ∧ (o ≠ .notAcknowledged → s.settings.config ≠ .storeInconsistent → s.body.queue.length < 24 →
          kindClass s.settings.active 8 = 1 →
          Waits t.body ⟨.fault, .position ((posOfNum (w.id.toNat / 64)).getD ⟨.r1, .s1⟩),
            BitVec.ofNat 8 (configCode s.settings.config), 3, if o = .headerFailed then 9 else 10, none⟩)
      ∧ (o = .notAcknowledged ∨ s.settings.config = .storeInconsistent →
          t.body.queue.map (·.notice) = s.body.queue.map (·.notice))
      ∧ ChangesOnly [.body, .settings] s t)

/-- What the new value of a completed write does in the blocks. A gain sets the gain-written mark of a fitted restraint
position, and with every such mark set UNCALIBRATED clears for all and each is evaluated (R168). A position's record whose
POSITION_CONFIG_FAULT is set is validated again, and the condition clears and the position is evaluated where it passes (R170).
A cleared anchors flag makes the anchors OPEN; a cleared tag coil flag stops the scan timer, withdraws the urgent request,
clears contest and UNKNOWN, marks a read in flight there to be discarded and makes the entry standing there MISSING, which
clears the contests by its tag; a set one starts the scan timer of an ONLINE row and raises an urgent request (R15, R63, R72).
A new check table restarts the walks of the CHECKING rows with their attempts kept and detaches their exchange, and an empty one
takes them to ONLINE (R12, R30, R31, R36). A running age past a stale limit that the write changed makes the position stale
(R56, R58). A new list or speed evaluates the lists (R121). Nothing else of the rows, the load states and the child seat unit
moves. The model's own: a gain write after UNCALIBRATED has cleared evaluates again (assumption 36), the evaluations at a
cleared sensor flag (37), a stale limit written under POSITION_CONFIG_FAULT is in force (41), a position made stale settles at
once (50), rows enter ONLINE in ascending order (42), and how far the validation reaches into disregarded values (25). -/
def Obligations.WrittenValuesAct : Prop :=
  ∀ (s : State) (w : WriteInFlight), s.settings.write = some w → ∃ t, exec (.writeCompletion .readBackAsWritten) s = .next t ∧
    let grp := w.id.toNat / 64
    let i := w.id.toNat % 64
    let restraint := fun (p : Pos) => posFitted s p && (decide (p.num = 2) || decide (p.num = 3))
    let gainOf := fun (p : Pos) => restraint p && decide (grp = p.num ∧ 8 ≤ i ∧ i ≤ 15)
    let judged := fun (p : Pos) => awake s = true → (t.cls.get p).previous = some (tableRecord t p)
      ∧ (settlesAtOnce (tableRecord t p) = true → (t.cls.get p).settled = tableRecord t p)
    (∀ p, t.settings.gainWritten.get p = (s.settings.gainWritten.get p || gainOf p))
    ∧ ((∃ p, gainOf p = true) → (∀ q, restraint q = true → t.settings.gainWritten.get q = true) → ∀ q,
        t.settings.uncalibrated.get q = false ∧ (restraint q = true → judged q))
    ∧ ((∀ p, gainOf p = false) ∨ (∃ q, restraint q = true ∧ t.settings.gainWritten.get q = false) →
        t.settings.uncalibrated = s.settings.uncalibrated)
    ∧ (∀ p, let passes := PositionRecordPasses s p (t.settings.active.positions.get p)
        (grp = p.num → passes → t.settings.posFault.get p = false
          ∧ (s.settings.posFault.get p = true → posFitted s p = true → judged p))
        ∧ (grp ≠ p.num ∨ ¬ passes → t.settings.posFault.get p = s.settings.posFault.get p))
    ∧ (grp ≠ 19 → ∀ p,
        let forgotten := anchorsFitted s p && !anchorsFitted t p
        (t.cls.get p).left = (if forgotten then ⟨false, none⟩ else (s.cls.get p).left)
        ∧ (t.cls.get p).right = (if forgotten then ⟨false, none⟩ else (s.cls.get p).right)
        ∧ (forgotten = true → judged p))
    ∧ (∀ p, coilFitted s p = true → coilFitted t p = false →
        t.coil p = { s.coil p with scan := none, due := none, urgent := false, contest := none, unknown := false }
        ∧ (t.row p.row).tagRead
          = (s.row p.row).tagRead.map (fun x => if x.seat = p.seat then { x with discard := true } else x)
        ∧ (∀ r, r ≠ p.row → (t.row r).tagRead = (s.row r).tagRead)
        ∧ (evidence s p ≠ evidence t p → judged p)
        ∧ (ListInv s.child →
          t.child.entries = s.child.entries.map (fun e => if standsAt p e then { e with state := .missing } else e)
          ∧ (standing s p = none → ∀ q, q ≠ p → t.coil q = s.coil q)
          ∧ ∀ e, standing s p = some e →
            (∀ q, q ≠ p → t.coil q = (if (s.coil q).contest = some e.tag then
              { s.coil q with contest := none, urgent := (s.coil q).urgent || coilFitted s q } else s.coil q))
            ∧ (s.body.queue.length ≤ 22 → kindClass s.settings.active 6 = 1 →
              Waits t.body ⟨.childSeatMissing, .position p, BitVec.ofNat 8 p.num, 0, 5, some e.tag⟩)))
    ∧ (∀ p, coilFitted s p = false → coilFitted t p = true →
        t.coil p = (if (s.row p.row).state = .online then
          { s.coil p with scan := some (scanInterval s), due := none, urgent := true } else { s.coil p with urgent := true })
        ∧ (∀ q, q ≠ p → t.coil q = s.coil q) ∧ t.child.entries = s.child.entries)
    ∧ ((∀ p, coilFitted t p = coilFitted s p) → (grp ≠ 19 → t.child = s.child) ∧ ∀ r, (t.row r).tagRead = (s.row r).tagRead)
    ∧ t.line.timer = s.line.timer ∧ t.line.pointer = s.line.pointer
    ∧ (grp ≠ 19 → t.line.exchange = s.line.exchange ∧ ∀ r, t.row r = { s.row r with tagRead := (t.row r).tagRead })
    ∧ (grp = 19 → t.child.entries = s.child.entries ∧ t.child.tagTimers = s.child.tagTimers
      ∧ t.line.exchange = s.line.exchange.map (fun x =>
        if (s.row x.row).state = .checking then { x with detached := true } else x)
      ∧ ∀ r,
        let moves := (s.row r).state = .checking ∧ wordAt t.settings.active.check 0 = 0
        ((s.row r).state ≠ .checking → t.row r = s.row r)
        ∧ ((s.row r).state = .checking → ¬ moves →
          t.row r = { s.row r with walk := ⟨0, .read, (s.row r).walk.attempts⟩ })
        ∧ (¬ moves → ∀ p, p.row = r → t.load.get p = s.load.get p ∧ t.coil p = s.coil p)
        ∧ (moves → EntersOnline s t r ∧ (s.body.queue.length ≤ 7 → kindClass s.settings.active 7 = 1 →
          Waits t.body ⟨.rowChange, .row r, 2, 3, 3, none⟩)))
    ∧ (grp ≠ 19 → ∀ p,
        let l := s.load.get p
        let limit := fun (u : State) => if (wordAt (posWords u.settings.active p) 20).testBit 3 then
          wordAt (posWords u.settings.active p) 27 else wordAt u.settings.active.device (if p.num ≤ 3 then 6 else 13)
        let late := posFitted s p = true ∧ l.ageMode = .running ∧ l.stale = false ∧ limit t ≠ limit s ∧ limit t < l.age
        (late → t.load.get p = { l with stale := true, phase := if l.phase = .live then .awaiting else l.phase }
          ∧ judged p)
        ∧ (¬ late → t.load.get p = l))
    ∧ (s.pub.locked = false → ∀ p, t.pub.table.get p = (t.cls.get p).settled)
    ∧ (grp = 17 ∨ (grp = 16 ∧ i ≤ 1) → ∀ p, remHeld t p = false →
        (t.rem.get p).start = startResult t p ∧ (t.rem.get p).escalate = escalateResult t p)

/-! ### Notices -/

/-- A producer's notice takes its class from the kind-to-class map (R105, R160) and enters the queue by the first case of
R161 that applies: a ROUTINE one with an entry of its kind and subject replaces that entry's new value, reason and tag where
it stands; with fewer than 24 entries it joins the end; with 24 a ROUTINE one is dropped, and an URGENT one displaces the
youngest ROUTINE entry or, where there is none, is dropped, each of the three setting RESYNC. The frame of a replaced or
displaced entry leaves the slot (R159, R161). -/
def Obligations.NoticeEntersTheQueue : Prop :=
  (∀ (s : State) (n : Notice),
    notify n s = { s with body := s.body.enter (urgentByMap s.settings.active n) n })
  ∧ ∀ (b : Body) (n : Notice), QueueInv b →
    let same := fun (e : QueueEntry) =>
      e.urgent = false ∧ e.notice.kind = n.kind ∧ e.notice.subject = n.subject
    (∀ l e r, b.queue = l ++ e :: r → same e → b.enter false n = { b with
      queue := l ++ ⟨{ e.notice with new := n.new, reason := n.reason, tag := n.tag }, false, false⟩ :: r
      slot := if e.inSlot then none else b.slot })
    ∧ ((∀ e ∈ b.queue, ¬ same e) →
      (b.queue.length < 24 → b.enter false n = { b with queue := b.queue ++ [⟨n, false, false⟩] })
      ∧ (b.queue.length = 24 → b.enter false n = { b with resync := true }))
    ∧ (b.queue.length < 24 → b.enter true n = { b with queue := b.queue ++ [⟨n, true, false⟩] })
    ∧ (b.queue.length = 24 →
      (∀ l e r, b.queue = l ++ e :: r → e.urgent = false → (∀ x ∈ r, x.urgent = true) → b.enter true n = { b with
        queue := l ++ r ++ [⟨n, true, false⟩], slot := if e.inSlot then none else b.slot, resync := true })
      ∧ ((∀ e ∈ b.queue, e.urgent = true) → b.enter true n = { b with resync := true }))

/-- The arbiter fills an empty slot outside bus-off with the first of: OCC_MAP, BELT_MAP, the waiting reply's next frame, a
notice, under the identifier base + 0, 1, 3 and 2 (R155, R159). Among the notices it takes the oldest eligible URGENT one, and
the oldest eligible ROUTINE one where there is none or where three URGENT ones have gone out in a row (R162). In STARTING and
the wake settle it sends a reply alone, in SLEEP nothing; a frame in the slot stays (R155, R159). The bytes are those of
R177. -/
def Obligations.ArbiterChooses : Prop :=
  ∀ s : State,
    let sent := fun (o : SlotOwner) (k : Nat) (data : List Byte) => { s with body := { s.body with
      slot := some ⟨o, BitVec.ofNat 11 (baseId s.settings.active + k), data⟩ } }
    let reply := fun (r : Reply) => sent .reply 3 ([r.kind, (BitVec.ofNat 4 r.next ++ r.code : BitVec 8)]
      ++ (List.range 6).map (fun i => r.content.getD (6 * r.next + i) 0))
    let notice := fun (l : List QueueEntry) (e : QueueEntry) (r : List QueueEntry) =>
      let n := e.notice
      let tag := n.tag.getD 0
      let s1 := sent .notice 2 [BitVec.ofNat 8 (noticeKindCode n.kind), BitVec.ofNat 8 (subjectNum n.subject), n.old, n.new,
        n.reason, tag.extractLsb' 16 8, tag.extractLsb' 8 8, tag.extractLsb' 0 8]
      { s1 with body := { s1.body with queue := l ++ { e with inSlot := true } :: r } }
    (s.body.slot.isSome = true ∨ s.body.busOff = true ∨ asleep s = true → arbitrate s = s)
    ∧ (s.body.slot = none → s.body.busOff = false → awake s = true →
      (∀ m, s.body.occMap = some m → arbitrate s = sent .occMap 0 m)
      ∧ (∀ m, s.body.occMap = none → s.body.beltMap = some m → arbitrate s = sent .beltMap 1 m)
      ∧ (∀ r, s.body.occMap = none → s.body.beltMap = none → s.body.reply = some r → arbitrate s = reply r)
      ∧ (s.body.occMap = none → s.body.beltMap = none → s.body.reply = none →
        (∀ l e r, FirstEligible true s.body.queue l e r → s.body.urgentCount ≠ 3 ∨ NoneEligible false s.body.queue →
          arbitrate s = notice l e r)
        ∧ (∀ l e r, FirstEligible false s.body.queue l e r → s.body.urgentCount = 3 ∨ NoneEligible true s.body.queue →
          arbitrate s = notice l e r)
        ∧ (s.body.queue = [] → arbitrate s = s)))
    ∧ (s.body.slot = none → s.body.busOff = false → awake s = false → asleep s = false →
      (∀ r, s.body.reply = some r → arbitrate s = reply r) ∧ (s.body.reply = none → arbitrate s = s))

/-- The transmitter: at the acknowledgement of the frame in the slot its owner is told, so that a map stops being due, a
reply goes on to its next frame or ends, and a notice leaves the queue and moves the count of consecutive URGENT
transmissions; bus-off, which may come in SLEEP as in every other state out of reset, empties the slot and leaves every frame
waiting; its recovery ends it (R159, R162, R177). -/
def Obligations.TransmitterMoves : Prop :=
  ∀ s : State,
    (∀ f, s.body.slot = some f → ∃ t, exec .transmitAcknowledged s = .next t
      ∧ t.body.occMap = (if f.owner = .occMap then none else s.body.occMap)
      ∧ t.body.beltMap = (if f.owner = .beltMap then none else s.body.beltMap)
      ∧ t.body.reply = (if f.owner = .reply then
          (match s.body.reply with
            | some r => if r.next + 1 < replyFrames r.content then some { r with next := r.next + 1 } else s.body.heldReply
            | none => none)
          else s.body.reply)
      ∧ (∀ e, f.owner = .notice → s.body.queue.find? (·.inSlot) = some e →
          t.body.queue.map (·.notice) = (s.body.queue.eraseP (·.inSlot)).map (·.notice)
          ∧ t.body.urgentCount = (if e.urgent then min 3 (s.body.urgentCount + 1) else 0))
      ∧ (f.owner ≠ .notice → t.body.queue.map (·.notice) = s.body.queue.map (·.notice)
          ∧ t.body.urgentCount = s.body.urgentCount)
      ∧ ChangesOnly [.body] s t)
    ∧ (s.monitor.inReset = false → exec .busOff s = .next { s with body := { s.body with
        busOff := true, slot := none, queue := s.body.queue.map (fun e => { e with inSlot := false }) } })
    ∧ (s.body.busOff = true → ∃ t, exec .busOffRecovery s = .next t
      ∧ t.body.busOff = false ∧ t.body.queue.map (·.notice) = s.body.queue.map (·.notice)
      ∧ t.body.occMap = s.body.occMap ∧ t.body.beltMap = s.body.beltMap ∧ t.body.reply = s.body.reply
      ∧ (awake s = true → s.body.occMap.isSome = true → t.body.slot.isSome = true)
      ∧ ChangesOnly [.body] s t)

/-! ### Invariants -/

/-- Every invariant holds after reset. -/
def Obligations.InvariantsHoldAfterReset : Prop :=
  PublicationInv State.reset ∧ QueueInv State.reset.body ∧ SlotInv State.reset.body ∧ ListInv State.reset.child
  ∧ (∀ r, RowCountsInv (State.reset.row r)) ∧ CadenceInv State.reset ∧ GateInv State.reset
  ∧ (∀ p, RemTimersInv (State.reset.rem.get p))

/-- Every step keeps: the pending marks stand exactly where the settled record differs from the published one, and while
the lock is not held there is no such position (R104, R108, R111). -/
def Obligations.EveryStepPublishes : Prop :=
  ∀ s t : State, PublicationInv s → step s = .next t → PublicationInv t

/-- Every step keeps: the queue holds at most 24 notices and never two ROUTINE notices of one kind for one subject (R161,
R162). -/
def Obligations.EveryStepBoundsTheQueue : Prop :=
  ∀ s t : State, QueueInv s.body → step s = .next t → QueueInv t.body

/-- Every step keeps: a notice is marked as standing in the transmit slot exactly while the slot holds a notice, and never
two; a map or a reply in the slot is the one its buffer holds (R158, R159). -/
def Obligations.EveryStepKeepsTheSlot : Prop :=
  ∀ s t : State, SlotInv s.body → step s = .next t → SlotInv t.body

/-- Every step keeps: each tag has at most one entry in the child seat list (R69). Every step keeps, too, the whole of the
list's form: at most 16 entries, one for each tag, one standing at each position, and each contest by a tag whose entry stands
at another position (R69, R72, R76). -/
def Obligations.EveryStepKeepsTagsApart : Prop :=
  (∀ s t : State, TagsInv s.child → step s = .next t → TagsInv t.child)
  ∧ ∀ s t : State, ListInv s.child → step s = .next t → ListInv t.child

/-- Every step keeps: a position's delay timer runs exactly in WAIT and its audible timer exactly in AUDIBLE (R124,
R125). -/
def Obligations.EveryStepKeepsTheReminderTimers : Prop :=
  ∀ s t : State, (∀ p, RemTimersInv (s.rem.get p)) → step s = .next t → ∀ p, RemTimersInv (t.rem.get p)

/-- Every step keeps: the chime timer runs with a profile exactly while a position is AUDIBLE, and the flash timer exactly
while TELLTALE flashes (R139 to R143); and the gates of the outputs are closed exactly outside RUN and REST and while OUTEN is
deasserted (R144, R145). -/
def Obligations.EveryStepKeepsTheCadence : Prop :=
  (∀ s t : State, CadenceInv s → step s = .next t → CadenceInv t)
  ∧ ∀ s t : State, GateInv s → step s = .next t → GateInv t

/-- Every step keeps the ranges of the counts of the row records (R25). -/
def Obligations.EveryStepBoundsTheRowCounts : Prop :=
  ∀ s t : State, (∀ r, RowCountsInv (s.row r)) → step s = .next t → ∀ r, RowCountsInv (t.row r)

/-- While the crash lock is held no command but a reset, an UNLOCK and the hold timer's expiry changes a published record,
the epoch or the lock (R108, R112). -/
def Obligations.LockHoldsTheTable : Prop :=
  ∀ (c : Instr) (s : State), s.pub.locked = true →
    (match c with
      | .reset _ _ | .unlock _ | .lockHoldTimerExpiry => False
      | _ => True) →
    ∃ t, exec c s = .next t ∧ t.pub.table = s.pub.table ∧ t.pub.epoch = s.pub.epoch ∧ t.pub.locked = true
end

