-- ==== Sys2Proof/Laws/Table.lean ====
section
/-! SUPPORT. Reading a table after an update, and the lists of rows and positions. -/

namespace Sys2Proof.Machine

variable {α β : Type}

/-! ### Rows -/

theorem PerRow.get_modify (t : PerRow α) (r q : Row) (f : α → α) :
    (t.modify r f).get q = if q = r then f (t.get q) else t.get q := by
  cases r <;> cases q <;> rfl

@[simp] theorem PerRow.get_modify_self (t : PerRow α) (r : Row) (f : α → α) : (t.modify r f).get r = f (t.get r) := by
  cases r <;> rfl

theorem PerRow.get_modify_ne (t : PerRow α) {r q : Row} (f : α → α) (h : q ≠ r) : (t.modify r f).get q = t.get q := by
  rw [PerRow.get_modify, if_neg h]

@[simp] theorem PerRow.get_mapIdx (t : PerRow α) (f : Row → α → β) (r : Row) :
    (t.mapIdx f).get r = f r (t.get r) := by
  cases r <;> rfl

@[simp] theorem PerRow.get_all (a : α) (r : Row) : (PerRow.all a).get r = a := by cases r <;> rfl

/-! ### Seats -/

theorem PerSeat.get_modify (t : PerSeat α) (k j : Seat) (f : α → α) :
    (t.modify k f).get j = if j = k then f (t.get j) else t.get j := by
  cases k <;> cases j <;> rfl

@[simp] theorem PerSeat.get_mapIdx (t : PerSeat α) (f : Seat → α → β) (k : Seat) :
    (t.mapIdx f).get k = f k (t.get k) := by
  cases k <;> rfl

@[simp] theorem PerSeat.get_all (a : α) (k : Seat) : (PerSeat.all a).get k = a := by cases k <;> rfl

/-! ### Positions -/

theorem PerPos.get_modify (t : PerPos α) (p q : Pos) (f : α → α) :
    (t.modify p f).get q = if q = p then f (t.get q) else t.get q := by
  obtain ⟨r, k⟩ := p
  obtain ⟨r', k'⟩ := q
  cases r <;> cases r' <;> cases k <;> cases k' <;> rfl

@[simp] theorem PerPos.get_modify_self (t : PerPos α) (p : Pos) (f : α → α) : (t.modify p f).get p = f (t.get p) := by
  rw [PerPos.get_modify, if_pos rfl]

theorem PerPos.get_modify_ne (t : PerPos α) {p q : Pos} (f : α → α) (h : q ≠ p) : (t.modify p f).get q = t.get q := by
  rw [PerPos.get_modify, if_neg h]

@[simp] theorem PerPos.get_mapIdx (t : PerPos α) (f : Pos → α → β) (p : Pos) :
    (t.mapIdx f).get p = f p (t.get p) := by
  obtain ⟨r, k⟩ := p
  cases r <;> cases k <;> rfl

@[simp] theorem PerPos.get_all (a : α) (p : Pos) : (PerPos.all a).get p = a := by
  obtain ⟨r, k⟩ := p
  cases r <;> cases k <;> rfl

theorem PerRow.ext_get {t u : PerRow α} (h : ∀ r, t.get r = u.get r) : t = u := by
  obtain ⟨a, b, c, d, e⟩ := t
  obtain ⟨a', b', c', d', e'⟩ := u
  have h1 : a = a' := h .r1
  have h2 : b = b' := h .r2
  have h3 : c = c' := h .r3
  have h4 : d = d' := h .r4
  have h5 : e = e' := h .r5
  subst h1 h2 h3 h4 h5
  rfl

theorem PerSeat.ext_get {t u : PerSeat α} (h : ∀ k, t.get k = u.get k) : t = u := by
  obtain ⟨a, b, c⟩ := t
  obtain ⟨a', b', c'⟩ := u
  have h1 : a = a' := h .s1
  have h2 : b = b' := h .s2
  have h3 : c = c' := h .s3
  subst h1 h2 h3
  rfl

/-- Two position tables that read alike at every position are equal. -/
theorem PerPos.ext_get {t u : PerPos α} (h : ∀ p, t.get p = u.get p) : t = u := by
  obtain ⟨a⟩ := t
  obtain ⟨b⟩ := u
  congr 1
  exact PerRow.ext_get (fun r => PerSeat.ext_get (fun k => h ⟨r, k⟩))

/-! ### The lists -/

@[simp] theorem mem_allRows (r : Row) : r ∈ allRows := by cases r <;> decide

@[simp] theorem mem_allPos (p : Pos) : p ∈ allPos := by
  obtain ⟨r, k⟩ := p
  cases r <;> cases k <;> decide

theorem mem_rowPositions (r : Row) (p : Pos) : p ∈ rowPositions r ↔ p.row = r := by
  obtain ⟨q, k⟩ := p
  cases r <;> cases q <;> cases k <;> decide

theorem allPos_nodup : allPos.Nodup := by decide

theorem allRows_nodup : allRows.Nodup := by decide

theorem rowPositions_nodup (r : Row) : (rowPositions r).Nodup := by cases r <;> decide

/-- A position's number finds the position (R1). -/
@[simp] theorem posOfNum_num (p : Pos) : posOfNum p.num = some p := by
  obtain ⟨r, k⟩ := p
  cases r <;> cases k <;> decide

/-- A row's number finds the row (R1). -/
@[simp] theorem rowOfNum_num (r : Row) : rowOfNum r.num = some r := by cases r <;> decide

end Sys2Proof.Machine
end

