-- ==== Sys2Proof/Laws/State.lean ====
section
/-! SUPPORT. One lemma per field of the state and per update of Machine/Ops.lean: what the field reads after it. -/

namespace Sys2Proof.Machine

section
variable (s : State) (f : Monitor → Monitor)

@[simp] theorem State.onMonitor_straps : (s.onMonitor f).straps = s.straps := rfl
@[simp] theorem State.onMonitor_pins : (s.onMonitor f).pins = s.pins := rfl
@[simp] theorem State.onMonitor_monitor : (s.onMonitor f).monitor = f s.monitor := rfl
@[simp] theorem State.onMonitor_line : (s.onMonitor f).line = s.line := rfl
@[simp] theorem State.onMonitor_load : (s.onMonitor f).load = s.load := rfl
@[simp] theorem State.onMonitor_child : (s.onMonitor f).child = s.child := rfl
@[simp] theorem State.onMonitor_cls : (s.onMonitor f).cls = s.cls := rfl
@[simp] theorem State.onMonitor_pub : (s.onMonitor f).pub = s.pub := rfl
@[simp] theorem State.onMonitor_rem : (s.onMonitor f).rem = s.rem := rfl
@[simp] theorem State.onMonitor_cadence : (s.onMonitor f).cadence = s.cadence := rfl
@[simp] theorem State.onMonitor_port : (s.onMonitor f).port = s.port := rfl
@[simp] theorem State.onMonitor_body : (s.onMonitor f).body = s.body := rfl
@[simp] theorem State.onMonitor_settings : (s.onMonitor f).settings = s.settings := rfl
@[simp] theorem State.onMonitor_pending : (s.onMonitor f).pending = s.pending := rfl

end

section
variable (s : State) (f : RowLine → RowLine)

@[simp] theorem State.onLine_straps : (s.onLine f).straps = s.straps := rfl
@[simp] theorem State.onLine_pins : (s.onLine f).pins = s.pins := rfl
@[simp] theorem State.onLine_monitor : (s.onLine f).monitor = s.monitor := rfl
@[simp] theorem State.onLine_line : (s.onLine f).line = f s.line := rfl
@[simp] theorem State.onLine_load : (s.onLine f).load = s.load := rfl
@[simp] theorem State.onLine_child : (s.onLine f).child = s.child := rfl
@[simp] theorem State.onLine_cls : (s.onLine f).cls = s.cls := rfl
@[simp] theorem State.onLine_pub : (s.onLine f).pub = s.pub := rfl
@[simp] theorem State.onLine_rem : (s.onLine f).rem = s.rem := rfl
@[simp] theorem State.onLine_cadence : (s.onLine f).cadence = s.cadence := rfl
@[simp] theorem State.onLine_port : (s.onLine f).port = s.port := rfl
@[simp] theorem State.onLine_body : (s.onLine f).body = s.body := rfl
@[simp] theorem State.onLine_settings : (s.onLine f).settings = s.settings := rfl
@[simp] theorem State.onLine_pending : (s.onLine f).pending = s.pending := rfl

end

section
variable (s : State) (f : ChildUnit → ChildUnit)

@[simp] theorem State.onChild_straps : (s.onChild f).straps = s.straps := rfl
@[simp] theorem State.onChild_pins : (s.onChild f).pins = s.pins := rfl
@[simp] theorem State.onChild_monitor : (s.onChild f).monitor = s.monitor := rfl
@[simp] theorem State.onChild_line : (s.onChild f).line = s.line := rfl
@[simp] theorem State.onChild_load : (s.onChild f).load = s.load := rfl
@[simp] theorem State.onChild_child : (s.onChild f).child = f s.child := rfl
@[simp] theorem State.onChild_cls : (s.onChild f).cls = s.cls := rfl
@[simp] theorem State.onChild_pub : (s.onChild f).pub = s.pub := rfl
@[simp] theorem State.onChild_rem : (s.onChild f).rem = s.rem := rfl
@[simp] theorem State.onChild_cadence : (s.onChild f).cadence = s.cadence := rfl
@[simp] theorem State.onChild_port : (s.onChild f).port = s.port := rfl
@[simp] theorem State.onChild_body : (s.onChild f).body = s.body := rfl
@[simp] theorem State.onChild_settings : (s.onChild f).settings = s.settings := rfl
@[simp] theorem State.onChild_pending : (s.onChild f).pending = s.pending := rfl

end

section
variable (s : State) (f : Publication → Publication)

@[simp] theorem State.onPub_straps : (s.onPub f).straps = s.straps := rfl
@[simp] theorem State.onPub_pins : (s.onPub f).pins = s.pins := rfl
@[simp] theorem State.onPub_monitor : (s.onPub f).monitor = s.monitor := rfl
@[simp] theorem State.onPub_line : (s.onPub f).line = s.line := rfl
@[simp] theorem State.onPub_load : (s.onPub f).load = s.load := rfl
@[simp] theorem State.onPub_child : (s.onPub f).child = s.child := rfl
@[simp] theorem State.onPub_cls : (s.onPub f).cls = s.cls := rfl
@[simp] theorem State.onPub_pub : (s.onPub f).pub = f s.pub := rfl
@[simp] theorem State.onPub_rem : (s.onPub f).rem = s.rem := rfl
@[simp] theorem State.onPub_cadence : (s.onPub f).cadence = s.cadence := rfl
@[simp] theorem State.onPub_port : (s.onPub f).port = s.port := rfl
@[simp] theorem State.onPub_body : (s.onPub f).body = s.body := rfl
@[simp] theorem State.onPub_settings : (s.onPub f).settings = s.settings := rfl
@[simp] theorem State.onPub_pending : (s.onPub f).pending = s.pending := rfl

end

section
variable (s : State) (f : Cadence → Cadence)

@[simp] theorem State.onCadence_straps : (s.onCadence f).straps = s.straps := rfl
@[simp] theorem State.onCadence_pins : (s.onCadence f).pins = s.pins := rfl
@[simp] theorem State.onCadence_monitor : (s.onCadence f).monitor = s.monitor := rfl
@[simp] theorem State.onCadence_line : (s.onCadence f).line = s.line := rfl
@[simp] theorem State.onCadence_load : (s.onCadence f).load = s.load := rfl
@[simp] theorem State.onCadence_child : (s.onCadence f).child = s.child := rfl
@[simp] theorem State.onCadence_cls : (s.onCadence f).cls = s.cls := rfl
@[simp] theorem State.onCadence_pub : (s.onCadence f).pub = s.pub := rfl
@[simp] theorem State.onCadence_rem : (s.onCadence f).rem = s.rem := rfl
@[simp] theorem State.onCadence_cadence : (s.onCadence f).cadence = f s.cadence := rfl
@[simp] theorem State.onCadence_port : (s.onCadence f).port = s.port := rfl
@[simp] theorem State.onCadence_body : (s.onCadence f).body = s.body := rfl
@[simp] theorem State.onCadence_settings : (s.onCadence f).settings = s.settings := rfl
@[simp] theorem State.onCadence_pending : (s.onCadence f).pending = s.pending := rfl

end

section
variable (s : State) (f : Restraint → Restraint)

@[simp] theorem State.onPort_straps : (s.onPort f).straps = s.straps := rfl
@[simp] theorem State.onPort_pins : (s.onPort f).pins = s.pins := rfl
@[simp] theorem State.onPort_monitor : (s.onPort f).monitor = s.monitor := rfl
@[simp] theorem State.onPort_line : (s.onPort f).line = s.line := rfl
@[simp] theorem State.onPort_load : (s.onPort f).load = s.load := rfl
@[simp] theorem State.onPort_child : (s.onPort f).child = s.child := rfl
@[simp] theorem State.onPort_cls : (s.onPort f).cls = s.cls := rfl
@[simp] theorem State.onPort_pub : (s.onPort f).pub = s.pub := rfl
@[simp] theorem State.onPort_rem : (s.onPort f).rem = s.rem := rfl
@[simp] theorem State.onPort_cadence : (s.onPort f).cadence = s.cadence := rfl
@[simp] theorem State.onPort_port : (s.onPort f).port = f s.port := rfl
@[simp] theorem State.onPort_body : (s.onPort f).body = s.body := rfl
@[simp] theorem State.onPort_settings : (s.onPort f).settings = s.settings := rfl
@[simp] theorem State.onPort_pending : (s.onPort f).pending = s.pending := rfl

end

section
variable (s : State) (f : Body → Body)

@[simp] theorem State.onBody_straps : (s.onBody f).straps = s.straps := rfl
@[simp] theorem State.onBody_pins : (s.onBody f).pins = s.pins := rfl
@[simp] theorem State.onBody_monitor : (s.onBody f).monitor = s.monitor := rfl
@[simp] theorem State.onBody_line : (s.onBody f).line = s.line := rfl
@[simp] theorem State.onBody_load : (s.onBody f).load = s.load := rfl
@[simp] theorem State.onBody_child : (s.onBody f).child = s.child := rfl
@[simp] theorem State.onBody_cls : (s.onBody f).cls = s.cls := rfl
@[simp] theorem State.onBody_pub : (s.onBody f).pub = s.pub := rfl
@[simp] theorem State.onBody_rem : (s.onBody f).rem = s.rem := rfl
@[simp] theorem State.onBody_cadence : (s.onBody f).cadence = s.cadence := rfl
@[simp] theorem State.onBody_port : (s.onBody f).port = s.port := rfl
@[simp] theorem State.onBody_body : (s.onBody f).body = f s.body := rfl
@[simp] theorem State.onBody_settings : (s.onBody f).settings = s.settings := rfl
@[simp] theorem State.onBody_pending : (s.onBody f).pending = s.pending := rfl

end

section
variable (s : State) (f : Settings → Settings)

@[simp] theorem State.onSettings_straps : (s.onSettings f).straps = s.straps := rfl
@[simp] theorem State.onSettings_pins : (s.onSettings f).pins = s.pins := rfl
@[simp] theorem State.onSettings_monitor : (s.onSettings f).monitor = s.monitor := rfl
@[simp] theorem State.onSettings_line : (s.onSettings f).line = s.line := rfl
@[simp] theorem State.onSettings_load : (s.onSettings f).load = s.load := rfl
@[simp] theorem State.onSettings_child : (s.onSettings f).child = s.child := rfl
@[simp] theorem State.onSettings_cls : (s.onSettings f).cls = s.cls := rfl
@[simp] theorem State.onSettings_pub : (s.onSettings f).pub = s.pub := rfl
@[simp] theorem State.onSettings_rem : (s.onSettings f).rem = s.rem := rfl
@[simp] theorem State.onSettings_cadence : (s.onSettings f).cadence = s.cadence := rfl
@[simp] theorem State.onSettings_port : (s.onSettings f).port = s.port := rfl
@[simp] theorem State.onSettings_body : (s.onSettings f).body = s.body := rfl
@[simp] theorem State.onSettings_settings : (s.onSettings f).settings = f s.settings := rfl
@[simp] theorem State.onSettings_pending : (s.onSettings f).pending = s.pending := rfl

end

section
variable (s : State) (f : Pins → Pins)

@[simp] theorem State.onPins_straps : (s.onPins f).straps = s.straps := rfl
@[simp] theorem State.onPins_pins : (s.onPins f).pins = f s.pins := rfl
@[simp] theorem State.onPins_monitor : (s.onPins f).monitor = s.monitor := rfl
@[simp] theorem State.onPins_line : (s.onPins f).line = s.line := rfl
@[simp] theorem State.onPins_load : (s.onPins f).load = s.load := rfl
@[simp] theorem State.onPins_child : (s.onPins f).child = s.child := rfl
@[simp] theorem State.onPins_cls : (s.onPins f).cls = s.cls := rfl
@[simp] theorem State.onPins_pub : (s.onPins f).pub = s.pub := rfl
@[simp] theorem State.onPins_rem : (s.onPins f).rem = s.rem := rfl
@[simp] theorem State.onPins_cadence : (s.onPins f).cadence = s.cadence := rfl
@[simp] theorem State.onPins_port : (s.onPins f).port = s.port := rfl
@[simp] theorem State.onPins_body : (s.onPins f).body = s.body := rfl
@[simp] theorem State.onPins_settings : (s.onPins f).settings = s.settings := rfl
@[simp] theorem State.onPins_pending : (s.onPins f).pending = s.pending := rfl

end

section
variable (s : State) (r : Row) (f : RowRecord → RowRecord)

@[simp] theorem State.onRow_straps : (s.onRow r f).straps = s.straps := rfl
@[simp] theorem State.onRow_pins : (s.onRow r f).pins = s.pins := rfl
@[simp] theorem State.onRow_monitor : (s.onRow r f).monitor = s.monitor := rfl
@[simp] theorem State.onRow_line : (s.onRow r f).line = { s.line with rows := s.line.rows.modify r f } := rfl
@[simp] theorem State.onRow_load : (s.onRow r f).load = s.load := rfl
@[simp] theorem State.onRow_child : (s.onRow r f).child = s.child := rfl
@[simp] theorem State.onRow_cls : (s.onRow r f).cls = s.cls := rfl
@[simp] theorem State.onRow_pub : (s.onRow r f).pub = s.pub := rfl
@[simp] theorem State.onRow_rem : (s.onRow r f).rem = s.rem := rfl
@[simp] theorem State.onRow_cadence : (s.onRow r f).cadence = s.cadence := rfl
@[simp] theorem State.onRow_port : (s.onRow r f).port = s.port := rfl
@[simp] theorem State.onRow_body : (s.onRow r f).body = s.body := rfl
@[simp] theorem State.onRow_settings : (s.onRow r f).settings = s.settings := rfl
@[simp] theorem State.onRow_pending : (s.onRow r f).pending = s.pending := rfl

end

section
variable (s : State) (p : Pos) (f : LoadState → LoadState)

@[simp] theorem State.onLoad_straps : (s.onLoad p f).straps = s.straps := rfl
@[simp] theorem State.onLoad_pins : (s.onLoad p f).pins = s.pins := rfl
@[simp] theorem State.onLoad_monitor : (s.onLoad p f).monitor = s.monitor := rfl
@[simp] theorem State.onLoad_line : (s.onLoad p f).line = s.line := rfl
@[simp] theorem State.onLoad_load : (s.onLoad p f).load = s.load.modify p f := rfl
@[simp] theorem State.onLoad_child : (s.onLoad p f).child = s.child := rfl
@[simp] theorem State.onLoad_cls : (s.onLoad p f).cls = s.cls := rfl
@[simp] theorem State.onLoad_pub : (s.onLoad p f).pub = s.pub := rfl
@[simp] theorem State.onLoad_rem : (s.onLoad p f).rem = s.rem := rfl
@[simp] theorem State.onLoad_cadence : (s.onLoad p f).cadence = s.cadence := rfl
@[simp] theorem State.onLoad_port : (s.onLoad p f).port = s.port := rfl
@[simp] theorem State.onLoad_body : (s.onLoad p f).body = s.body := rfl
@[simp] theorem State.onLoad_settings : (s.onLoad p f).settings = s.settings := rfl
@[simp] theorem State.onLoad_pending : (s.onLoad p f).pending = s.pending := rfl

end

section
variable (s : State) (p : Pos) (f : ClassState → ClassState)

@[simp] theorem State.onCls_straps : (s.onCls p f).straps = s.straps := rfl
@[simp] theorem State.onCls_pins : (s.onCls p f).pins = s.pins := rfl
@[simp] theorem State.onCls_monitor : (s.onCls p f).monitor = s.monitor := rfl
@[simp] theorem State.onCls_line : (s.onCls p f).line = s.line := rfl
@[simp] theorem State.onCls_load : (s.onCls p f).load = s.load := rfl
@[simp] theorem State.onCls_child : (s.onCls p f).child = s.child := rfl
@[simp] theorem State.onCls_cls : (s.onCls p f).cls = s.cls.modify p f := rfl
@[simp] theorem State.onCls_pub : (s.onCls p f).pub = s.pub := rfl
@[simp] theorem State.onCls_rem : (s.onCls p f).rem = s.rem := rfl
@[simp] theorem State.onCls_cadence : (s.onCls p f).cadence = s.cadence := rfl
@[simp] theorem State.onCls_port : (s.onCls p f).port = s.port := rfl
@[simp] theorem State.onCls_body : (s.onCls p f).body = s.body := rfl
@[simp] theorem State.onCls_settings : (s.onCls p f).settings = s.settings := rfl
@[simp] theorem State.onCls_pending : (s.onCls p f).pending = s.pending := rfl

end

section
variable (s : State) (p : Pos) (f : Reminder → Reminder)

@[simp] theorem State.onRem_straps : (s.onRem p f).straps = s.straps := rfl
@[simp] theorem State.onRem_pins : (s.onRem p f).pins = s.pins := rfl
@[simp] theorem State.onRem_monitor : (s.onRem p f).monitor = s.monitor := rfl
@[simp] theorem State.onRem_line : (s.onRem p f).line = s.line := rfl
@[simp] theorem State.onRem_load : (s.onRem p f).load = s.load := rfl
@[simp] theorem State.onRem_child : (s.onRem p f).child = s.child := rfl
@[simp] theorem State.onRem_cls : (s.onRem p f).cls = s.cls := rfl
@[simp] theorem State.onRem_pub : (s.onRem p f).pub = s.pub := rfl
@[simp] theorem State.onRem_rem : (s.onRem p f).rem = s.rem.modify p f := rfl
@[simp] theorem State.onRem_cadence : (s.onRem p f).cadence = s.cadence := rfl
@[simp] theorem State.onRem_port : (s.onRem p f).port = s.port := rfl
@[simp] theorem State.onRem_body : (s.onRem p f).body = s.body := rfl
@[simp] theorem State.onRem_settings : (s.onRem p f).settings = s.settings := rfl
@[simp] theorem State.onRem_pending : (s.onRem p f).pending = s.pending := rfl

end

section
variable (s : State) (p : Pos) (f : Coil → Coil)

@[simp] theorem State.onCoil_straps : (s.onCoil p f).straps = s.straps := rfl
@[simp] theorem State.onCoil_pins : (s.onCoil p f).pins = s.pins := rfl
@[simp] theorem State.onCoil_monitor : (s.onCoil p f).monitor = s.monitor := rfl
@[simp] theorem State.onCoil_line : (s.onCoil p f).line = s.line := rfl
@[simp] theorem State.onCoil_load : (s.onCoil p f).load = s.load := rfl
@[simp] theorem State.onCoil_child : (s.onCoil p f).child = { s.child with coils := s.child.coils.modify p f } := rfl
@[simp] theorem State.onCoil_cls : (s.onCoil p f).cls = s.cls := rfl
@[simp] theorem State.onCoil_pub : (s.onCoil p f).pub = s.pub := rfl
@[simp] theorem State.onCoil_rem : (s.onCoil p f).rem = s.rem := rfl
@[simp] theorem State.onCoil_cadence : (s.onCoil p f).cadence = s.cadence := rfl
@[simp] theorem State.onCoil_port : (s.onCoil p f).port = s.port := rfl
@[simp] theorem State.onCoil_body : (s.onCoil p f).body = s.body := rfl
@[simp] theorem State.onCoil_settings : (s.onCoil p f).settings = s.settings := rfl
@[simp] theorem State.onCoil_pending : (s.onCoil p f).pending = s.pending := rfl

end

/-! ### One row's record, one position's coil -/

theorem State.row_onRow (s : State) (r q : Row) (f : RowRecord → RowRecord) :
    (s.onRow r f).row q = if q = r then f (s.row q) else s.row q := PerRow.get_modify _ _ _ _

@[simp] theorem State.row_onRow_self (s : State) (r : Row) (f : RowRecord → RowRecord) :
    (s.onRow r f).row r = f (s.row r) := PerRow.get_modify_self _ _ _

theorem State.coil_onCoil (s : State) (p q : Pos) (f : Coil → Coil) :
    (s.onCoil p f).coil q = if q = p then f (s.coil q) else s.coil q := PerPos.get_modify _ _ _ _

@[simp] theorem State.coil_onCoil_self (s : State) (p : Pos) (f : Coil → Coil) :
    (s.onCoil p f).coil p = f (s.coil p) := PerPos.get_modify_self _ _ _

@[simp] theorem State.row_onMonitor (s : State) (f : Monitor → Monitor) (q : Row) : (s.onMonitor f).row q = s.row q := rfl
@[simp] theorem State.row_onChild (s : State) (f : ChildUnit → ChildUnit) (q : Row) : (s.onChild f).row q = s.row q := rfl
@[simp] theorem State.row_onPub (s : State) (f : Publication → Publication) (q : Row) : (s.onPub f).row q = s.row q := rfl
@[simp] theorem State.row_onCadence (s : State) (f : Cadence → Cadence) (q : Row) : (s.onCadence f).row q = s.row q := rfl
@[simp] theorem State.row_onPort (s : State) (f : Restraint → Restraint) (q : Row) : (s.onPort f).row q = s.row q := rfl
@[simp] theorem State.row_onBody (s : State) (f : Body → Body) (q : Row) : (s.onBody f).row q = s.row q := rfl
@[simp] theorem State.row_onSettings (s : State) (f : Settings → Settings) (q : Row) : (s.onSettings f).row q = s.row q := rfl
@[simp] theorem State.row_onPins (s : State) (f : Pins → Pins) (q : Row) : (s.onPins f).row q = s.row q := rfl
@[simp] theorem State.row_onLoad (s : State) (p : Pos) (f : LoadState → LoadState) (q : Row) : (s.onLoad p f).row q = s.row q := rfl
@[simp] theorem State.row_onCls (s : State) (p : Pos) (f : ClassState → ClassState) (q : Row) : (s.onCls p f).row q = s.row q := rfl
@[simp] theorem State.row_onRem (s : State) (p : Pos) (f : Reminder → Reminder) (q : Row) : (s.onRem p f).row q = s.row q := rfl
@[simp] theorem State.row_onCoil (s : State) (p : Pos) (f : Coil → Coil) (q : Row) : (s.onCoil p f).row q = s.row q := rfl
@[simp] theorem State.coil_onMonitor (s : State) (f : Monitor → Monitor) (q : Pos) : (s.onMonitor f).coil q = s.coil q := rfl
@[simp] theorem State.coil_onLine (s : State) (f : RowLine → RowLine) (q : Pos) : (s.onLine f).coil q = s.coil q := rfl
@[simp] theorem State.coil_onPub (s : State) (f : Publication → Publication) (q : Pos) : (s.onPub f).coil q = s.coil q := rfl
@[simp] theorem State.coil_onCadence (s : State) (f : Cadence → Cadence) (q : Pos) : (s.onCadence f).coil q = s.coil q := rfl
@[simp] theorem State.coil_onPort (s : State) (f : Restraint → Restraint) (q : Pos) : (s.onPort f).coil q = s.coil q := rfl
@[simp] theorem State.coil_onBody (s : State) (f : Body → Body) (q : Pos) : (s.onBody f).coil q = s.coil q := rfl
@[simp] theorem State.coil_onSettings (s : State) (f : Settings → Settings) (q : Pos) : (s.onSettings f).coil q = s.coil q := rfl
@[simp] theorem State.coil_onPins (s : State) (f : Pins → Pins) (q : Pos) : (s.onPins f).coil q = s.coil q := rfl
@[simp] theorem State.coil_onRow (s : State) (r : Row) (f : RowRecord → RowRecord) (q : Pos) : (s.onRow r f).coil q = s.coil q := rfl
@[simp] theorem State.coil_onLoad (s : State) (p : Pos) (f : LoadState → LoadState) (q : Pos) : (s.onLoad p f).coil q = s.coil q := rfl
@[simp] theorem State.coil_onCls (s : State) (p : Pos) (f : ClassState → ClassState) (q : Pos) : (s.onCls p f).coil q = s.coil q := rfl
@[simp] theorem State.coil_onRem (s : State) (p : Pos) (f : Reminder → Reminder) (q : Pos) : (s.onRem p f).coil q = s.coil q := rfl

end Sys2Proof.Machine
end

