-- ==== Sys2Proof/Laws/Body.lean ====
section
/-! SUPPORT. What the operations on the Body Port's queue and transmit slot leave. -/

namespace Sys2Proof.Machine

/-! ### Counting the entries in the slot -/

/-- How many entries of a queue stand in the slot. -/
def inSlotCount (q : List QueueEntry) : Nat := (q.filter (·.inSlot)).length

theorem inSlotCount_append (q r : List QueueEntry) : inSlotCount (q ++ r) = inSlotCount q + inSlotCount r := by
  simp [inSlotCount]

theorem inSlotCount_cons (e : QueueEntry) (q : List QueueEntry) :
    inSlotCount (e :: q) = (if e.inSlot then 1 else 0) + inSlotCount q := by
  unfold inSlotCount
  rw [List.filter_cons]
  split
  · rw [List.length_cons]; omega
  · rw [Nat.zero_add]

theorem inSlotCount_reverse (q : List QueueEntry) : inSlotCount q.reverse = inSlotCount q := by
  simp [inSlotCount, List.filter_reverse]

/-- What the owner of the slot's frame asks of the number of entries in the slot. -/
def slotCount (slot : Option SlotFrame) : Nat :=
  match slot with
  | some f => if f.owner = .notice then 1 else 0
  | none => 0

theorem slotInv_count {b : Body} (h : SlotInv b) : inSlotCount b.queue = slotCount b.slot := h.1

theorem slotCount_le_one (slot : Option SlotFrame) : slotCount slot ≤ 1 := by
  unfold slotCount
  split
  · split <;> omega
  · omega

/-! ### A notice enters the queue (R161) -/

theorem count_coalesced (n : Notice) : ∀ q : List QueueEntry,
    inSlotCount (q.map (fun e => if coalesces n e then coalesced n e else e))
      + inSlotCount (q.filter (coalesces n)) = inSlotCount q
  | [] => rfl
  | e :: q => by
    have ih := count_coalesced n q
    by_cases h : coalesces n e = true
    · rw [List.map_cons, List.filter_cons_of_pos h, if_pos h, inSlotCount_cons, inSlotCount_cons, inSlotCount_cons]
      have hz : (coalesced n e).inSlot = false := rfl
      rw [hz]
      simp only [Bool.false_eq_true, if_false]
      omega
    · rw [List.map_cons, List.filter_cons_of_neg h, if_neg h, inSlotCount_cons, inSlotCount_cons]
      omega

theorem any_inSlot (q : List QueueEntry) : q.any (·.inSlot) = decide (0 < inSlotCount q) := by
  rw [Bool.eq_iff_iff]
  simp only [List.any_eq_true, inSlotCount, decide_eq_true_eq, List.length_pos_iff_exists_mem, List.mem_filter]

/-- The notice bytes of the entry that stands in the slot. -/
def slotNotice (q : List QueueEntry) : Option (List Byte) := (q.find? (·.inSlot)).map (fun e => noticeBytes e.notice)

theorem slotNotice_append (q r : List QueueEntry) : slotNotice (q ++ r) = (slotNotice q).or (slotNotice r) := by
  unfold slotNotice
  rw [List.find?_append]
  cases q.find? (·.inSlot) <;> rfl

theorem slotNotice_of_none {q : List QueueEntry} (h : inSlotCount q = 0) : slotNotice q = none := by
  have : q.filter (·.inSlot) = [] := List.length_eq_zero_iff.mp h
  unfold slotNotice
  rw [← List.head?_filter, this]
  rfl

/-- Taking entries off the slot, or out of the queue, with their frame withdrawn keeps the slot in step. -/
theorem slotInv_withdraw {b : Body} (h : SlotInv b) (q taken : List QueueEntry) (resync : Bool)
    (hc : inSlotCount q + inSlotCount taken = inSlotCount b.queue)
    (hn : inSlotCount taken = 0 → slotNotice q = slotNotice b.queue) :
    SlotInv { b with queue := q, slot := withdraw b.slot taken, resync := resync } := by
  have h1 := slotInv_count h
  have h2 := slotCount_le_one b.slot
  unfold withdraw
  rw [any_inSlot]
  by_cases hp : 0 < inSlotCount taken
  · simp only [hp, decide_true, if_true]
    refine ⟨?_, trivial⟩
    show inSlotCount q = 0
    omega
  · simp only [hp, decide_false, Bool.false_eq_true, if_false]
    refine ⟨by show inSlotCount q = slotCount b.slot; omega, ?_⟩
    have h3 := hn (by omega)
    have h4 := h.2
    revert h4
    show _ → match b.slot with
      | none => True
      | some f => match f.owner with
        | .occMap => b.occMap = some f.data
        | .beltMap => b.beltMap = some f.data
        | .reply => b.reply.map replyFrameBytes = some f.data
        | .notice => slotNotice q = some f.data
    rw [h3]
    exact id

theorem count_dropYoungest (q : List QueueEntry) :
    inSlotCount (dropYoungestRoutine q) + inSlotCount (youngestRoutine q) = inSlotCount q := by
  have key : ∀ l : List QueueEntry,
      inSlotCount (l.eraseP (fun e => !e.urgent)) + inSlotCount (l.find? (fun e => !e.urgent)).toList
        = inSlotCount l := by
    intro l
    induction l with
    | nil => rfl
    | cons e l ih =>
      by_cases h : e.urgent = true
      · rw [List.eraseP_cons_of_neg (by simp [h]), List.find?_cons_of_neg (by simp [h]), inSlotCount_cons,
          inSlotCount_cons]
        omega
      · rw [List.eraseP_cons_of_pos (by simp [h]), List.find?_cons_of_pos (by simp [h]), Option.toList_some,
          inSlotCount_cons, inSlotCount_cons]
        simp only [inSlotCount, List.filter_nil, List.length_nil]
        omega
  unfold dropYoungestRoutine youngestRoutine
  rw [inSlotCount_reverse, key, inSlotCount_reverse]

/-- Entries that do not stand in the slot may coalesce without a change of the notice that does. -/
theorem slotNotice_coalesced (n : Notice) : ∀ q : List QueueEntry, inSlotCount (q.filter (coalesces n)) = 0 →
    slotNotice (q.map (fun e => if coalesces n e then coalesced n e else e)) = slotNotice q
  | [], _ => rfl
  | e :: q, h => by
    by_cases hc : coalesces n e = true
    · rw [List.filter_cons_of_pos hc, inSlotCount_cons] at h
      have he : e.inSlot = false := by
        cases hi : e.inSlot
        · rfl
        · rw [hi] at h; simp at h
      have ih := slotNotice_coalesced n q (by rw [he] at h; simpa using h)
      unfold slotNotice at ih ⊢
      rw [List.map_cons, if_pos hc, List.find?_cons_of_neg (by simp [coalesced]), List.find?_cons_of_neg (by simp [he])]
      exact ih
    · rw [List.filter_cons_of_neg hc] at h
      have ih := slotNotice_coalesced n q h
      unfold slotNotice at ih ⊢
      rw [List.map_cons, if_neg hc]
      by_cases hi : e.inSlot = true
      · rw [List.find?_cons_of_pos hi, List.find?_cons_of_pos hi]
      · rw [List.find?_cons_of_neg hi, List.find?_cons_of_neg hi]
        exact ih

/-- The youngest ROUTINE entry may leave the queue without a change of the notice in the slot, if it is not that one. -/
theorem slotNotice_dropYoungest (q : List QueueEntry) (h : inSlotCount (youngestRoutine q) = 0) :
    slotNotice (dropYoungestRoutine q) = slotNotice q := by
  unfold youngestRoutine at h
  unfold dropYoungestRoutine
  cases hf : q.reverse.find? (fun e => !e.urgent) with
  | none =>
    rw [List.eraseP_of_forall_not (by simpa using hf), List.reverse_reverse]
  | some e =>
    obtain ⟨hu, l, r, hq, hl⟩ := List.find?_eq_some_iff_append.mp hf
    rw [hf, Option.toList_some, inSlotCount_cons] at h
    have hi : e.inSlot = false := by
      cases hi : e.inSlot
      · rfl
      · rw [hi] at h; simp at h
    have he : q.reverse.eraseP (fun e => !e.urgent) = l ++ r := by
      rw [hq, List.eraseP_append_right _ (by simpa using hl), List.eraseP_cons_of_pos (p := fun e : QueueEntry => !e.urgent) hu]
    have hq2 : q = r.reverse ++ e :: l.reverse := by
      have := congrArg List.reverse hq
      simpa using this
    rw [he, hq2, List.reverse_append, slotNotice_append, slotNotice_append]
    congr 1
    unfold slotNotice
    rw [List.find?_cons_of_neg (by simp [hi])]

theorem Body.enter_slotInv {b : Body} (h : SlotInv b) (u : Bool) (n : Notice) : SlotInv (b.enter u n) := by
  unfold Body.enter
  split
  · exact slotInv_withdraw h _ _ b.resync (count_coalesced n b.queue) (slotNotice_coalesced n b.queue)
  · have hnew : ∀ q : List QueueEntry, slotNotice (q ++ [⟨n, u, false⟩]) = slotNotice q := by
      intro q
      rw [slotNotice_append]
      cases slotNotice q <;> rfl
    split
    · have := slotInv_withdraw h (b.queue ++ [⟨n, u, false⟩]) [] b.resync (by rw [inSlotCount_append]; rfl)
        (fun _ => hnew _)
      exact this
    · split
      · exact h
      · split
        · refine slotInv_withdraw h _ _ true ?_ (fun h0 => ?_)
          · rw [inSlotCount_append, ← count_dropYoungest b.queue]
            rfl
          · rw [hnew, slotNotice_dropYoungest _ h0]
        · exact h

/-- The key under which two ROUTINE entries coalesce. -/
theorem sameRoutine_coalesced (n : Notice) (x y : QueueEntry) :
    sameRoutine (if coalesces n x then coalesced n x else x) (if coalesces n y then coalesced n y else y)
      ↔ sameRoutine x y := by
  unfold sameRoutine
  split <;> split <;> rfl

theorem Body.enter_queueInv {b : Body} (h : QueueInv b) (u : Bool) (n : Notice) : QueueInv (b.enter u n) := by
  obtain ⟨h1, h2, h3⟩ := h
  unfold Body.enter
  split
  · refine ⟨by simpa using h1, ?_, h3⟩
    exact List.pairwise_map.mpr (h2.imp (fun hxy hc => hxy ((sameRoutine_coalesced n _ _).mp hc)))
  · rename_i hno
    have fresh : ∀ x ∈ b.queue, ¬ sameRoutine x ⟨n, u, false⟩ := by
      rintro x hx ⟨e1, e2, e3, e4⟩
      refine hno ?_
      simp only at e2 e3 e4
      subst e2
      simp only [Bool.not_false, Bool.true_and, List.any_eq_true]
      exact ⟨x, hx, by simp [coalesces, e1, e3, e4]⟩
    split
    · rename_i hl
      refine ⟨by simpa using hl, ?_, h3⟩
      refine List.pairwise_append.mpr ⟨h2, List.pairwise_singleton _ _, ?_⟩
      intro x hx y hy
      rw [List.mem_singleton.mp hy]
      exact fresh x hx
    · split
      · exact ⟨h1, h2, h3⟩
      · split
        · rename_i hany
          have sub : (dropYoungestRoutine b.queue).Sublist b.queue := by
            have := (List.eraseP_sublist (l := b.queue.reverse) (p := fun e => !e.urgent)).reverse
            rwa [List.reverse_reverse] at this
          have len : (dropYoungestRoutine b.queue).length + 1 = b.queue.length := by
            obtain ⟨a, ha, hu⟩ := List.any_eq_true.mp hany
            unfold dropYoungestRoutine
            have hb := List.length_eraseP_of_mem (p := fun e : QueueEntry => !e.urgent) (List.mem_reverse.mpr ha) hu
            have hpos := List.length_pos_of_mem ha
            rw [List.length_reverse, hb, List.length_reverse]
            omega
          refine ⟨by simp only [List.length_append, List.length_singleton]; omega, ?_, h3⟩
          refine List.pairwise_append.mpr ⟨h2.sublist sub, List.pairwise_singleton _ _, ?_⟩
          intro x hx y hy
          rw [List.mem_singleton.mp hy]
          exact fresh x (sub.subset hx)
        · exact ⟨h1, h2, h3⟩

/-- Entering a notice changes the queue, RESYNC and, by a withdrawal, the slot alone. -/
theorem Body.enter_rest (b : Body) (u : Bool) (n : Notice) :
    b.enter u n = { b with
      queue := (b.enter u n).queue, resync := (b.enter u n).resync, slot := (b.enter u n).slot } := by
  unfold Body.enter
  split
  · rfl
  · split
    · rfl
    · split
      · rfl
      · split <;> rfl

/-! ### The arbiter's choice (R162) -/

/-- The queue with one entry put in the slot: the entry is chosen, and the others stand as they were. -/
theorem chooseEntry_spec (p : QueueEntry → Bool) : ∀ (older : List Subject) (q : List QueueEntry)
    (x : QueueEntry × List QueueEntry), chooseEntry p older q = some x →
    ∃ l r, q = l ++ x.1 :: r ∧ x.2 = l ++ { x.1 with inSlot := true } :: r ∧ p x.1 = true
  | _, [], x, h => by simp [chooseEntry] at h
  | older, e :: rest, x, h => by
    unfold chooseEntry at h
    split at h
    · rename_i hp
      simp only [Option.some.injEq] at h
      subst h
      exact ⟨[], rest, rfl, rfl, by simp_all⟩
    · simp only [Option.map_eq_some_iff] at h
      obtain ⟨y, hy, rfl⟩ := h
      obtain ⟨l, r, h1, h2, h3⟩ := chooseEntry_spec p _ rest y hy
      exact ⟨e :: l, r, by simp [h1], by simp [h2], h3⟩

theorem chooseNotice_spec {b : Body} {x : QueueEntry × List QueueEntry} (h : chooseNotice b = some x) :
    ∃ l r, b.queue = l ++ x.1 :: r ∧ x.2 = l ++ { x.1 with inSlot := true } :: r := by
  unfold chooseNotice at h
  dsimp only at h
  split at h
  · rename_i y hy
    split at hy
    · cases h
      obtain ⟨l, r, h1, h2, -⟩ := chooseEntry_spec _ _ _ _ hy
      exact ⟨l, r, h1, h2⟩
    · cases hy
  · split at h
    · rename_i z hz
      cases h
      obtain ⟨l, r, h1, h2, -⟩ := chooseEntry_spec _ _ _ _ hz
      exact ⟨l, r, h1, h2⟩
    · obtain ⟨l, r, h1, h2, -⟩ := chooseEntry_spec _ _ _ _ h
      exact ⟨l, r, h1, h2⟩

/-- The arbiter's choice leaves the notices and their classes in their order. -/
theorem chooseNotice_notices {b : Body} {x : QueueEntry × List QueueEntry} (h : chooseNotice b = some x) :
    x.2.map (·.notice) = b.queue.map (·.notice) := by
  obtain ⟨l, r, h1, h2⟩ := chooseNotice_spec h
  simp [h1, h2]

theorem sameRoutine_inSlot (e x : QueueEntry) (v : Bool) :
    (sameRoutine { e with inSlot := v } x ↔ sameRoutine e x) ∧ (sameRoutine x { e with inSlot := v } ↔ sameRoutine x e) :=
  ⟨Iff.rfl, Iff.rfl⟩

theorem placeAny_queueInv {b : Body} (g : Groups) (h : QueueInv b) : QueueInv (placeAny g b) := by
  unfold placeAny
  split
  · exact h
  · exact h
  · exact h
  · rename_i x _ _ _ hx
    obtain ⟨l, r, h1, h2⟩ := chooseNotice_spec hx
    obtain ⟨a1, a2, a3⟩ := h
    refine ⟨?_, ?_, a3⟩
    · show x.2.length ≤ 24
      rw [h1] at a1
      rw [h2]
      simpa using a1
    · show x.2.Pairwise _
      rw [h1] at a2
      rw [h2]
      rw [List.pairwise_append, List.pairwise_cons] at a2 ⊢
      refine ⟨a2.1, ⟨a2.2.1.1, a2.2.1.2⟩, ?_⟩
      intro y hy z hz
      rcases List.mem_cons.mp hz with rfl | hz
      · exact a2.2.2 y hy x.1 (List.mem_cons_self ..)
      · exact a2.2.2 y hy z (List.mem_cons_of_mem _ hz)
  · exact h

theorem placeAny_slotInv {b : Body} (g : Groups) (h : SlotInv b) (he : b.slot = none) : SlotInv (placeAny g b) := by
  have hc : inSlotCount b.queue = 0 := by rw [slotInv_count h, he]; rfl
  unfold placeAny
  split
  · rename_i hm
    exact ⟨hc, hm⟩
  · rename_i hm
    exact ⟨hc, hm⟩
  · rename_i hr
    exact ⟨hc, by show b.reply.map replyFrameBytes = _; rw [hr]; rfl⟩
  · rename_i x _ _ _ hx
    obtain ⟨l, r, h1, h2⟩ := chooseNotice_spec hx
    rw [h1, inSlotCount_append, inSlotCount_cons] at hc
    refine ⟨?_, ?_⟩
    · show inSlotCount x.2 = 1
      rw [h2, inSlotCount_append, inSlotCount_cons]
      simp only [if_true]
      omega
    · show slotNotice x.2 = some (noticeBytes x.1.notice)
      rw [h2, slotNotice_append, slotNotice_of_none (q := l) (by omega)]
      rfl
  · exact h

theorem placeReply_slotInv {b : Body} (g : Groups) (h : SlotInv b) (he : b.slot = none) :
    SlotInv (placeReply g b) := by
  have hc : inSlotCount b.queue = 0 := by rw [slotInv_count h, he]; rfl
  unfold placeReply
  split
  · rename_i r hr
    exact ⟨hc, by show b.reply.map replyFrameBytes = _; rw [hr]; rfl⟩
  · exact h

theorem placeReply_queueInv {b : Body} (g : Groups) (h : QueueInv b) : QueueInv (placeReply g b) := by
  unfold placeReply
  split <;> exact h

/-! ### The transmitter (R159) -/

theorem Body.replySent_queue (b : Body) : b.replySent.queue = b.queue ∧ b.replySent.urgentCount = b.urgentCount
    ∧ b.replySent.slot = b.slot := by
  unfold Body.replySent
  split
  · exact ⟨rfl, rfl, rfl⟩
  · split <;> exact ⟨rfl, rfl, rfl⟩

theorem Body.noticeSent_queueInv {b : Body} (h : QueueInv b) : QueueInv b.noticeSent := by
  obtain ⟨a1, a2, a3⟩ := h
  unfold Body.noticeSent
  split
  · exact ⟨a1, a2, a3⟩
  · refine ⟨Nat.le_trans List.length_eraseP_le a1, a2.sublist List.eraseP_sublist, ?_⟩
    show urgentCountAfter _ _ ≤ 3
    unfold urgentCountAfter
    split <;> omega

theorem count_eraseInSlot : ∀ q : List QueueEntry, inSlotCount (q.eraseP (·.inSlot)) = inSlotCount q - 1
  | [] => rfl
  | e :: q => by
    have ih := count_eraseInSlot q
    by_cases h : e.inSlot = true
    · rw [List.eraseP_cons_of_pos h, inSlotCount_cons, if_pos h]
      omega
    · have h0 : e.inSlot = false := by simpa using h
      rw [List.eraseP_cons_of_neg h, inSlotCount_cons, inSlotCount_cons, ih]
      simp [h0]

theorem Body.noticeSent_count {b : Body} : inSlotCount b.noticeSent.queue = inSlotCount b.queue - 1 := by
  unfold Body.noticeSent
  split
  · rename_i hn
    have : inSlotCount b.queue = 0 := by
      simp only [inSlotCount, List.length_eq_zero_iff, List.filter_eq_nil_iff]
      simpa using hn
    omega
  · exact count_eraseInSlot b.queue

theorem Body.acknowledged_queueInv {b : Body} (h : QueueInv b) : QueueInv b.acknowledged := by
  unfold Body.acknowledged
  split
  · exact h
  · dsimp only
    split
    · exact h
    · exact h
    · obtain ⟨e1, e2, -⟩ := Body.replySent_queue { b with slot := none }
      exact ⟨by rw [e1]; exact h.1, by rw [e1]; exact h.2.1, by rw [e2]; exact h.2.2⟩
    · exact Body.noticeSent_queueInv h

theorem Body.noticeSent_slot (b : Body) : b.noticeSent.slot = b.slot := by
  unfold Body.noticeSent
  split <;> rfl

theorem slotInv_of_empty {b : Body} (h1 : b.slot = none) (h2 : inSlotCount b.queue = 0) : SlotInv b := by
  refine ⟨?_, ?_⟩
  · rw [h1]; exact h2
  · rw [h1]; trivial

theorem Body.acknowledged_slotInv {b : Body} (h : SlotInv b) : SlotInv b.acknowledged := by
  have hc := slotInv_count h
  unfold Body.acknowledged
  split
  · exact h
  · rename_i f hf
    rw [hf] at hc
    dsimp only [slotCount] at hc ⊢
    split
    · rename_i ho
      exact slotInv_of_empty rfl (by rw [ho] at hc; exact hc)
    · rename_i ho
      exact slotInv_of_empty rfl (by rw [ho] at hc; exact hc)
    · rename_i ho
      obtain ⟨e1, -, e3⟩ := Body.replySent_queue { b with slot := none }
      exact slotInv_of_empty e3 (by rw [e1]; rw [ho] at hc; exact hc)
    · rename_i ho
      refine slotInv_of_empty (Body.noticeSent_slot _) ?_
      rw [Body.noticeSent_count]
      show inSlotCount b.queue - 1 = 0
      rw [ho] at hc
      simp only [if_true] at hc
      omega

theorem Body.enterBusOff_queueInv {b : Body} (h : QueueInv b) : QueueInv b.enterBusOff :=
  ⟨by simpa [Body.enterBusOff] using h.1, List.pairwise_map.mpr h.2.1, h.2.2⟩

theorem Body.enterBusOff_slotInv (b : Body) : SlotInv b.enterBusOff := by
  refine slotInv_of_empty rfl ?_
  simp [Body.enterBusOff, inSlotCount, List.filter_map, Function.comp_def]

/-! ### Updates that leave the queue and the slot -/

theorem queueInv_of_same {b c : Body} (hq : c.queue = b.queue) (hu : c.urgentCount = b.urgentCount)
    (h : QueueInv b) : QueueInv c :=
  ⟨by rw [hq]; exact h.1, by rw [hq]; exact h.2.1, by rw [hu]; exact h.2.2⟩

theorem slotInv_of_same {b c : Body} (hq : c.queue = b.queue) (hs : c.slot = b.slot) (ho : c.occMap = b.occMap)
    (hb : c.beltMap = b.beltMap) (hr : b.reply.isSome = true → c.reply = b.reply) (h : SlotInv b) : SlotInv c := by
  refine ⟨by rw [hq, hs]; exact h.1, ?_⟩
  have h2 := h.2
  rw [hs, ho, hb, hq]
  revert h2
  split
  · exact fun h2 => h2
  · split
    · exact fun h2 => h2
    · exact fun h2 => h2
    · rename_i f _ _
      intro h2
      rw [hr (by cases hb : b.reply; (· rw [hb] at h2; cases h2); rfl)]
      exact h2
    · exact fun h2 => h2

/-- Both maps replaced by a new snapshot. -/
theorem slotInv_maps {b : Body} (g : Groups) (occ belt : List Byte) (h : SlotInv b) :
    SlotInv { b with
      occMap := some occ, beltMap := some belt
      slot := replaceMapInSlot g .beltMap belt (replaceMapInSlot g .occMap occ b.slot) } := by
  obtain ⟨h1, h2⟩ := h
  cases hs : b.slot with
  | none => rw [hs] at h1; exact ⟨h1, trivial⟩
  | some f =>
    rw [hs] at h1 h2
    obtain ⟨o, i, d⟩ := f
    cases o
    · exact ⟨h1, rfl⟩
    · exact ⟨h1, rfl⟩
    · exact ⟨h1, h2⟩
    · exact ⟨h1, h2⟩

end Sys2Proof.Machine
end

