-- ==== Sys2Proof/Laws/Frames.lean ====
section
/-! SUPPORT. For each shared operation, the blocks it can change. -/

namespace Sys2Proof.Machine

set_option Elab.async false

/-! ### Composing frames -/

theorem ChangesOnly.refl (bs : List Block) (s : State) : ChangesOnly bs s s := by
  intro b _
  cases b <;> rfl

theorem Block.same_trans {s t u : State} {b : Block} (h1 : b.same s t) (h2 : b.same t u) : b.same s u := by
  cases b <;> exact Eq.trans h2 h1

/-- Every block of the first list stands in the second. -/
def blocksIn (cs bs : List Block) : Bool := cs.all (fun c => bs.contains c)

theorem mem_of_blocksIn {cs bs : List Block} (h : blocksIn cs bs = true) : ∀ b ∈ cs, b ∈ bs := by
  intro b hb
  simpa using List.all_eq_true.mp h b hb

/-- A further change of some of the blocks listed. -/
theorem ChangesOnly.andThen {bs cs : List Block} {s t u : State} (h1 : ChangesOnly bs s t) (h2 : ChangesOnly cs t u)
    (sub : blocksIn cs bs = true := by rfl) : ChangesOnly bs s u :=
  fun b hb => Block.same_trans (h1 b hb) (h2 b (fun hc => hb (mem_of_blocksIn sub b hc)))

theorem ChangesOnly.widen {bs cs : List Block} {s t : State} (h : ChangesOnly cs s t)
    (sub : blocksIn cs bs = true := by rfl) : ChangesOnly bs s t :=
  fun b hb => h b (fun hc => hb (mem_of_blocksIn sub b hc))

theorem changesOnly_forEach {α : Type} {bs : List Block} {f : α → State → State}
    (h : ∀ a s, ChangesOnly bs s (f a s)) : ∀ (l : List α) (s : State), ChangesOnly bs s (forEach l f s)
  | [], s => ChangesOnly.refl bs s
  | a :: l, s => fun b hb => Block.same_trans (h a s b hb) (changesOnly_forEach h l (f a s) b hb)

theorem changesOnly_ite {bs : List Block} {s t u : State} {c : Prop} [Decidable c] (h1 : ChangesOnly bs s t)
    (h2 : ChangesOnly bs s u) : ChangesOnly bs s (if c then t else u) := by
  split
  · exact h1
  · exact h2

/-! ### Reading a frame -/

section
variable {bs : List Block} {s t : State} (h : ChangesOnly bs s t)
include h
theorem ChangesOnly.straps (hb : bs.contains Block.straps = false := by rfl) : t.straps = s.straps :=
  h .straps (by simpa using hb)
theorem ChangesOnly.pins (hb : bs.contains Block.pins = false := by rfl) : t.pins = s.pins :=
  h .pins (by simpa using hb)
theorem ChangesOnly.monitor (hb : bs.contains Block.monitor = false := by rfl) : t.monitor = s.monitor :=
  h .monitor (by simpa using hb)
theorem ChangesOnly.line (hb : bs.contains Block.line = false := by rfl) : t.line = s.line :=
  h .line (by simpa using hb)
theorem ChangesOnly.load (hb : bs.contains Block.load = false := by rfl) : t.load = s.load :=
  h .load (by simpa using hb)
theorem ChangesOnly.child (hb : bs.contains Block.child = false := by rfl) : t.child = s.child :=
  h .child (by simpa using hb)
theorem ChangesOnly.cls (hb : bs.contains Block.cls = false := by rfl) : t.cls = s.cls :=
  h .cls (by simpa using hb)
theorem ChangesOnly.pub (hb : bs.contains Block.pub = false := by rfl) : t.pub = s.pub :=
  h .pub (by simpa using hb)
theorem ChangesOnly.rem (hb : bs.contains Block.rem = false := by rfl) : t.rem = s.rem :=
  h .rem (by simpa using hb)
theorem ChangesOnly.cadence (hb : bs.contains Block.cadence = false := by rfl) : t.cadence = s.cadence :=
  h .cadence (by simpa using hb)
theorem ChangesOnly.port (hb : bs.contains Block.port = false := by rfl) : t.port = s.port :=
  h .port (by simpa using hb)
theorem ChangesOnly.body (hb : bs.contains Block.body = false := by rfl) : t.body = s.body :=
  h .body (by simpa using hb)
theorem ChangesOnly.settings (hb : bs.contains Block.settings = false := by rfl) : t.settings = s.settings :=
  h .settings (by simpa using hb)
theorem ChangesOnly.pending (hb : bs.contains Block.pending = false := by rfl) : t.pending = s.pending :=
  h .pending (by simpa using hb)
end

/-! ### The modifiers -/

theorem changes_onMonitor (s : State) (f : Monitor → Monitor) : ChangesOnly [.monitor] s (s.onMonitor f) := by
  intro b hb; cases b <;> first | rfl | exact absurd (List.mem_cons_self ..) hb
theorem changes_onLine (s : State) (f : RowLine → RowLine) : ChangesOnly [.line] s (s.onLine f) := by
  intro b hb; cases b <;> first | rfl | exact absurd (List.mem_cons_self ..) hb
theorem changes_onChild (s : State) (f : ChildUnit → ChildUnit) : ChangesOnly [.child] s (s.onChild f) := by
  intro b hb; cases b <;> first | rfl | exact absurd (List.mem_cons_self ..) hb
theorem changes_onPub (s : State) (f : Publication → Publication) : ChangesOnly [.pub] s (s.onPub f) := by
  intro b hb; cases b <;> first | rfl | exact absurd (List.mem_cons_self ..) hb
theorem changes_onCadence (s : State) (f : Cadence → Cadence) : ChangesOnly [.cadence] s (s.onCadence f) := by
  intro b hb; cases b <;> first | rfl | exact absurd (List.mem_cons_self ..) hb
theorem changes_onPort (s : State) (f : Restraint → Restraint) : ChangesOnly [.port] s (s.onPort f) := by
  intro b hb; cases b <;> first | rfl | exact absurd (List.mem_cons_self ..) hb
theorem changes_onBody (s : State) (f : Body → Body) : ChangesOnly [.body] s (s.onBody f) := by
  intro b hb; cases b <;> first | rfl | exact absurd (List.mem_cons_self ..) hb
theorem changes_onSettings (s : State) (f : Settings → Settings) : ChangesOnly [.settings] s (s.onSettings f) := by
  intro b hb; cases b <;> first | rfl | exact absurd (List.mem_cons_self ..) hb
theorem changes_onPins (s : State) (f : Pins → Pins) : ChangesOnly [.pins] s (s.onPins f) := by
  intro b hb; cases b <;> first | rfl | exact absurd (List.mem_cons_self ..) hb
theorem changes_onRow (s : State) (r : Row) (f : RowRecord → RowRecord) : ChangesOnly [.line] s (s.onRow r f) := by
  intro b hb; cases b <;> first | rfl | exact absurd (List.mem_cons_self ..) hb
theorem changes_onLoad (s : State) (p : Pos) (f : LoadState → LoadState) : ChangesOnly [.load] s (s.onLoad p f) := by
  intro b hb; cases b <;> first | rfl | exact absurd (List.mem_cons_self ..) hb
theorem changes_onCls (s : State) (p : Pos) (f : ClassState → ClassState) : ChangesOnly [.cls] s (s.onCls p f) := by
  intro b hb; cases b <;> first | rfl | exact absurd (List.mem_cons_self ..) hb
theorem changes_onRem (s : State) (p : Pos) (f : Reminder → Reminder) : ChangesOnly [.rem] s (s.onRem p f) := by
  intro b hb; cases b <;> first | rfl | exact absurd (List.mem_cons_self ..) hb
theorem changes_onCoil (s : State) (p : Pos) (f : Coil → Coil) : ChangesOnly [.child] s (s.onCoil p f) := by
  intro b hb; cases b <;> first | rfl | exact absurd (List.mem_cons_self ..) hb

/-! ### Ops -/

theorem restartRest_changes (s : State) : ChangesOnly [.monitor] s (restartRest s) :=
  changesOnly_ite (changes_onMonitor s _) (ChangesOnly.refl _ s)

theorem notify_changes (n : Notice) (s : State) : ChangesOnly [.body] s (notify n s) := changes_onBody s _

/-! ### Reminder Engine -/

theorem remOff_changes (p : Pos) (s : State) : ChangesOnly [.rem] s (remOff p s) := changes_onRem s p _

theorem enterAudible_changes (p : Pos) (s : State) : ChangesOnly [.rem, .body] s (enterAudible p s) :=
  (changes_onRem s p _).widen.andThen (notify_changes _ _)

theorem enterVisual_changes (p : Pos) (s : State) : ChangesOnly [.rem, .body] s (enterVisual p s) := by
  unfold enterVisual
  exact changesOnly_ite ((changes_onRem s p _).widen.andThen (enterAudible_changes p _)) (changes_onRem s p _).widen

theorem enterWait_changes (p : Pos) (d : Nat) (s : State) : ChangesOnly [.rem, .body] s (enterWait p d s) :=
  changesOnly_ite (enterVisual_changes p s) (changes_onRem s p _).widen

theorem actOnResults_changes (p : Pos) (d : Nat) (s : State) : ChangesOnly [.rem, .body] s (actOnResults p d s) := by
  unfold actOnResults
  dsimp only
  split
  · exact changesOnly_ite (enterWait_changes p d s) (ChangesOnly.refl _ s)
  · exact changesOnly_ite (ChangesOnly.refl _ s) (remOff_changes p s).widen
  · exact changesOnly_ite (remOff_changes p s).widen
      (changesOnly_ite (enterAudible_changes p s) (ChangesOnly.refl _ s))
  · exact changesOnly_ite (ChangesOnly.refl _ s) (remOff_changes p s).widen
  · exact changesOnly_ite (ChangesOnly.refl _ s) (remOff_changes p s).widen

theorem evaluateLists_changes (u : Bool) (p : Pos) (s : State) :
    ChangesOnly [.rem, .body] s (evaluateLists u p s) :=
  changesOnly_ite (ChangesOnly.refl _ s) ((changes_onRem s p _).widen.andThen (actOnResults_changes p _ _))

theorem evaluateAllLists_changes (s : State) : ChangesOnly [.rem, .body] s (evaluateAllLists s) :=
  changesOnly_forEach (evaluateLists_changes false) _ s

/-- A change of a van-wide signal after `s`. -/
theorem afterVanChange_changes (b s : State) : ChangesOnly [.rem, .body] s (afterVanChange b s) :=
  changesOnly_ite (ChangesOnly.refl _ s) (evaluateAllLists_changes s)

theorem afterSeatChange_changes (u : Bool) (b : State) (p : Pos) (s : State) :
    ChangesOnly [.rem, .body] s (afterSeatChange u b p s) :=
  changesOnly_ite (ChangesOnly.refl _ s) (evaluateLists_changes u p s)

theorem silence_changes (p : Pos) (n : Nat) (s : State) : ChangesOnly [.rem, .body] s (silence p n s) :=
  (changes_onRem s p _).widen.andThen (notify_changes _ _)

theorem acknowledge_changes (m : Word16) (s : State) : ChangesOnly [.rem, .body] s (acknowledge m s) :=
  changesOnly_forEach (fun p t => changesOnly_ite (silence_changes p 2 t) (ChangesOnly.refl _ t)) _ s

theorem remIgnOff_changes (s : State) : ChangesOnly [.rem] s (remIgnOff s) :=
  changesOnly_forEach (fun p t => (remOff_changes p t).andThen (changes_onRem _ p _)) _ s

/-! ### Cadence Generator and Body Port -/

theorem takeReminders_changes (s : State) : ChangesOnly [.cadence] s (takeReminders s) := changes_onCadence s _

theorem gateOutputs_changes (s : State) : ChangesOnly [.cadence] s (gateOutputs s) := changes_onCadence s _

theorem mapsDue_changes (s : State) : ChangesOnly [.body] s (mapsDue s) := changes_onBody s _

theorem sendReply_changes (r : Reply) (s : State) : ChangesOnly [.body] s (sendReply r s) := changes_onBody s _

theorem sendWriteReply_changes (r : Reply) (s : State) : ChangesOnly [.body] s (sendWriteReply r s) :=
  changes_onBody s _

theorem arbitrate_changes (s : State) : ChangesOnly [.body] s (arbitrate s) := by
  unfold arbitrate
  exact changesOnly_ite (ChangesOnly.refl _ s) (changesOnly_ite (changes_onBody s _)
    (changesOnly_ite (changes_onBody s _) (ChangesOnly.refl _ s)))

/-! ### Publication Unit -/

theorem publishBatch_changes (ps : List Pos) (s : State) :
    ChangesOnly [.monitor, .pub, .rem, .body] s (publishBatch ps s) := by
  unfold publishBatch
  refine changesOnly_ite (ChangesOnly.refl _ s) ?_
  exact (((changes_onPub s _).widen.andThen (changesOnly_forEach (fun p t => notify_changes _ t) ps _)).andThen
    (restartRest_changes _)).andThen (changesOnly_forEach (fun p t => afterSeatChange_changes false s p t) ps _)

theorem publish_changes (s : State) : ChangesOnly [.monitor, .pub, .rem, .body] s (publish s) :=
  changesOnly_ite (changes_onPub s _).widen (publishBatch_changes _ s)

theorem takeLock_changes (n : Nat) (s : State) : ChangesOnly [.pub, .rem, .body] s (takeLock n s) :=
  (changes_onPub s _).widen.andThen (afterVanChange_changes s _)

theorem releaseLock_changes (s : State) : ChangesOnly [.monitor, .pub, .rem, .body] s (releaseLock s) :=
  ((publishBatch_changes _ s).andThen (changes_onPub _ _)).andThen (afterVanChange_changes _ _)

theorem endEvent_changes (s : State) : ChangesOnly [.cadence, .body] s (endEvent s) :=
  (takeReminders_changes s).widen.andThen (arbitrate_changes _)

theorem endWithBatch_changes (s : State) :
    ChangesOnly [.monitor, .pub, .rem, .cadence, .body] s (endWithBatch s) :=
  (publish_changes s).widen.andThen (endEvent_changes _)

/-! ### Child Seat Unit -/

theorem onEntry_changes (x : TagId) (f : Entry → Entry) (s : State) : ChangesOnly [.child] s (onEntry x f s) :=
  changes_onChild s _

theorem raiseUrgent_changes (p : Pos) (s : State) : ChangesOnly [.child] s (raiseUrgent p s) :=
  changesOnly_ite (changes_onCoil s p _) (ChangesOnly.refl _ s)

theorem setContest_changes (p : Pos) (x : Option TagId) (s : State) : ChangesOnly [.child] s (setContest p x s) :=
  changes_onCoil s p _

theorem dropContest_changes (p : Pos) (s : State) : ChangesOnly [.child] s (dropContest p s) :=
  (setContest_changes p none s).andThen (raiseUrgent_changes p _)

theorem makeMissing_changes (x : TagId) (q : Pos) (c : Nat) (s : State) :
    ChangesOnly [.child, .body] s (makeMissing x q c s) :=
  ((onEntry_changes x _ s).widen.andThen (changesOnly_forEach dropContest_changes _ _)).andThen (notify_changes _ _)

theorem placeEntry_changes (x : TagId) (p : Pos) (s : State) : ChangesOnly [.child] s (placeEntry x p s) :=
  onEntry_changes x _ s

theorem vacate_changes : ∀ (n : Nat) (m : List TagId) (q : Pos) (v : Vacating) (s : State),
    ChangesOnly [.child, .body] s (vacate n m q v s)
  | 0, _, _, _, s => ChangesOnly.refl _ s
  | n + 1, m, q, v, s => by
    unfold vacate
    split
    · exact ChangesOnly.refl _ s
    · split
      · split
        · exact ChangesOnly.refl _ s
        · exact makeMissing_changes _ _ _ s
      · refine changesOnly_ite ?_ (ChangesOnly.andThen ?_ (raiseUrgent_changes _ _))
        · exact (((vacate_changes n _ _ _ s).andThen (placeEntry_changes _ _ _)).andThen
            (setContest_changes _ none _)).andThen (notify_changes _ _)
        · exact (((vacate_changes n _ _ _ s).andThen (placeEntry_changes _ _ _)).andThen
            (setContest_changes _ none _)).andThen (notify_changes _ _)

theorem vacates_changes (q : Pos) (v : Vacating) (s : State) : ChangesOnly [.child, .body] s (vacates q v s) :=
  vacate_changes 16 [] q v s

theorem countFault_changes (p : Pos) (s : State) : ChangesOnly [.child] s (countFault p s) := changes_onCoil s p _

theorem clearFaults_changes (p : Pos) (s : State) : ChangesOnly [.child] s (clearFaults p s) := changes_onCoil s p _

theorem contestBeforeFound_changes (p : Pos) (x : TagId) (s : State) :
    ChangesOnly [.child] s (contestBeforeFound p x s) := by
  unfold contestBeforeFound
  split
  · exact ChangesOnly.refl _ s
  · refine changesOnly_ite (setContest_changes p none s) ?_
    split
    · exact changesOnly_ite (raiseUrgent_changes _ s) (ChangesOnly.refl _ s)
    · exact ChangesOnly.refl _ s

theorem foundConfirm_changes (p : Pos) (x : TagId) (o : Orientation) (s : State) :
    ChangesOnly [.child] s (foundConfirm p x o s) :=
  (placeEntry_changes x p s).andThen (onEntry_changes x _ _)

theorem foundPlace_changes (p : Pos) (x : TagId) (o : Orientation) (s : State) :
    ChangesOnly [.child, .body] s (foundPlace p x o s) := by
  unfold foundPlace
  refine ChangesOnly.andThen ?_ (notify_changes _ _)
  split
  · exact (vacates_changes p _ s).andThen (foundConfirm_changes p x o _)
  · exact (vacates_changes p _ s).andThen (changes_onChild _ _)

theorem foundMove_changes (p q : Pos) (x : TagId) (o : Orientation) (c : Nat) (s : State) :
    ChangesOnly [.child, .body] s (foundMove p q x o c s) :=
  (((vacate_changes 16 [x] p _ s).andThen (foundConfirm_changes p x o _)).andThen
    (changesOnly_forEach (fun r => setContest_changes r none) _ _)).andThen (notify_changes _ _)

theorem foundContest_changes (p q : Pos) (x : TagId) (s : State) : ChangesOnly [.child] s (foundContest p q x s) :=
  (setContest_changes p _ s).andThen (raiseUrgent_changes q _)

theorem takeFound_changes (p : Pos) (x : TagId) (o : Orientation) (s : State) :
    ChangesOnly [.child, .body] s (takeFound p x o s) := by
  unfold takeFound
  split
  · exact foundPlace_changes p x o s
  · exact changesOnly_ite (foundPlace_changes p x o s) (changesOnly_ite (foundConfirm_changes p x o s).widen
      (changesOnly_ite (foundMove_changes p _ x o _ s) (changesOnly_ite (foundMove_changes p _ x o _ s)
        (foundContest_changes p _ x s).widen)))

theorem takeNone_changes (p : Pos) (s : State) : ChangesOnly [.child, .body] s (takeNone p s) :=
  (setContest_changes p none s).widen.andThen (vacates_changes p _ _)

theorem takeResult_changes (p : Pos) (r : TagResult) (s : State) : ChangesOnly [.child, .body] s (takeResult p r s) := by
  unfold takeResult
  split
  · exact (countFault_changes p s).widen
  · exact (clearFaults_changes p s).widen.andThen (takeNone_changes p _)
  · exact ((clearFaults_changes p s).widen.andThen (contestBeforeFound_changes p _ _)).andThen
      (takeFound_changes p _ _ _)

theorem clearTagRead_changes (r : Row) (s : State) : ChangesOnly [.line, .child] s (clearTagRead r s) := by
  intro b hb
  cases b <;> first | rfl | simp at hb

theorem completeRead_changes (r : Row) (t : TagRead) (res : TagResult) (s : State) :
    ChangesOnly [.line, .child, .body] s (completeRead r t res s) :=
  changesOnly_ite (clearTagRead_changes r s).widen
    ((clearTagRead_changes r s).widen.andThen (takeResult_changes _ _ _))

theorem takeTagStatus_changes (r : Row) (st : TagStatus) (s : State) :
    ChangesOnly [.line, .child, .body] s (takeTagStatus r st s) := by
  unfold takeTagStatus
  split
  · exact changesOnly_ite (completeRead_changes r _ _ s) (ChangesOnly.refl _ s)
  · exact ChangesOnly.refl _ s

theorem abandonRead_changes (r : Row) (s : State) : ChangesOnly [.line, .child] s (abandonRead r s) := by
  unfold abandonRead
  split
  · exact ChangesOnly.refl _ s
  · exact (clearTagRead_changes r s).andThen (raiseUrgent_changes _ _)

theorem startRead_changes (p : Pos) (s : State) : ChangesOnly [.child] s (startRead p s) :=
  (changes_onCoil s p _).andThen (changes_onChild _ _)

theorem scanExpires_changes (p : Pos) (n : Nat) (s : State) : ChangesOnly [.child] s (scanExpires p n s) :=
  changesOnly_ite (changes_onCoil s p _) (ChangesOnly.refl _ s)

theorem childRowLeaves_changes (r : Row) (b : Bool) (s : State) :
    ChangesOnly [.child, .body] s (childRowLeaves r b s) :=
  (changesOnly_forEach (fun p t => changes_onCoil t p _) _ s).widen.andThen
    (changesOnly_forEach (fun p t => vacates_changes p _ t) _ _)

theorem childEnterOnline_changes (p : Pos) (s : State) : ChangesOnly [.child] s (childEnterOnline p s) :=
  changesOnly_ite (((clearFaults_changes p s).andThen (changes_onCoil _ p _)).andThen (raiseUrgent_changes p _))
    (clearFaults_changes p s)

theorem raiseAllUrgent_changes (s : State) : ChangesOnly [.child] s (raiseAllUrgent s) :=
  changesOnly_forEach raiseUrgent_changes _ s

theorem clearChildren_changes (s : State) : ChangesOnly [.child] s (clearChildren s) :=
  ((changes_onChild s _).andThen (changesOnly_forEach (fun p => setContest_changes p none) _ _)).andThen
    (raiseAllUrgent_changes _)

theorem childSleep_changes (s : State) : ChangesOnly [.child] s (childSleep s) := changes_onChild s _

theorem childWake_changes (s : State) : ChangesOnly [.child, .body] s (childWake s) := by
  unfold childWake
  refine ChangesOnly.andThen ?_ (raiseAllUrgent_changes _)
  refine changesOnly_forEach (fun p t => ?_) _ s
  split
  · exact changesOnly_ite (makeMissing_changes _ p _ t) (ChangesOnly.refl _ t)
  · exact ChangesOnly.refl _ t

theorem coilRemoved_changes (p : Pos) (s : State) : ChangesOnly [.line, .child, .body] s (coilRemoved p s) := by
  unfold coilRemoved
  refine ChangesOnly.andThen (ChangesOnly.andThen ?_ (changes_onCoil _ p _)) (changes_onRow _ _ _)
  split
  · exact (makeMissing_changes _ p _ s).widen
  · exact ChangesOnly.refl _ s

theorem coilAdded_changes (p : Pos) (s : State) : ChangesOnly [.child] s (coilAdded p s) :=
  (changesOnly_ite (changes_onCoil s p _) (ChangesOnly.refl _ s)).andThen (raiseUrgent_changes p _)

/-! ### Classifier -/

theorem updateBand_changes (p : Pos) (f : Bool) (s : State) : ChangesOnly [.child, .cls] s (updateBand p f s) :=
  changesOnly_ite (changes_onCls s p _).widen ((changes_onCls s p _).widen.andThen (raiseUrgent_changes p _))

theorem evaluate_changes (f : Bool) (p : Pos) (s : State) : ChangesOnly [.cls] s (evaluate f p s) :=
  changesOnly_ite (changes_onCls s p _) (ChangesOnly.refl _ s)

theorem evaluateEach_changes (ps : List Pos) (s : State) : ChangesOnly [.cls] s (evaluateEach ps s) :=
  changesOnly_forEach (evaluate_changes false) ps s

theorem evaluateEvidence_changes (b s : State) : ChangesOnly [.cls] s (evaluateEvidence b s) :=
  evaluateEach_changes _ s

theorem afterBuckle_changes (b : State) (p : Pos) (s : State) :
    ChangesOnly [.monitor, .rem, .body] s (afterBuckle b p s) :=
  changesOnly_ite (ChangesOnly.refl _ s) (((notify_changes _ s).widen.andThen (restartRest_changes _)).andThen
    (afterSeatChange_changes _ b p _))

theorem takeBuckle_changes (p : Pos) (r : BuckleReading) (s : State) :
    ChangesOnly [.monitor, .cls, .rem, .body] s (takeBuckle p r s) :=
  (changes_onCls s p _).widen.andThen (afterBuckle_changes s p _)

theorem takeAnchors_changes (p : Pos) (l r : AnchorReading) (s : State) :
    ChangesOnly [.child, .cls, .rem, .body] s (takeAnchors p l r s) := by
  unfold takeAnchors
  exact (changesOnly_ite (changes_onCls s p _).widen
    ((changes_onCls s p _).widen.andThen (raiseUrgent_changes p _))).andThen (afterSeatChange_changes false s p _)

theorem loseBuckle_changes (p : Pos) (s : State) : ChangesOnly [.monitor, .cls, .rem, .body] s (loseBuckle p s) :=
  (changes_onCls s p _).widen.andThen (afterBuckle_changes s p _)

/-! ### Row Line Controller -/

theorem positionsLeaveOnline_changes (r : Row) (b : Bool) (s : State) :
    ChangesOnly [.load, .child, .cls, .body] s (positionsLeaveOnline r b s) :=
  (changesOnly_forEach (fun p t => (changes_onLoad t p _).widen.andThen (changes_onCls _ p _)) _ s).andThen
    (childRowLeaves_changes r b _)

theorem evaluateRow_changes (r : Row) (b s : State) : ChangesOnly [.cls] s (evaluateRow r b s) :=
  evaluateEach_changes _ s

theorem preparePosition_changes (p : Pos) (s : State) :
    ChangesOnly [.load, .child, .cls, .rem, .body] s (preparePosition p s) :=
  (((changes_onLoad s p _).widen.andThen (changes_onCls _ p _)).andThen (childEnterOnline_changes p _)).andThen
    (afterSeatChange_changes false s p _)

theorem enterOnline_changes (r : Row) (s : State) :
    ChangesOnly [.line, .load, .child, .cls, .rem, .body] s (enterOnline r s) :=
  (((changes_onRow s r _).widen.andThen (notify_changes _ _)).andThen
    (changesOnly_forEach preparePosition_changes _ _)).andThen (evaluateRow_changes r s _)

theorem positionsFall_changes (r : Row) (w : Bool) (b s : State) :
    ChangesOnly [.monitor, .load, .child, .cls, .rem, .body] s (positionsFall r w b s) :=
  (changesOnly_ite ((positionsLeaveOnline_changes r false s).widen.andThen
    (changesOnly_forEach loseBuckle_changes _ _)) (ChangesOnly.refl _ s)).andThen (evaluateRow_changes r b _)

theorem enterFailed_changes (r : Row) (c : RowCause) (s : State) :
    ChangesOnly [.monitor, .line, .load, .child, .cls, .rem, .body] s (enterFailed r c s) :=
  ((((abandonRead_changes r s).widen.andThen (changes_onRow _ r _)).andThen (notify_changes _ _)).andThen
    (notify_changes _ _)).andThen (positionsFall_changes r _ s _)

theorem enterRecovering_changes (r : Row) (c : RowCause) (s : State) :
    ChangesOnly [.monitor, .line, .load, .child, .cls, .rem, .body] s (enterRecovering r c s) :=
  changesOnly_ite ((changes_onRow s r _).widen.andThen (enterFailed_changes r _ _))
    (((((changes_onRow s r _).widen.andThen (abandonRead_changes r _)).andThen (changes_onRow _ r _)).andThen
      (notify_changes _ _)).andThen (positionsFall_changes r _ s _))

theorem senseBecomesMated_changes (r : Row) (s : State) :
    ChangesOnly [.pins, .line] s (senseBecomesMated r s) :=
  changesOnly_ite ((changes_onPins s _).widen.andThen (changes_onRow _ r _)) (changes_onPins s _).widen

/-- The blocks an event of the row line or of a row can change. -/
def rowBlocks : List Block := [.monitor, .line, .load, .child, .cls, .pub, .rem, .cadence, .body]

theorem rowArrives_changes (r : Row) (s : State) : ChangesOnly rowBlocks s (rowArrives r s) := by
  unfold rowArrives
  refine changesOnly_ite ?_ (ChangesOnly.refl _ s)
  exact (((((changes_onRow s r _).widen.andThen (notify_changes _ _)).andThen (evaluateRow_changes r s _)).andThen
    (publish_changes _)).andThen (changesOnly_forEach (evaluateLists_changes false) _ _)).andThen
    (endWithBatch_changes _)

theorem removePosition_changes (p : Pos) (s : State) : ChangesOnly [.cls, .rem] s (removePosition p s) :=
  (changes_onCls s p _).widen.andThen (remOff_changes p _)

theorem discardExchange_changes (r : Row) (s : State) : ChangesOnly [.line] s (discardExchange r s) :=
  changes_onLine s _

theorem removeRow_changes (r : Row) (s : State) : ChangesOnly rowBlocks s (removeRow r s) :=
  (((((((discardExchange_changes r s).widen.andThen (abandonRead_changes r _)).andThen (changes_onRow _ r _)).andThen
    (notify_changes _ _)).andThen (positionsLeaveOnline_changes r true _)).andThen
    (changesOnly_forEach removePosition_changes _ _)).andThen (evaluateRow_changes r s _)).andThen
    (endWithBatch_changes _)

theorem senseReadsUnmated_changes (r : Row) (s : State) :
    ChangesOnly (.pins :: rowBlocks) s (senseReadsUnmated r s) :=
  changesOnly_ite (changes_onPins s _).widen (changesOnly_ite
    ((changes_onPins s _).widen.andThen (changes_onRow _ r _))
    ((changes_onPins s _).widen.andThen (removeRow_changes r _)))

theorem settleExpires_changes (r : Row) (s : State) : ChangesOnly rowBlocks s (settleExpires r s) := by
  unfold settleExpires
  split
  · exact changesOnly_ite (changes_onRow s r _).widen
      ((enterFailed_changes r _ s).widen.andThen (endWithBatch_changes _))
  · exact ((changes_onRow s r _).widen.andThen (evaluateRow_changes r s _)).andThen (endWithBatch_changes _)
  · exact ChangesOnly.refl _ s

theorem powerOffExpires_changes (r : Row) (s : State) : ChangesOnly [.line] s (powerOffExpires r s) :=
  changesOnly_ite (changes_onRow s r _) (ChangesOnly.refl _ s)

theorem stabilityExpires_changes (r : Row) (s : State) : ChangesOnly [.line] s (stabilityExpires r s) :=
  changesOnly_ite (changes_onRow s r _) (ChangesOnly.refl _ s)

/-- What an exchange's outcome can change before its batch. -/
def exchangeBlocks : List Block := [.monitor, .line, .load, .child, .cls, .rem, .body]

theorem enterChecking_changes (r : Row) (i : Identity) (s : State) :
    ChangesOnly exchangeBlocks s (enterChecking r i s) :=
  changesOnly_ite ((changes_onRow s r _).widen.andThen (enterOnline_changes r _))
    ((changes_onRow s r _).widen.andThen (evaluateRow_changes r s _))

theorem probeFails_changes (r : Row) (s : State) : ChangesOnly exchangeBlocks s (probeFails r s) :=
  changesOnly_ite ((changes_onRow s r _).widen.andThen (enterRecovering_changes r _ _)) (changes_onRow s r _).widen

theorem attemptFails_changes (r : Row) (s : State) : ChangesOnly exchangeBlocks s (attemptFails r s) :=
  changesOnly_ite ((changes_onRow s r _).widen.andThen (enterRecovering_changes r _ _))
    ((changes_onRow s r _).widen.andThen (changes_onRow _ r _))

theorem entryPasses_changes (r : Row) (s : State) : ChangesOnly exchangeBlocks s (entryPasses r s) :=
  changesOnly_ite (changes_onRow s r _).widen (enterOnline_changes r s).widen

theorem walkStep_changes (r : Row) (v : Word16) (s : State) : ChangesOnly exchangeBlocks s (walkStep r v s) := by
  unfold walkStep
  dsimp only
  split
  · exact changesOnly_ite (entryPasses_changes r s) (changesOnly_ite (changes_onRow s r _).widen
      (attemptFails_changes r s))
  · exact (changes_onRow s r _).widen
  · exact changesOnly_ite (entryPasses_changes r s) (attemptFails_changes r s)

theorem sampleFails_changes (r : Row) (s : State) : ChangesOnly exchangeBlocks s (sampleFails r s) :=
  changesOnly_ite ((changes_onRow s r _).widen.andThen (enterRecovering_changes r _ _)) (changes_onRow s r _).widen

theorem debounceSeat_changes (r : Row) (b : List Byte) (k : Seat) (s : State) :
    ChangesOnly exchangeBlocks s (debounceSeat r b k s) :=
  changesOnly_ite (((changes_onRow s r _).widen.andThen (takeBuckle_changes _ _ _)).andThen
    (takeAnchors_changes _ _ _ _)) (changes_onRow s r _).widen

theorem evaluateSeat_changes (b : List Byte) (p : Pos) (s : State) :
    ChangesOnly [.load, .child, .cls] s (evaluateSeat b p s) := by
  unfold evaluateSeat
  dsimp only
  have h := (changes_onLoad s p (fun l => l.take (loadSettings s p) (parseSeat b p.seat))).widen.andThen
    (changes_onCls _ p (fun c => { c with sampled := true })) (bs := [.load, .child, .cls])
  split
  · exact (h.andThen (updateBand_changes p _ _)).andThen (evaluate_changes true p _)
  · exact h.andThen (evaluate_changes false p _)

theorem deliverSample_changes (r : Row) (b : List Byte) (s : State) :
    ChangesOnly exchangeBlocks s (deliverSample r b s) :=
  ((((changes_onRow s r _).widen.andThen (changesOnly_forEach (debounceSeat_changes r b) _ _)).andThen
    (takeTagStatus_changes r _ _)).andThen (changesOnly_forEach (evaluateSeat_changes b) _ _)).andThen
    (evaluateEach_changes _ _)

theorem endExchange_changes (s : State) : ChangesOnly [.line] s (endExchange s) := changes_onLine s _

theorem exchangeFails_changes (x : Exchange) (s : State) : ChangesOnly exchangeBlocks s (exchangeFails x s) := by
  unfold exchangeFails
  split
  · exact sampleFails_changes x.row s
  · exact probeFails_changes x.row s
  · exact changesOnly_ite (ChangesOnly.refl _ s) (attemptFails_changes x.row s)
  · exact changesOnly_ite (ChangesOnly.refl _ s) (attemptFails_changes x.row s)
  · exact ChangesOnly.refl _ s

theorem exchangeGood_changes (x : Exchange) (b : List Byte) (s : State) :
    ChangesOnly exchangeBlocks s (exchangeGood x b s) := by
  unfold exchangeGood
  split
  · exact deliverSample_changes x.row b s
  · exact enterChecking_changes x.row _ s
  · exact changesOnly_ite (ChangesOnly.refl _ s) (walkStep_changes x.row _ s)
  · exact changesOnly_ite (ChangesOnly.refl _ s) (walkStep_changes x.row _ s)
  · exact ChangesOnly.refl _ s

theorem answerCompletes_changes (b : List Byte) (s : State) : ChangesOnly rowBlocks s (answerCompletes b s) := by
  unfold answerCompletes
  split
  · exact ChangesOnly.refl _ s
  · split
    · exact ((endExchange_changes s).widen.andThen (exchangeGood_changes _ b _)).andThen (endWithBatch_changes _)
    · exact ((endExchange_changes s).widen.andThen (exchangeFails_changes _ _)).andThen (endWithBatch_changes _)
    · exact ((endExchange_changes s).widen.andThen (exchangeFails_changes _ _)).andThen (endWithBatch_changes _)

theorem exchangeTimesOut_changes (s : State) : ChangesOnly rowBlocks s (exchangeTimesOut s) := by
  unfold exchangeTimesOut
  split
  · exact ChangesOnly.refl _ s
  · exact ((endExchange_changes s).widen.andThen (exchangeFails_changes _ _)).andThen (endWithBatch_changes _)

theorem sendPoll_changes (r : Row) (b : PollBody) (s : State) : ChangesOnly [.line] s (sendPoll r b s) :=
  (changes_onLine s _).andThen (changes_onRow _ r _)

theorem sendSample_changes (r : Row) (s : State) : ChangesOnly [.line, .child] s (sendSample r s) := by
  unfold sendSample
  refine changesOnly_ite (sendPoll_changes r _ s).widen ?_
  split
  · exact (sendPoll_changes r _ s).widen
  · exact ((startRead_changes _ s).widen.andThen (changes_onRow _ r _)).andThen (sendPoll_changes r _ _)

theorem sendWalk_changes (r : Row) (s : State) : ChangesOnly [.line] s (sendWalk r s) := by
  unfold sendWalk
  dsimp only
  split <;> exact sendPoll_changes r _ s

theorem carrySlot_changes (r : Row) (s : State) : ChangesOnly [.line, .child] s (carrySlot r s) := by
  unfold carrySlot
  refine changesOnly_ite (ChangesOnly.refl _ s) ?_
  split
  · exact changesOnly_ite (sendPoll_changes r _ s).widen (ChangesOnly.refl _ s)
  · exact (sendWalk_changes r s).widen
  · exact sendSample_changes r s
  · exact ChangesOnly.refl _ s
  · exact ChangesOnly.refl _ s
  · exact ChangesOnly.refl _ s

theorem takeSlot_changes (s : State) : ChangesOnly [.line, .child] s (takeSlot s) := by
  unfold takeSlot
  dsimp only
  split
  · exact (changes_onLine s _).widen.andThen (carrySlot_changes _ _)
  · exact (changes_onLine s _).widen

theorem slotExpires_changes (s : State) : ChangesOnly rowBlocks s (slotExpires s) := by
  unfold slotExpires
  split
  · exact (exchangeTimesOut_changes s).andThen (takeSlot_changes _)
  · exact ChangesOnly.refl _ s
  · exact ChangesOnly.refl _ s

end Sys2Proof.Machine
end

