-- ==== Sys2Proof/Laws/CommandFrames.lean ====
section
/-! SUPPORT. The blocks that the operations of the Monitor and of the two controller ports can change. -/

namespace Sys2Proof.Machine

set_option Elab.async false

theorem changesOnly_outsideReset {bs : List Block} {f : State → State} (s : State) (h : ChangesOnly bs s (f s)) :
    ChangesOnly bs s (outsideReset s f) :=
  changesOnly_ite (ChangesOnly.refl _ s) h

/-! ### Monitor -/

theorem releaseReset_changes (s : State) : ChangesOnly [.monitor] s (releaseReset s) :=
  changesOnly_ite (changes_onMonitor s _) (ChangesOnly.refl _ s)

theorem goLive_changes (ign : Bool) (s : State) : ChangesOnly [.monitor, .line, .cadence, .body] s (goLive ign s) :=
  (((changes_onMonitor s _).widen.andThen (changes_onLine _ _)).andThen (changes_onBody _ _)).andThen
    (gateOutputs_changes _)

/-- The blocks that the evaluations at the end of STARTING and of the wake settle change. -/
def evaluationBlocks : List Block := [.monitor, .cls, .pub, .rem, .cadence, .body]

theorem evaluateStart_changes (s : State) : ChangesOnly evaluationBlocks s (evaluateStart s) :=
  (((evaluateEach_changes _ s).widen.andThen (publish_changes _)).andThen (evaluateAllLists_changes _)).andThen
    (endEvent_changes _)

theorem autoloadEnds_changes (a : StoreAnswer) (s : State) :
    ChangesOnly [.monitor, .line, .cls, .pub, .rem, .cadence, .port, .body, .settings] s (autoloadEnds a s) := by
  unfold autoloadEnds
  refine changesOnly_ite ?_ (ChangesOnly.refl _ s)
  exact (((changes_onSettings s (fun _ => autoloaded s a)).widen.andThen (goLive_changes _ _)).andThen
    (changes_onPort _ _)).andThen (evaluateStart_changes _)

theorem ignAsserts_changes (s : State) :
    ChangesOnly [.pins, .monitor, .rem, .cadence, .body] s (ignAsserts s) :=
  have h := (changes_onPins s (fun u => { u with ignLine := true })).widen.andThen
    (changes_onMonitor _ (fun m => { m with ignDebounce := none })) (bs := [.pins, .monitor, .rem, .cadence, .body])
  changesOnly_ite h ((((h.andThen (changes_onMonitor _ _)).andThen (changes_onBody _ _)).andThen
    (evaluateAllLists_changes _)).andThen (endEvent_changes _))

theorem ignDeasserts_changes (s : State) :
    ChangesOnly [.pins, .monitor, .rem, .cadence, .body] s (ignDeasserts s) :=
  have h := (changes_onPins s (fun u => { u with ignLine := false })).widen.andThen
    (changes_onMonitor _ (fun m => { m with ignDebounce := none })) (bs := [.pins, .monitor, .rem, .cadence, .body])
  changesOnly_ite h ((((h.andThen (changes_onMonitor _ _)).andThen (changes_onBody _ _)).andThen
    (remIgnOff_changes _)).andThen (endEvent_changes _))

theorem wake_changes (s : State) : ChangesOnly [.monitor, .port, .body] s (wake s) :=
  changesOnly_ite (((changes_onMonitor s _).widen.andThen (changes_onBody _ _)).andThen (changes_onPort _ _))
    (ChangesOnly.refl _ s)

theorem takeWakeEvent_changes (w : WakeSource) (s : State) :
    ChangesOnly [.pins, .monitor, .port, .body] s (takeWakeEvent w s) := by
  unfold takeWakeEvent
  have h : ChangesOnly [.pins, .monitor, .port, .body] s
      (if w = .ignition then s.onPins (fun u => { u with ignLine := true }) else s) :=
    changesOnly_ite (changes_onPins s _).widen (ChangesOnly.refl _ s)
  have hw := h.andThen (wake_changes _)
  exact changesOnly_ite (changesOnly_ite (hw.andThen (changes_onPort _ _)) hw) h

theorem ignLineChanges_changes (b : Bool) (s : State) :
    ChangesOnly [.pins, .monitor, .port, .body] s (ignLineChanges b s) := by
  have h := (changes_onPins s (fun u => { u with ignLine := b })).widen (bs := [.pins, .monitor, .port, .body])
  exact changesOnly_ite h (changesOnly_ite (changesOnly_ite (h.andThen (wake_changes _)) h)
    (h.andThen (changes_onMonitor _ _)))

theorem abandonAll_changes (s : State) : ChangesOnly [.line, .child] s (abandonAll s) :=
  changesOnly_forEach abandonRead_changes _ s

theorem onLoads_changes (s : State) (f : PerPos LoadState → PerPos LoadState) :
    ChangesOnly [.load] s { s with load := f s.load } := by
  intro b hb
  cases b <;> first | rfl | simp at hb

theorem setHold_changes (s : State) : ChangesOnly [.monitor, .line, .load, .child] s (setHold s) := by
  unfold setHold
  refine changesOnly_ite ?_ (changes_onMonitor s _).widen
  exact ((((changes_onMonitor s _).widen.andThen (changes_onMonitor _ _)).andThen (changes_onLine _ _)).andThen
    (onLoads_changes _ (fun l => l.mapIdx (fun _ l => l.freeze)))).andThen (abandonAll_changes _)

/-- The blocks that a position's becoming stale changes. -/
def staleBlocks : List Block := [.monitor, .load, .cls, .pub, .rem, .cadence, .body]

theorem goStale_changes (p : Pos) (s : State) : ChangesOnly staleBlocks s (goStale p s) :=
  ((changes_onLoad s p _).widen.andThen (evaluate_changes false p _)).andThen (endWithBatch_changes _)

theorem clearHold_changes (s : State) : ChangesOnly (.line :: staleBlocks) s (clearHold s) := by
  unfold clearHold
  refine changesOnly_ite ?_ (changes_onMonitor s _).widen
  refine ChangesOnly.andThen (cs := staleBlocks) ?_
    (changesOnly_forEach (fun p t => changesOnly_ite (goStale_changes p t) (ChangesOnly.refl _ t)) _ _)
  exact (((changes_onMonitor s _).widen.andThen (changes_onMonitor _ _)).andThen (changes_onLine _ _)).andThen
    (onLoads_changes _ (fun l => l.mapIdx (fun _ l => l.thaw)))

theorem supplyEdge_changes (e : SupplyEdge) (s : State) : ChangesOnly [.monitor] s (supplyEdge e s) :=
  changes_onMonitor s _

theorem secondsTick_changes (s : State) : ChangesOnly [.monitor] s (secondsTick s) := changes_onMonitor s _

/-- The blocks that sleep entry changes. -/
def sleepBlocks : List Block := [.monitor, .line, .load, .child, .rem, .cadence, .port, .body]

theorem enterSleep_changes (s : State) : ChangesOnly sleepBlocks s (enterSleep s) := by
  have h : ChangesOnly sleepBlocks s (childSleep (abandonAll s)) :=
    (abandonAll_changes s).widen.andThen (childSleep_changes _)
  refine h.andThen (cs := sleepBlocks) ?_
  intro b hb
  cases b <;> first | rfl | simp [sleepBlocks] at hb

theorem restExpires_changes (s : State) : ChangesOnly sleepBlocks s (restExpires s) :=
  changesOnly_ite (changesOnly_ite (changes_onMonitor s _).widen (enterSleep_changes s)) (ChangesOnly.refl _ s)

/-! ### Restraint port -/

theorem respond_changes (r : Response) (s : State) : ChangesOnly [.monitor, .port] s (respond r s) :=
  (changes_onPort s _).widen.andThen (restartRest_changes _)

theorem takeFrame_changes {bs : List Block} {f : State → State} (s : State)
    (h : ChangesOnly (.monitor :: .port :: .body :: bs) s (f s)) :
    ChangesOnly (.monitor :: .port :: .body :: bs) s (takeFrame f s) := by
  refine changesOnly_outsideReset s (changesOnly_ite (ChangesOnly.widen (wake_changes s) ?_)
    (changesOnly_ite (ChangesOnly.widen (changes_onPort s _) ?_) h)) <;> simp [blocksIn]

theorem takeLock_respond_changes (n : Nat) (p : State → BitVec 12) (s : State) :
    ChangesOnly [.monitor, .pub, .rem, .cadence, .port, .body] s (endEvent (answerOk 0x0A p (takeLock n s))) :=
  ((takeLock_changes n s).widen.andThen (respond_changes _ _)).andThen (endEvent_changes _)

theorem answerUnlock_changes (s : State) :
    ChangesOnly [.monitor, .pub, .rem, .cadence, .port, .body] s (answerUnlock s) :=
  changesOnly_ite (((releaseLock_changes s).widen.andThen (respond_changes _ _)).andThen (endEvent_changes _))
    (respond_changes _ s).widen

theorem holdExpires_changes (s : State) :
    ChangesOnly [.monitor, .pub, .rem, .cadence, .body] s (holdExpires s) :=
  changesOnly_ite ((releaseLock_changes s).widen.andThen (endEvent_changes _)) (ChangesOnly.refl _ s)

/-! ### Body port -/

theorem takeVehicleState_changes (v g c : Byte) (s : State) :
    ChangesOnly [.monitor, .rem, .cadence, .body] s (takeVehicleState v g c s) := by
  unfold takeVehicleState
  split
  · exact ChangesOnly.refl _ s
  · rename_i g' _
    have h := (changes_onBody s (fun b => b.takeVehicle v g' (parseClosures c))).widen
      (bs := [.monitor, .rem, .cadence, .body])
    have h2 : ChangesOnly [.monitor, .rem, .cadence, .body] s
        (if s.body.vehicle.closures = parseClosures c then s.onBody (fun b => b.takeVehicle v g' (parseClosures c))
          else restartRest (s.onBody (fun b => b.takeVehicle v g' (parseClosures c)))) :=
      changesOnly_ite h (h.andThen (restartRest_changes _))
    exact (h2.andThen (afterVanChange_changes s _)).andThen (endEvent_changes _)

theorem takeMapRequest_changes (s : State) : ChangesOnly [.body] s (takeMapRequest s) :=
  changesOnly_ite (((changes_onBody s _).andThen (mapsDue_changes _)).andThen (arbitrate_changes _))
    (ChangesOnly.refl _ s)

theorem takeAck_changes (m : Word16) (s : State) : ChangesOnly [.rem, .cadence, .body] s (takeAck m s) :=
  changesOnly_ite ((acknowledge_changes m s).widen.andThen (endEvent_changes _)) (ChangesOnly.refl _ s)

theorem freshnessExpires_changes (s : State) : ChangesOnly [.rem, .cadence, .body] s (freshnessExpires s) :=
  changesOnly_ite (((changes_onBody s _).widen.andThen (afterVanChange_changes s _)).andThen (endEvent_changes _))
    (ChangesOnly.refl _ s)

theorem degradeExpires_changes (s : State) : ChangesOnly [.rem, .cadence, .body] s (degradeExpires s) :=
  changesOnly_ite (((changes_onBody s _).widen.andThen (afterVanChange_changes s _)).andThen (endEvent_changes _))
    (ChangesOnly.refl _ s)

theorem mapExpires_changes (s : State) : ChangesOnly [.body] s (mapExpires s) :=
  changesOnly_ite (((changes_onBody s _).andThen (mapsDue_changes _)).andThen (arbitrate_changes _))
    (ChangesOnly.refl _ s)

theorem transmitAcked_changes (s : State) : ChangesOnly [.body] s (transmitAcked s) :=
  changesOnly_ite ((changes_onBody s _).andThen (arbitrate_changes _)) (ChangesOnly.refl _ s)

theorem busGoesOff_changes (s : State) : ChangesOnly [.body] s (busGoesOff s) :=
  changes_onBody s _

theorem busRecovers_changes (s : State) : ChangesOnly [.body] s (busRecovers s) :=
  changesOnly_ite ((changes_onBody s _).andThen (arbitrate_changes _)) (ChangesOnly.refl _ s)

/-! ### Service requests -/

theorem answerReadParam_changes (i v : Word16) (s : State) : ChangesOnly [.body] s (answerReadParam i v s) :=
  changesOnly_ite (sendReply_changes _ s) (sendReply_changes _ s)

theorem answerWriteParam_changes (i v : Word16) (s : State) :
    ChangesOnly [.body, .settings] s (answerWriteParam i v s) := by
  unfold answerWriteParam
  dsimp only
  refine changesOnly_ite (sendReply_changes _ s).widen ?_
  split
  · exact (sendReply_changes _ s).widen
  · exact (changes_onSettings s _).widen

theorem answerClear_changes (s : State) :
    ChangesOnly [.monitor, .child, .cls, .pub, .rem, .cadence, .body] s (answerClear s) :=
  changesOnly_ite (sendReply_changes _ s).widen (changesOnly_ite (sendReply_changes _ s).widen
    (((((sendReply_changes _ s).widen.andThen (clearChildren_changes _)).andThen (evaluateEvidence_changes _ _)).andThen
      (publish_changes _)).andThen (takeReminders_changes _)))

theorem answerReadEntry_changes (i : Byte) (s : State) : ChangesOnly [.body] s (answerReadEntry i s) :=
  changesOnly_ite (sendReply_changes _ s) (sendReply_changes _ s)

theorem answerReadRow_changes (r : Byte) (s : State) : ChangesOnly [.body] s (answerReadRow r s) := by
  unfold answerReadRow
  split
  · exact sendReply_changes _ s
  · exact sendReply_changes _ s

/-! ### The completion of a write -/

theorem staleAfterWrite_changes (p : Pos) (s : State) : ChangesOnly [.load, .cls] s (staleAfterWrite p s) :=
  changesOnly_ite ((changes_onLoad s p _).widen.andThen (evaluate_changes false p _)) (ChangesOnly.refl _ s)

theorem sensorsChanged_changes (b : State) (p : Pos) (s : State) :
    ChangesOnly [.line, .child, .cls, .rem, .body] s (sensorsChanged b p s) := by
  unfold sensorsChanged
  dsimp only
  generalize hs : (if (anchorsFitted b p && !anchorsFitted s p) = true then
      evaluate false p (afterSeatChange false b p (s.onCls p ClassState.forgetAnchors)) else s) = s1
  have h : ChangesOnly [.line, .child, .cls, .rem, .body] s s1 := by
    rw [← hs]
    exact changesOnly_ite (((changes_onCls s p _).widen.andThen (afterSeatChange_changes false b p _)).andThen
      (evaluate_changes false p _)) (ChangesOnly.refl _ s)
  exact changesOnly_ite ((h.andThen (coilRemoved_changes p _)).andThen (evaluateEvidence_changes _ _))
    (changesOnly_ite (h.andThen (coilAdded_changes p _)) h)

theorem gainWritten_changes (p : Pos) (s : State) : ChangesOnly [.cls, .settings] s (gainWritten p s) := by
  unfold gainWritten
  refine changesOnly_ite (changesOnly_ite ?_ (changes_onSettings s _).widen) (ChangesOnly.refl _ s)
  exact ((changes_onSettings s _).widen.andThen (changes_onSettings _ _)).andThen (evaluateEach_changes _ _)

theorem revalidate_changes (p : Pos) (s : State) : ChangesOnly [.cls, .settings] s (revalidate p s) :=
  changesOnly_ite ((changes_onSettings s _).widen.andThen (evaluate_changes false p _)) (ChangesOnly.refl _ s)

theorem checkTableReplaced_changes (s : State) :
    ChangesOnly [.line, .load, .child, .cls, .rem, .body] s (checkTableReplaced s) := by
  unfold checkTableReplaced
  refine (changes_onLine s _).widen.andThen (cs := [.line, .load, .child, .cls, .rem, .body])
    (changesOnly_forEach (fun r t => ?_) _ _)
  exact changesOnly_ite ((changes_onRow t r _).widen.andThen (enterOnline_changes r _)) (changes_onRow t r _).widen

theorem positionEffects_changes (b : State) (p : Pos) (i : Nat) (s : State) :
    ChangesOnly [.line, .child, .cls, .rem, .body, .settings] s (positionEffects b p i s) := by
  have h : ChangesOnly [.line, .child, .cls, .rem, .body, .settings] s
      (if i = 19 then sensorsChanged b p s else s) :=
    changesOnly_ite (sensorsChanged_changes b p s).widen (ChangesOnly.refl _ s)
  exact (changesOnly_ite (h.andThen (gainWritten_changes p _)) h).andThen (revalidate_changes p _)

theorem tableEffects_changes (g i : Nat) (s : State) :
    ChangesOnly [.line, .load, .child, .cls, .rem, .body] s (tableEffects g i s) := by
  have h : ChangesOnly [.line, .load, .child, .cls, .rem, .body] s
      (if g = 19 then checkTableReplaced s else s) :=
    changesOnly_ite (checkTableReplaced_changes s) (ChangesOnly.refl _ s)
  exact changesOnly_ite (h.andThen (evaluateAllLists_changes _)) h

/-- The blocks that a completed write can change before its batch. -/
def writeBlocks : List Block := [.line, .load, .child, .cls, .rem, .body, .settings]

theorem writeEffects_changes (b : State) (g i : Nat) (s : State) :
    ChangesOnly writeBlocks s (writeEffects b g i s) := by
  unfold writeEffects
  refine (ChangesOnly.andThen (cs := [.load, .cls]) ?_ (changesOnly_forEach staleAfterWrite_changes _ _)).andThen
    (tableEffects_changes g i _)
  split
  · exact (positionEffects_changes b _ i s).widen
  · exact ChangesOnly.refl _ s

/-- The blocks that a completion of a write can change. -/
def completionBlocks : List Block := [.monitor, .line, .load, .child, .cls, .pub, .rem, .cadence, .body, .settings]

theorem writeSucceeds_changes (w : WriteInFlight) (s : State) : ChangesOnly completionBlocks s (writeSucceeds w s) :=
  ((((changes_onSettings s _).widen.andThen (writeEffects_changes s _ _ _)).andThen (publish_changes _)).andThen
    (sendWriteReply_changes _ _)).andThen (endEvent_changes _)

theorem writeFails_changes (w : WriteInFlight) (n : Option Nat) (s : State) :
    ChangesOnly [.body, .settings] s (writeFails w n s) := by
  unfold writeFails
  dsimp only
  refine ChangesOnly.andThen (ChangesOnly.andThen ?_ (sendWriteReply_changes _ _)) (arbitrate_changes _)
  split
  · exact (changes_onSettings s _).widen
  · exact changesOnly_ite ((changes_onSettings s _).widen.andThen (changes_onSettings _ _))
      (((changes_onSettings s _).widen.andThen (changes_onSettings _ _)).andThen (notify_changes _ _))

end Sys2Proof.Machine
end

