-- ==== Sys2Proof/Laws/Keeps.lean ====
section
/-! SUPPORT. For each shared operation, that it keeps the invariants of the blocks it changes: the notice queue, the
transmit slot, the tags of the child seat list, the counts of the row records and the reminder timers. -/

namespace Sys2Proof.Machine

set_option Elab.async false

/-- From `s` to `t` each of the five invariants is kept. -/
structure Keeps (s t : State) : Prop where
  queue  : QueueInv s.body → QueueInv t.body
  slot   : SlotInv s.body → SlotInv t.body
  tags   : TagsInv s.child → TagsInv t.child
  counts : (∀ r, RowCountsInv (s.row r)) → ∀ r, RowCountsInv (t.row r)
  timers : (∀ p, RemTimersInv (s.rem.get p)) → ∀ p, RemTimersInv (t.rem.get p)

theorem Keeps.refl (s : State) : Keeps s s := ⟨id, id, id, id, id⟩

theorem Keeps.andThen {s t u : State} (h1 : Keeps s t) (h2 : Keeps t u) : Keeps s u :=
  ⟨h2.queue ∘ h1.queue, h2.slot ∘ h1.slot, h2.tags ∘ h1.tags, h2.counts ∘ h1.counts, h2.timers ∘ h1.timers⟩

theorem keeps_ite {s t u : State} {c : Prop} [Decidable c] (h1 : Keeps s t) (h2 : Keeps s u) :
    Keeps s (if c then t else u) := by
  split
  · exact h1
  · exact h2

theorem keeps_forEach {α : Type} {f : α → State → State} (h : ∀ a s, Keeps s (f a s)) :
    ∀ (l : List α) (s : State), Keeps s (forEach l f s)
  | [], s => Keeps.refl s
  | a :: l, s => (h a s).andThen (keeps_forEach h l (f a s))

/-- A change that leaves the four blocks the invariants speak of. -/
theorem ChangesOnly.keeps {bs : List Block} {s t : State} (h : ChangesOnly bs s t)
    (hl : bs.contains Block.line = false := by rfl) (hc : bs.contains Block.child = false := by rfl)
    (hr : bs.contains Block.rem = false := by rfl) (hb : bs.contains Block.body = false := by rfl) : Keeps s t := by
  have el := h.line hl
  have ec := h.child hc
  have er := h.rem hr
  have eb := h.body hb
  exact ⟨by rw [eb]; exact id, by rw [eb]; exact id, by rw [ec]; exact id, by unfold State.row; rw [el]; exact id,
    by rw [er]; exact id⟩

/-! ### The modifiers -/

theorem keeps_onBody (s : State) (f : Body → Body) (hq : QueueInv s.body → QueueInv (f s.body))
    (hs : SlotInv s.body → SlotInv (f s.body)) : Keeps s (s.onBody f) :=
  ⟨hq, hs, id, id, id⟩

/-- An update of the Body Port that leaves queue, slot, maps, reply and the count of URGENT transmissions. -/
theorem keeps_onBody_same (s : State) (f : Body → Body) (hq : (f s.body).queue = s.body.queue)
    (hu : (f s.body).urgentCount = s.body.urgentCount) (hs : (f s.body).slot = s.body.slot)
    (ho : (f s.body).occMap = s.body.occMap) (hb : (f s.body).beltMap = s.body.beltMap)
    (hr : (f s.body).reply = s.body.reply) : Keeps s (s.onBody f) :=
  keeps_onBody s f (queueInv_of_same hq hu) (slotInv_of_same hq hs ho hb (fun _ => hr))

theorem keeps_onRow (s : State) (r : Row) (f : RowRecord → RowRecord)
    (hf : RowCountsInv (s.row r) → RowCountsInv (f (s.row r))) : Keeps s (s.onRow r f) := by
  refine ⟨id, id, id, fun h q => ?_, id⟩
  show RowCountsInv ((s.line.rows.modify r f).get q)
  rw [PerRow.get_modify]
  split
  · rename_i hq
    subst hq
    exact hf (h q)
  · exact h q

theorem keeps_onRem (s : State) (p : Pos) (f : Reminder → Reminder)
    (hf : RemTimersInv (s.rem.get p) → RemTimersInv (f (s.rem.get p))) : Keeps s (s.onRem p f) := by
  refine ⟨id, id, id, id, fun h q => ?_⟩
  show RemTimersInv ((s.rem.modify p f).get q)
  rw [PerPos.get_modify]
  split
  · rename_i hq
    subst hq
    exact hf (h q)
  · exact h q

theorem keeps_onCoil (s : State) (p : Pos) (f : Coil → Coil) : Keeps s (s.onCoil p f) := ⟨id, id, id, id, id⟩

theorem keeps_onChild (s : State) (f : ChildUnit → ChildUnit) (hf : TagsInv s.child → TagsInv (f s.child)) :
    Keeps s (s.onChild f) := ⟨id, id, hf, id, id⟩

/-- An update of the line that leaves the row records. -/
theorem keeps_onLine (s : State) (f : RowLine → RowLine) (hf : (f s.line).rows = s.line.rows) :
    Keeps s (s.onLine f) :=
  ⟨id, id, id, fun h r => by show RowCountsInv ((f s.line).rows.get r); rw [hf]; exact h r, id⟩

theorem restartRest_keeps (s : State) : Keeps s (restartRest s) := (restartRest_changes s).keeps

theorem notify_keeps (n : Notice) (s : State) : Keeps s (notify n s) :=
  keeps_onBody s _ (fun h => Body.enter_queueInv h _ _) (fun h => Body.enter_slotInv h _ _)

/-! ### Reminder Engine -/

theorem RemTimersInv.off (r : Reminder) : RemTimersInv { r with state := .off, delay := none, audible := none } := by
  constructor <;> simp

theorem remOff_keeps (p : Pos) (s : State) : Keeps s (remOff p s) :=
  keeps_onRem s p _ (fun _ => RemTimersInv.off _)

theorem enterAudible_keeps (p : Pos) (s : State) (h : (s.rem.get p).state ≠ .wait) : Keeps s (enterAudible p s) := by
  refine (keeps_onRem s p _ (fun hi => ?_)).andThen (notify_keeps _ _)
  have hd : ¬ (s.rem.get p).delay.isSome = true := fun hd => h (hi.1.mp hd)
  exact ⟨by simpa using hd, by simp⟩

theorem enterVisual_keeps (p : Pos) (s : State) (h : (s.rem.get p).state ≠ .audible) : Keeps s (enterVisual p s) := by
  have h1 : Keeps s (s.onRem p (fun r => { r with state := .visual, delay := none })) := by
    refine keeps_onRem s p _ (fun hi => ?_)
    have hd : ¬ (s.rem.get p).audible.isSome = true := fun hd => h (hi.2.mp hd)
    exact ⟨by simp, by simpa using hd⟩
  unfold enterVisual
  refine keeps_ite (h1.andThen (enterAudible_keeps p _ ?_)) h1
  simp [State.onRem]

theorem enterWait_keeps (p : Pos) (d : Nat) (s : State) (h : (s.rem.get p).state ≠ .audible) :
    Keeps s (enterWait p d s) := by
  refine keeps_ite (enterVisual_keeps p s h) (keeps_onRem s p _ (fun hi => ?_))
  have hd : ¬ (s.rem.get p).audible.isSome = true := fun hd => h (hi.2.mp hd)
  exact ⟨by simp, by simpa using hd⟩

theorem actOnResults_keeps (p : Pos) (d : Nat) (s : State) : Keeps s (actOnResults p d s) := by
  unfold actOnResults
  dsimp only
  split
  · rename_i h
    exact keeps_ite (enterWait_keeps p d s (by simp [h])) (Keeps.refl s)
  · exact keeps_ite (Keeps.refl s) (remOff_keeps p s)
  · rename_i h
    exact keeps_ite (remOff_keeps p s) (keeps_ite (enterAudible_keeps p s (by simp [h])) (Keeps.refl s))
  · exact keeps_ite (Keeps.refl s) (remOff_keeps p s)
  · exact keeps_ite (Keeps.refl s) (remOff_keeps p s)

theorem evaluateLists_keeps (u : Bool) (p : Pos) (s : State) : Keeps s (evaluateLists u p s) :=
  keeps_ite (Keeps.refl s) ((keeps_onRem s p _ (fun hi => hi)).andThen (actOnResults_keeps p _ _))

theorem evaluateAllLists_keeps (s : State) : Keeps s (evaluateAllLists s) :=
  keeps_forEach (evaluateLists_keeps false) _ s

theorem afterVanChange_keeps (b s : State) : Keeps s (afterVanChange b s) :=
  keeps_ite (Keeps.refl s) (evaluateAllLists_keeps s)

theorem afterSeatChange_keeps (u : Bool) (b : State) (p : Pos) (s : State) : Keeps s (afterSeatChange u b p s) :=
  keeps_ite (Keeps.refl s) (evaluateLists_keeps u p s)

theorem silence_keeps (p : Pos) (n : Nat) (s : State) (h : (s.rem.get p).state = .audible) :
    Keeps s (silence p n s) := by
  refine (keeps_onRem s p _ (fun hi => ?_)).andThen (notify_keeps _ _)
  have hd : ¬ (s.rem.get p).delay.isSome = true := fun hd => by
    have := hi.1.mp hd
    rw [h] at this
    cases this
  exact ⟨by simpa using hd, by simp⟩

theorem acknowledge_keeps (m : Word16) (s : State) : Keeps s (acknowledge m s) := by
  refine keeps_forEach (fun p t => ?_) _ s
  split
  · rename_i h
    simp only [Bool.and_eq_true, beq_iff_eq] at h
    exact silence_keeps p 2 t h.2
  · exact Keeps.refl t

theorem remIgnOff_keeps (s : State) : Keeps s (remIgnOff s) :=
  keeps_forEach (fun p t => (remOff_keeps p t).andThen (keeps_onRem _ p _ (fun hi => hi))) _ s

/-! ### Cadence Generator and Body Port -/

theorem takeReminders_keeps (s : State) : Keeps s (takeReminders s) := (takeReminders_changes s).keeps

theorem mapsDue_keeps (s : State) : Keeps s (mapsDue s) := by
  unfold mapsDue
  dsimp only
  refine keeps_onBody s _ ?_ ?_
  · exact fun h => h
  · exact fun h => slotInv_maps _ _ _ h

/-- A reply sent while none waits. -/
theorem sendReply_keeps (r : Reply) (s : State) (hn : s.body.reply = none) : Keeps s (sendReply r s) :=
  keeps_onBody s _ (fun h => h) (slotInv_of_same rfl rfl rfl rfl (fun h => by rw [hn] at h; cases h))

theorem sendWriteReply_keeps (r : Reply) (s : State) : Keeps s (sendWriteReply r s) := by
  unfold sendWriteReply
  refine keeps_onBody s _ ?_ ?_
  · intro h
    split <;> exact h
  · intro h
    split
    · exact slotInv_of_same rfl rfl rfl rfl (fun _ => rfl) h
    · rename_i hn
      exact slotInv_of_same (b := s.body) rfl rfl rfl rfl (fun hs => absurd hs hn) h

theorem arbitrate_keeps (s : State) : Keeps s (arbitrate s) := by
  unfold arbitrate
  split
  · exact Keeps.refl s
  · rename_i h
    have he : s.body.slot = none := by
      cases hs : s.body.slot with
      | none => rfl
      | some f => simp [hs] at h
    exact keeps_ite (keeps_onBody s _ (placeAny_queueInv _) (fun h => placeAny_slotInv _ h he))
      (keeps_ite (keeps_onBody s _ (placeReply_queueInv _) (fun h => placeReply_slotInv _ h he)) (Keeps.refl s))

/-! ### Publication Unit -/

theorem publishBatch_keeps (ps : List Pos) (s : State) : Keeps s (publishBatch ps s) := by
  unfold publishBatch
  refine keeps_ite (Keeps.refl s) ?_
  exact (((changes_onPub s _).keeps.andThen (keeps_forEach (fun p t => notify_keeps _ t) ps _)).andThen
    (restartRest_keeps _)).andThen (keeps_forEach (fun p t => afterSeatChange_keeps false s p t) ps _)

theorem publish_keeps (s : State) : Keeps s (publish s) :=
  keeps_ite (changes_onPub s _).keeps (publishBatch_keeps _ s)

theorem takeLock_keeps (n : Nat) (s : State) : Keeps s (takeLock n s) :=
  (changes_onPub s _).keeps.andThen (afterVanChange_keeps s _)

theorem releaseLock_keeps (s : State) : Keeps s (releaseLock s) :=
  ((publishBatch_keeps _ s).andThen (changes_onPub _ _).keeps).andThen (afterVanChange_keeps _ _)

theorem endEvent_keeps (s : State) : Keeps s (endEvent s) := (takeReminders_keeps s).andThen (arbitrate_keeps _)

theorem endWithBatch_keeps (s : State) : Keeps s (endWithBatch s) := (publish_keeps s).andThen (endEvent_keeps _)

/-! ### Child Seat Unit -/

/-- Entries changed one by one, each with its tag kept. -/
theorem tagsInv_map {c : ChildUnit} (f : Entry → Entry) (hf : ∀ e, (f e).tag = e.tag) (h : TagsInv c) :
    TagsInv { c with entries := c.entries.map f } := by
  unfold TagsInv at h ⊢
  simpa [List.map_map, Function.comp_def, hf] using h

theorem onEntry_keeps (x : TagId) (f : Entry → Entry) (hf : ∀ e, (f e).tag = e.tag) (s : State) :
    Keeps s (onEntry x f s) :=
  keeps_onChild s (fun c => { c with entries := c.entries.map (fun e => if e.tag = x then f e else e) })
    (fun h => tagsInv_map _ (fun e => by split <;> first | exact hf e | rfl) h)

theorem raiseUrgent_keeps (p : Pos) (s : State) : Keeps s (raiseUrgent p s) :=
  keeps_ite (keeps_onCoil s p _) (Keeps.refl s)

theorem setContest_keeps (p : Pos) (x : Option TagId) (s : State) : Keeps s (setContest p x s) := keeps_onCoil s p _

theorem dropContest_keeps (p : Pos) (s : State) : Keeps s (dropContest p s) :=
  (setContest_keeps p none s).andThen (raiseUrgent_keeps p _)

theorem makeMissing_keeps (x : TagId) (q : Pos) (c : Nat) (s : State) : Keeps s (makeMissing x q c s) :=
  ((onEntry_keeps x (fun e => { e with state := .missing }) (fun _ => rfl) s).andThen
    (keeps_forEach dropContest_keeps _ _)).andThen (notify_keeps _ _)

theorem placeEntry_keeps (x : TagId) (p : Pos) (s : State) : Keeps s (placeEntry x p s) :=
  onEntry_keeps x (fun e => { e with pos := p, state := .present, confirmed := s.monitor.seconds }) (fun _ => rfl) s

theorem vacate_keeps : ∀ (n : Nat) (m : List TagId) (q : Pos) (v : Vacating) (s : State), Keeps s (vacate n m q v s)
  | 0, _, _, _, s => Keeps.refl s
  | n + 1, m, q, v, s => by
    unfold vacate
    split
    · exact Keeps.refl s
    · split
      · split
        · exact Keeps.refl s
        · exact makeMissing_keeps _ _ _ s
      · refine keeps_ite ?_ (Keeps.andThen ?_ (raiseUrgent_keeps _ _))
        · exact (((vacate_keeps n _ _ _ s).andThen (placeEntry_keeps _ _ _)).andThen
            (setContest_keeps _ none _)).andThen (notify_keeps _ _)
        · exact (((vacate_keeps n _ _ _ s).andThen (placeEntry_keeps _ _ _)).andThen
            (setContest_keeps _ none _)).andThen (notify_keeps _ _)

theorem vacates_keeps (q : Pos) (v : Vacating) (s : State) : Keeps s (vacates q v s) := vacate_keeps 16 [] q v s

theorem contestBeforeFound_keeps (p : Pos) (x : TagId) (s : State) : Keeps s (contestBeforeFound p x s) := by
  unfold contestBeforeFound
  split
  · exact Keeps.refl s
  · refine keeps_ite (setContest_keeps p none s) ?_
    split
    · exact keeps_ite (raiseUrgent_keeps _ s) (Keeps.refl s)
    · exact Keeps.refl s

theorem foundConfirm_keeps (p : Pos) (x : TagId) (o : Orientation) (s : State) : Keeps s (foundConfirm p x o s) :=
  (placeEntry_keeps x p s).andThen (onEntry_keeps x (fun e => { e with orient := o }) (fun _ => rfl) _)

theorem entryOf_none {s : State} {x : TagId} (h : entryOf s x = none) : x ∉ s.child.entries.map (·.tag) := by
  intro hx
  obtain ⟨e, he, rfl⟩ := List.mem_map.mp hx
  have := List.find?_eq_none.mp h e he
  simp at this

/-- A new entry at the end of the list, after an eviction where the list is full. -/
theorem tagsInv_append {c : ChildUnit} (e : Entry) (full : Bool) (hx : e.tag ∉ c.entries.map (·.tag))
    (h : TagsInv c) : TagsInv { c with entries :=
      (if full = true then evictMissing c.entries else c.entries) ++ [e] } := by
  unfold TagsInv at h ⊢
  have sub : ((if full = true then evictMissing c.entries else c.entries).map (·.tag)).Sublist
      (c.entries.map (·.tag)) := by
    split
    · exact List.eraseP_sublist.map _
    · exact List.Sublist.refl _
  rw [List.map_append, List.nodup_append]
  refine ⟨h.sublist sub, by simp, ?_⟩
  intro a ha b hb hab
  simp only [List.map_cons, List.map_nil, List.mem_singleton] at hb
  subst hb
  subst hab
  exact hx (sub.subset ha)

theorem foundPlace_keeps (p : Pos) (x : TagId) (o : Orientation) (s : State) : Keeps s (foundPlace p x o s) := by
  unfold foundPlace
  refine Keeps.andThen ?_ (notify_keeps _ _)
  split
  · exact (vacates_keeps p _ s).andThen (foundConfirm_keeps p x o _)
  · rename_i hn
    refine (vacates_keeps p _ s).andThen (keeps_onChild _ _ (fun h => ?_))
    have := tagsInv_append ⟨x, o, .present, p, s.monitor.seconds, s.monitor.seconds⟩
      (decide (16 ≤ (vacates p ⟨causeAbsenceConfirmed, some causeDisplaced⟩ s).child.entries.length))
      (entryOf_none hn) h
    simpa only [decide_eq_true_eq] using this

theorem foundMove_keeps (p q : Pos) (x : TagId) (o : Orientation) (c : Nat) (s : State) :
    Keeps s (foundMove p q x o c s) :=
  (((vacate_keeps 16 [x] p _ s).andThen (foundConfirm_keeps p x o _)).andThen
    (keeps_forEach (fun r => setContest_keeps r none) _ _)).andThen (notify_keeps _ _)

theorem takeFound_keeps (p : Pos) (x : TagId) (o : Orientation) (s : State) : Keeps s (takeFound p x o s) := by
  unfold takeFound
  split
  · exact foundPlace_keeps p x o s
  · exact keeps_ite (foundPlace_keeps p x o s) (keeps_ite (foundConfirm_keeps p x o s)
      (keeps_ite (foundMove_keeps p _ x o _ s) (keeps_ite (foundMove_keeps p _ x o _ s)
        ((setContest_keeps p _ s).andThen (raiseUrgent_keeps _ _)))))

theorem takeResult_keeps (p : Pos) (r : TagResult) (s : State) : Keeps s (takeResult p r s) := by
  unfold takeResult
  split
  · exact keeps_onCoil s p _
  · exact ((keeps_onCoil s p _).andThen (setContest_keeps p none _)).andThen (vacates_keeps p _ _)
  · exact ((keeps_onCoil s p _).andThen (contestBeforeFound_keeps p _ _)).andThen (takeFound_keeps p _ _ _)

theorem clearTagRead_keeps (r : Row) (s : State) : Keeps s (clearTagRead r s) :=
  (keeps_onRow s r (fun x => { x with tagRead := none }) (fun h => h)).andThen ⟨id, id, id, id, id⟩

theorem completeRead_keeps (r : Row) (t : TagRead) (res : TagResult) (s : State) : Keeps s (completeRead r t res s) :=
  keeps_ite (clearTagRead_keeps r s) ((clearTagRead_keeps r s).andThen (takeResult_keeps _ _ _))

theorem takeTagStatus_keeps (r : Row) (st : TagStatus) (s : State) : Keeps s (takeTagStatus r st s) := by
  unfold takeTagStatus
  split
  · exact keeps_ite (completeRead_keeps r _ _ s) (Keeps.refl s)
  · exact Keeps.refl s

theorem abandonRead_keeps (r : Row) (s : State) : Keeps s (abandonRead r s) := by
  unfold abandonRead
  split
  · exact Keeps.refl s
  · exact (clearTagRead_keeps r s).andThen (raiseUrgent_keeps _ _)

theorem startRead_keeps (p : Pos) (s : State) : Keeps s (startRead p s) :=
  ⟨id, id, id, id, id⟩

theorem scanExpires_keeps (p : Pos) (n : Nat) (s : State) : Keeps s (scanExpires p n s) :=
  keeps_ite (keeps_onCoil s p _) (Keeps.refl s)

theorem childRowLeaves_keeps (r : Row) (b : Bool) (s : State) : Keeps s (childRowLeaves r b s) :=
  (keeps_forEach (fun p t => keeps_onCoil t p _) _ s).andThen (keeps_forEach (fun p t => vacates_keeps p _ t) _ _)

theorem childEnterOnline_keeps (p : Pos) (s : State) : Keeps s (childEnterOnline p s) :=
  keeps_ite (((keeps_onCoil s p _).andThen (keeps_onCoil _ p _)).andThen (raiseUrgent_keeps p _)) (keeps_onCoil s p _)

theorem clearChildren_keeps (s : State) : Keeps s (clearChildren s) :=
  ((keeps_onChild s (fun c => { c with entries := [] }) (fun _ => List.nodup_nil)).andThen
    (keeps_forEach (fun p => setContest_keeps p none) _ _)).andThen (keeps_forEach raiseUrgent_keeps _ _)

theorem childSleep_keeps (s : State) : Keeps s (childSleep s) :=
  keeps_onChild s _ (fun h => tagsInv_map provisionalEntry (fun e => by unfold provisionalEntry; split <;> rfl) h)

theorem childWake_keeps (s : State) : Keeps s (childWake s) := by
  unfold childWake
  refine Keeps.andThen ?_ (keeps_forEach raiseUrgent_keeps _ _)
  refine keeps_forEach (fun p t => ?_) _ s
  split
  · exact keeps_ite (makeMissing_keeps _ p _ t) (Keeps.refl t)
  · exact Keeps.refl t

theorem coilRemoved_keeps (p : Pos) (s : State) : Keeps s (coilRemoved p s) := by
  unfold coilRemoved
  refine Keeps.andThen (Keeps.andThen ?_ (keeps_onCoil _ p _)) (keeps_onRow _ _ _ (fun h => h))
  split
  · exact makeMissing_keeps _ p _ s
  · exact Keeps.refl s

theorem coilAdded_keeps (p : Pos) (s : State) : Keeps s (coilAdded p s) :=
  (keeps_ite (keeps_onCoil s p _) (Keeps.refl s)).andThen (raiseUrgent_keeps p _)

/-! ### Classifier -/

theorem updateBand_keeps (p : Pos) (f : Bool) (s : State) : Keeps s (updateBand p f s) :=
  keeps_ite (changes_onCls s p _).keeps ((changes_onCls s p _).keeps.andThen (raiseUrgent_keeps p _))

theorem evaluate_keeps (f : Bool) (p : Pos) (s : State) : Keeps s (evaluate f p s) := (evaluate_changes f p s).keeps

theorem evaluateEach_keeps (ps : List Pos) (s : State) : Keeps s (evaluateEach ps s) :=
  (evaluateEach_changes ps s).keeps

theorem afterBuckle_keeps (b : State) (p : Pos) (s : State) : Keeps s (afterBuckle b p s) :=
  keeps_ite (Keeps.refl s) (((notify_keeps _ s).andThen (restartRest_keeps _)).andThen
    (afterSeatChange_keeps _ b p _))

theorem takeBuckle_keeps (p : Pos) (r : BuckleReading) (s : State) : Keeps s (takeBuckle p r s) :=
  (changes_onCls s p _).keeps.andThen (afterBuckle_keeps s p _)

theorem takeAnchors_keeps (p : Pos) (l r : AnchorReading) (s : State) : Keeps s (takeAnchors p l r s) := by
  unfold takeAnchors
  exact (keeps_ite (changes_onCls s p _).keeps
    ((changes_onCls s p _).keeps.andThen (raiseUrgent_keeps p _))).andThen (afterSeatChange_keeps false s p _)

theorem loseBuckle_keeps (p : Pos) (s : State) : Keeps s (loseBuckle p s) :=
  (changes_onCls s p _).keeps.andThen (afterBuckle_keeps s p _)

/-! ### Row Line Controller -/

theorem positionsLeaveOnline_keeps (r : Row) (b : Bool) (s : State) : Keeps s (positionsLeaveOnline r b s) :=
  (keeps_forEach (fun p t => (changes_onLoad t p _).keeps.andThen (changes_onCls _ p _).keeps) _ s).andThen
    (childRowLeaves_keeps r b _)

theorem evaluateRow_keeps (r : Row) (b s : State) : Keeps s (evaluateRow r b s) := evaluateEach_keeps _ s

theorem preparePosition_keeps (p : Pos) (s : State) : Keeps s (preparePosition p s) :=
  (((changes_onLoad s p _).keeps.andThen (changes_onCls _ p _).keeps).andThen (childEnterOnline_keeps p _)).andThen
    (afterSeatChange_keeps false s p _)

theorem enterOnline_keeps (r : Row) (s : State) : Keeps s (enterOnline r s) :=
  (((keeps_onRow s r _ (fun h => ⟨h.1, h.2.1, Nat.zero_le _, h.2.2.2⟩)).andThen (notify_keeps _ _)).andThen
    (keeps_forEach preparePosition_keeps _ _)).andThen (evaluateRow_keeps r s _)

theorem positionsFall_keeps (r : Row) (w : Bool) (b s : State) : Keeps s (positionsFall r w b s) :=
  (keeps_ite ((positionsLeaveOnline_keeps r false s).andThen (keeps_forEach loseBuckle_keeps _ _))
    (Keeps.refl s)).andThen (evaluateRow_keeps r b _)

theorem enterFailed_keeps (r : Row) (c : RowCause) (s : State) : Keeps s (enterFailed r c s) :=
  ((((abandonRead_keeps r s).andThen (keeps_onRow _ r _ (fun h => ⟨h.1, h.2.1, Nat.zero_le _, h.2.2.2⟩))).andThen
    (notify_keeps _ _)).andThen (notify_keeps _ _)).andThen (positionsFall_keeps r _ s _)

theorem enterRecovering_keeps (r : Row) (c : RowCause) (s : State) : Keeps s (enterRecovering r c s) := by
  have h0 : Keeps s (s.onRow r (fun x => { x with recovery := min 3 (x.recovery + 1) })) :=
    keeps_onRow s r _ (fun h => ⟨h.1, h.2.1, h.2.2.1, Nat.min_le_left _ _⟩)
  exact keeps_ite (h0.andThen (enterFailed_keeps r _ _))
    ((((h0.andThen (abandonRead_keeps r _)).andThen
      (keeps_onRow _ r _ (fun h => ⟨Nat.zero_le _, Nat.zero_le _, Nat.zero_le _, h.2.2.2⟩))).andThen
      (notify_keeps _ _)).andThen (positionsFall_keeps r _ s _))

theorem senseBecomesMated_keeps (r : Row) (s : State) : Keeps s (senseBecomesMated r s) :=
  keeps_ite ((changes_onPins s _).keeps.andThen (keeps_onRow _ r _ (fun h => h))) (changes_onPins s _).keeps

theorem rowArrives_keeps (r : Row) (s : State) : Keeps s (rowArrives r s) := by
  unfold rowArrives
  refine keeps_ite ?_ (Keeps.refl s)
  exact (((((keeps_onRow s r _ (fun h => h)).andThen (notify_keeps _ _)).andThen (evaluateRow_keeps r s _)).andThen
    (publish_keeps _)).andThen (keeps_forEach (evaluateLists_keeps false) _ _)).andThen (endWithBatch_keeps _)

theorem removePosition_keeps (p : Pos) (s : State) : Keeps s (removePosition p s) :=
  (changes_onCls s p _).keeps.andThen (remOff_keeps p _)

theorem discardExchange_keeps (r : Row) (s : State) : Keeps s (discardExchange r s) := keeps_onLine s _ rfl

theorem removeRow_keeps (r : Row) (s : State) : Keeps s (removeRow r s) :=
  (((((((discardExchange_keeps r s).andThen (abandonRead_keeps r _)).andThen
    (keeps_onRow _ r _ (fun h => ⟨h.1, h.2.1, Nat.zero_le _, Nat.zero_le _⟩))).andThen
    (notify_keeps _ _)).andThen (positionsLeaveOnline_keeps r true _)).andThen
    (keeps_forEach removePosition_keeps _ _)).andThen (evaluateRow_keeps r s _)).andThen (endWithBatch_keeps _)

theorem senseReadsUnmated_keeps (r : Row) (s : State) : Keeps s (senseReadsUnmated r s) :=
  keeps_ite (changes_onPins s _).keeps (keeps_ite
    ((changes_onPins s _).keeps.andThen (keeps_onRow _ r _ (fun h => h)))
    ((changes_onPins s _).keeps.andThen (removeRow_keeps r _)))

theorem settleExpires_keeps (r : Row) (s : State) : Keeps s (settleExpires r s) := by
  unfold settleExpires
  split
  · exact keeps_ite (keeps_onRow s r _ (fun h => ⟨Nat.zero_le _, h.2⟩))
      ((enterFailed_keeps r _ s).andThen (endWithBatch_keeps _))
  · exact ((keeps_onRow s r _ (fun h => h)).andThen (evaluateRow_keeps r s _)).andThen (endWithBatch_keeps _)
  · exact Keeps.refl s

theorem powerOffExpires_keeps (r : Row) (s : State) : Keeps s (powerOffExpires r s) :=
  keeps_ite (keeps_onRow s r _ (fun h => h)) (Keeps.refl s)

theorem stabilityExpires_keeps (r : Row) (s : State) : Keeps s (stabilityExpires r s) :=
  keeps_ite (keeps_onRow s r _ (fun h => ⟨h.1, h.2.1, h.2.2.1, Nat.zero_le _⟩)) (Keeps.refl s)

theorem enterChecking_keeps (r : Row) (i : Identity) (s : State) : Keeps s (enterChecking r i s) := by
  have h0 := keeps_onRow s r
    (fun x => { x with state := .checking, identity := some i, idFailures := 0, walk := ⟨0, .read, 0⟩ })
    (fun h => ⟨Nat.zero_le _, Nat.zero_le _, h.2.2⟩)
  exact keeps_ite (h0.andThen (enterOnline_keeps r _)) (h0.andThen (evaluateRow_keeps r s _))

theorem probeFails_keeps (r : Row) (s : State) : Keeps s (probeFails r s) := by
  have h0 := keeps_onRow s r (fun x => { x with idFailures := min 16 (x.idFailures + 1) })
    (fun h => ⟨Nat.min_le_left _ _, h.2⟩)
  exact keeps_ite (h0.andThen (enterRecovering_keeps r _ _)) h0

theorem attemptFails_keeps (r : Row) (s : State) : Keeps s (attemptFails r s) := by
  have h0 := keeps_onRow s r (fun x => { x with walk := { x.walk with attempts := min 3 ((s.row r).walk.attempts + 1) } })
    (fun h => ⟨h.1, Nat.min_le_left _ _, h.2.2⟩)
  exact keeps_ite (h0.andThen (enterRecovering_keeps r _ _)) (h0.andThen (keeps_onRow _ r _ (fun h => h)))

theorem entryPasses_keeps (r : Row) (s : State) : Keeps s (entryPasses r s) :=
  keeps_ite (keeps_onRow s r _ (fun h => h)) (enterOnline_keeps r s)

theorem walkStep_keeps (r : Row) (v : Word16) (s : State) : Keeps s (walkStep r v s) := by
  unfold walkStep
  dsimp only
  split
  · exact keeps_ite (entryPasses_keeps r s) (keeps_ite (keeps_onRow s r _ (fun h => h)) (attemptFails_keeps r s))
  · exact keeps_onRow s r _ (fun h => h)
  · exact keeps_ite (entryPasses_keeps r s) (attemptFails_keeps r s)

theorem sampleFails_keeps (r : Row) (s : State) : Keeps s (sampleFails r s) := by
  have h0 := keeps_onRow s r (fun x => { x with score := min 64 (x.score + 4) })
    (fun h => ⟨h.1, h.2.1, Nat.min_le_left _ _, h.2.2.2⟩)
  exact keeps_ite (h0.andThen (enterRecovering_keeps r _ _)) h0

theorem debounceSeat_keeps (r : Row) (b : List Byte) (k : Seat) (s : State) : Keeps s (debounceSeat r b k s) := by
  have h0 := keeps_onRow s r (fun x => { x with latch := x.latch.modify k (fun _ => some (parseSeat b k)) })
    (fun h => h)
  exact keeps_ite ((h0.andThen (takeBuckle_keeps _ _ _)).andThen (takeAnchors_keeps _ _ _ _)) h0

theorem evaluateSeat_keeps (b : List Byte) (p : Pos) (s : State) : Keeps s (evaluateSeat b p s) := by
  unfold evaluateSeat
  dsimp only
  have h := (changes_onLoad s p (fun l => l.take (loadSettings s p) (parseSeat b p.seat))).keeps.andThen
    (changes_onCls _ p (fun c => { c with sampled := true })).keeps
  split
  · exact (h.andThen (updateBand_keeps p _ _)).andThen (evaluate_keeps true p _)
  · exact h.andThen (evaluate_keeps false p _)

theorem deliverSample_keeps (r : Row) (b : List Byte) (s : State) : Keeps s (deliverSample r b s) :=
  ((((keeps_onRow s r _ (fun h => ⟨h.1, h.2.1, Nat.le_trans (Nat.sub_le _ _) h.2.2.1, h.2.2.2⟩)).andThen
    (keeps_forEach (debounceSeat_keeps r b) _ _)).andThen (takeTagStatus_keeps r _ _)).andThen
    (keeps_forEach (evaluateSeat_keeps b) _ _)).andThen (evaluateEach_keeps _ _)

theorem exchangeFails_keeps (x : Exchange) (s : State) : Keeps s (exchangeFails x s) := by
  unfold exchangeFails
  split
  · exact sampleFails_keeps x.row s
  · exact probeFails_keeps x.row s
  · exact keeps_ite (Keeps.refl s) (attemptFails_keeps x.row s)
  · exact keeps_ite (Keeps.refl s) (attemptFails_keeps x.row s)
  · exact Keeps.refl s

theorem exchangeGood_keeps (x : Exchange) (b : List Byte) (s : State) : Keeps s (exchangeGood x b s) := by
  unfold exchangeGood
  split
  · exact deliverSample_keeps x.row b s
  · exact enterChecking_keeps x.row _ s
  · exact keeps_ite (Keeps.refl s) (walkStep_keeps x.row _ s)
  · exact keeps_ite (Keeps.refl s) (walkStep_keeps x.row _ s)
  · exact Keeps.refl s

theorem endExchange_keeps (s : State) : Keeps s (endExchange s) := keeps_onLine s _ rfl

theorem answerCompletes_keeps (b : List Byte) (s : State) : Keeps s (answerCompletes b s) := by
  unfold answerCompletes
  split
  · exact Keeps.refl s
  · split
    · exact ((endExchange_keeps s).andThen (exchangeGood_keeps _ b _)).andThen (endWithBatch_keeps _)
    · exact ((endExchange_keeps s).andThen (exchangeFails_keeps _ _)).andThen (endWithBatch_keeps _)
    · exact ((endExchange_keeps s).andThen (exchangeFails_keeps _ _)).andThen (endWithBatch_keeps _)

theorem exchangeTimesOut_keeps (s : State) : Keeps s (exchangeTimesOut s) := by
  unfold exchangeTimesOut
  split
  · exact Keeps.refl s
  · exact ((endExchange_keeps s).andThen (exchangeFails_keeps _ _)).andThen (endWithBatch_keeps _)

theorem sendPoll_keeps (r : Row) (b : PollBody) (s : State) : Keeps s (sendPoll r b s) :=
  (keeps_onLine s _ rfl).andThen (keeps_onRow _ r _ (fun h => h))

theorem sendSample_keeps (r : Row) (s : State) : Keeps s (sendSample r s) := by
  unfold sendSample
  refine keeps_ite (sendPoll_keeps r _ s) ?_
  split
  · exact sendPoll_keeps r _ s
  · exact ((startRead_keeps _ s).andThen (keeps_onRow _ r _ (fun h => h))).andThen (sendPoll_keeps r _ _)

theorem sendWalk_keeps (r : Row) (s : State) : Keeps s (sendWalk r s) := by
  unfold sendWalk
  dsimp only
  split <;> exact sendPoll_keeps r _ s

theorem carrySlot_keeps (r : Row) (s : State) : Keeps s (carrySlot r s) := by
  unfold carrySlot
  refine keeps_ite (Keeps.refl s) ?_
  split
  · exact keeps_ite (sendPoll_keeps r _ s) (Keeps.refl s)
  · exact sendWalk_keeps r s
  · exact sendSample_keeps r s
  · exact Keeps.refl s
  · exact Keeps.refl s
  · exact Keeps.refl s

theorem takeSlot_keeps (s : State) : Keeps s (takeSlot s) := by
  unfold takeSlot
  dsimp only
  split
  · exact (keeps_onLine s _ rfl).andThen (carrySlot_keeps _ _)
  · exact keeps_onLine s _ rfl

theorem slotExpires_keeps (s : State) : Keeps s (slotExpires s) := by
  unfold slotExpires
  split
  · exact (exchangeTimesOut_keeps s).andThen (takeSlot_keeps _)
  · exact Keeps.refl s
  · exact Keeps.refl s

end Sys2Proof.Machine
end

