-- ==== Sys2Proof/Laws/CommandKeeps.lean ====
section
/-! SUPPORT. The operations of the Monitor and of the two controller ports keep the invariants of Laws/Keeps.lean. -/

namespace Sys2Proof.Machine

set_option Elab.async false

theorem keeps_outsideReset {f : State → State} (s : State) (h : Keeps s (f s)) : Keeps s (outsideReset s f) :=
  keeps_ite (Keeps.refl s) h

/-! ### Monitor -/

theorem rebuildRow_counts (s : State) (r : Row) {x : RowRecord} (h : RowCountsInv x) :
    RowCountsInv (rebuildRow s r x) := by
  unfold rebuildRow
  split <;> exact h

theorem ignOn_keeps (s : State) : Keeps s (s.onBody Body.ignOn) := by
  unfold Body.ignOn
  refine keeps_onBody s _ ?_ ?_
  · intro h
    split <;> exact h
  · intro h
    split
    · exact slotInv_of_same (b := s.body) rfl rfl rfl rfl (fun _ => rfl) h
    · exact h

theorem bodyGoLive_keeps (s : State) (ign : Bool) (n : Nat) : Keeps s (s.onBody (fun b => b.goLive ign n)) := by
  unfold Body.goLive
  have h1 : Keeps s (s.onBody (fun b => { b with mapTimer := some n })) :=
    keeps_onBody_same s _ rfl rfl rfl rfl rfl rfl
  cases ign
  · exact h1
  · exact h1.andThen (ignOn_keeps _)

/-- The rows rebuilt, with any slot timer. -/
theorem rebuild_keeps (u : State) (timer : SlotTimer) (s : State) :
    Keeps s (s.onLine (fun l => { l with rows := l.rows.mapIdx (rebuildRow u), timer := timer })) := by
  refine ⟨id, id, id, fun h r => ?_, id⟩
  show RowCountsInv ((s.line.rows.mapIdx (rebuildRow u)).get r)
  rw [PerRow.get_mapIdx]
  exact rebuildRow_counts _ r (h r)

theorem goLive_keeps (ign : Bool) (s : State) : Keeps s (goLive ign s) :=
  (((changes_onMonitor s _).keeps.andThen (rebuild_keeps _ _ _)).andThen (bodyGoLive_keeps _ _ _)).andThen
    (gateOutputs_changes _).keeps

theorem evaluateStart_keeps (s : State) : Keeps s (evaluateStart s) :=
  (((evaluateEach_keeps _ s).andThen (publish_keeps _)).andThen (evaluateAllLists_keeps _)).andThen (endEvent_keeps _)

theorem autoloadEnds_keeps (a : StoreAnswer) (s : State) : Keeps s (autoloadEnds a s) := by
  unfold autoloadEnds
  refine keeps_ite ?_ (Keeps.refl s)
  exact (((changes_onSettings s (fun _ => autoloaded s a)).keeps.andThen (goLive_keeps _ _)).andThen
    (changes_onPort _ _).keeps).andThen (evaluateStart_keeps _)

theorem ignOff_keeps (s : State) : Keeps s (s.onBody Body.ignOff) :=
  keeps_onBody_same s _ rfl rfl rfl rfl rfl rfl

theorem ignAsserts_keeps (s : State) : Keeps s (ignAsserts s) :=
  have h := (changes_onPins s (fun u => { u with ignLine := true })).keeps.andThen
    (changes_onMonitor _ (fun m => { m with ignDebounce := none })).keeps
  keeps_ite h ((((h.andThen (changes_onMonitor _ _).keeps).andThen (ignOn_keeps _)).andThen
    (evaluateAllLists_keeps _)).andThen (endEvent_keeps _))

theorem ignDeasserts_keeps (s : State) : Keeps s (ignDeasserts s) :=
  have h := (changes_onPins s (fun u => { u with ignLine := false })).keeps.andThen
    (changes_onMonitor _ (fun m => { m with ignDebounce := none })).keeps
  keeps_ite h ((((h.andThen (changes_onMonitor _ _).keeps).andThen (ignOff_keeps _)).andThen
    (remIgnOff_keeps _)).andThen (endEvent_keeps _))

theorem wake_keeps (s : State) : Keeps s (wake s) :=
  keeps_ite (((changes_onMonitor s _).keeps.andThen (keeps_onBody_same _ _ rfl rfl rfl rfl rfl rfl)).andThen
    (changes_onPort _ _).keeps) (Keeps.refl s)

theorem takeWakeEvent_keeps (w : WakeSource) (s : State) : Keeps s (takeWakeEvent w s) := by
  unfold takeWakeEvent
  have h : Keeps s (if w = .ignition then s.onPins (fun u => { u with ignLine := true }) else s) :=
    keeps_ite (changes_onPins s _).keeps (Keeps.refl s)
  have hw := h.andThen (wake_keeps _)
  exact keeps_ite (keeps_ite (hw.andThen (changes_onPort _ _).keeps) hw) h

theorem ignLineChanges_keeps (b : Bool) (s : State) : Keeps s (ignLineChanges b s) := by
  have h := (changes_onPins s (fun u => { u with ignLine := b })).keeps
  exact keeps_ite h (keeps_ite (keeps_ite (h.andThen (wake_keeps _)) h) (h.andThen (changes_onMonitor _ _).keeps))

theorem remReset_timers (p : Pos) : RemTimersInv ((PerPos.all Reminder.reset).get p) := by
  rw [PerPos.get_all]
  exact ⟨by simp [Reminder.reset], by simp [Reminder.reset]⟩

theorem endWakeSettle_keeps (s : State) : Keeps s (endWakeSettle s) := by
  unfold endWakeSettle
  refine keeps_ite ?_ (Keeps.refl s)
  have h1 := goLive_keeps s.pins.ignLine s
  have h2 : Keeps (goLive s.pins.ignLine s) { goLive s.pins.ignLine s with
      cls := (goLive s.pins.ignLine s).cls.mapIdx (fun _ c => c.wake)
      load := (goLive s.pins.ignLine s).load.mapIdx (fun _ l => l.leaveOnline)
      rem := PerPos.all Reminder.reset } := ⟨id, id, id, id, fun _ p => remReset_timers p⟩
  exact ((h1.andThen h2).andThen (childWake_keeps _)).andThen (evaluateStart_keeps _)

theorem abandonAll_keeps (s : State) : Keeps s (abandonAll s) := keeps_forEach abandonRead_keeps _ s

theorem setHold_keeps (s : State) : Keeps s (setHold s) := by
  unfold setHold
  refine keeps_ite ?_ (changes_onMonitor s _).keeps
  exact ((((changes_onMonitor s _).keeps.andThen (changes_onMonitor _ _).keeps).andThen
    (keeps_onLine _ (fun l => { l with timer := .suspended, exchange := none }) rfl)).andThen
    (onLoads_changes _ (fun l => l.mapIdx (fun _ l => l.freeze))).keeps).andThen (abandonAll_keeps _)

theorem goStale_keeps (p : Pos) (s : State) : Keeps s (goStale p s) :=
  ((changes_onLoad s p _).keeps.andThen (evaluate_keeps false p _)).andThen (endWithBatch_keeps _)

theorem clearHold_keeps (s : State) : Keeps s (clearHold s) := by
  unfold clearHold
  refine keeps_ite ?_ (changes_onMonitor s _).keeps
  refine Keeps.andThen ?_ (keeps_forEach (fun p t => keeps_ite (goStale_keeps p t) (Keeps.refl t)) _ _)
  exact (((changes_onMonitor s _).keeps.andThen (changes_onMonitor _ _).keeps).andThen
    (keeps_onLine _ (fun l => { l with timer := .running (slotPeriod s) }) rfl)).andThen
    (onLoads_changes _ (fun l => l.mapIdx (fun _ l => l.thaw))).keeps

theorem bodySleep_invs (b : Body) : QueueInv b.sleep ∧ SlotInv b.sleep :=
  ⟨⟨Nat.zero_le _, List.Pairwise.nil, Nat.zero_le _⟩, rfl, trivial⟩

theorem rowSleep_counts (st : RowState) (x : RowRecord) : RowCountsInv (x.sleep st) :=
  ⟨Nat.zero_le _, Nat.zero_le _, Nat.zero_le _, Nat.zero_le _⟩

theorem enterSleep_keeps (s : State) : Keeps s (enterSleep s) := by
  have h : Keeps s (childSleep (abandonAll s)) := (abandonAll_keeps s).andThen (childSleep_keeps _)
  refine ⟨fun _ => (bodySleep_invs _).1, fun _ => (bodySleep_invs _).2, h.tags, fun _ r => ?_,
    fun _ p => remReset_timers p⟩
  show RowCountsInv ((PerRow.mapIdx _ _).get r)
  rw [PerRow.get_mapIdx]
  exact rowSleep_counts _ _

theorem restExpires_keeps (s : State) : Keeps s (restExpires s) :=
  keeps_ite (keeps_ite (changes_onMonitor s _).keeps (enterSleep_keeps s)) (Keeps.refl s)

/-! ### Restraint port -/

theorem respond_keeps (r : Response) (s : State) : Keeps s (respond r s) := (respond_changes r s).keeps

theorem takeFrame_keeps {f : State → State} (s : State) (h : Keeps s (f s)) : Keeps s (takeFrame f s) :=
  keeps_outsideReset s (keeps_ite (wake_keeps s) (keeps_ite (changes_onPort s _).keeps h))

theorem answerNotReady_keeps (c : Byte) (s : State) : Keeps s (answerNotReady c s) :=
  (changes_onPort s _).keeps.andThen (respond_keeps _ _)

theorem takeRequest_keeps (c a : Byte) {f : State → State} (s : State) (h : ∀ t, Keeps t (f t)) :
    Keeps s (takeRequest c a f s) := by
  refine takeFrame_keeps s ?_
  exact keeps_ite ((changes_onPort s _).keeps.andThen (h _))
    ((changes_onPort s _).keeps.andThen (answerNotReady_keeps c _))

theorem answerOk_keeps (c : Byte) (p : State → BitVec 12) (s : State) : Keeps s (answerOk c p s) := respond_keeps _ s

theorem answerPosition_keeps (a : Byte) (s : State) : Keeps s (answerPosition a s) := by
  unfold answerPosition
  split
  · exact answerOk_keeps _ _ s
  · exact respond_keeps _ s

theorem answerLock_keeps (a : Byte) (s : State) : Keeps s (answerLock a s) :=
  keeps_ite (((takeLock_keeps _ s).andThen (answerOk_keeps _ _ _)).andThen (endEvent_keeps _)) (respond_keeps _ s)

theorem answerUnlock_keeps (s : State) : Keeps s (answerUnlock s) :=
  keeps_ite (((releaseLock_keeps s).andThen (answerOk_keeps _ _ _)).andThen (endEvent_keeps _)) (answerOk_keeps _ _ s)

theorem holdExpires_keeps (s : State) : Keeps s (holdExpires s) :=
  keeps_ite ((releaseLock_keeps s).andThen (endEvent_keeps _)) (Keeps.refl s)

/-! ### Body port -/

theorem receive_keeps {f : State → State} (s : State) (h : Keeps s (f s)) : Keeps s (receive f s) :=
  keeps_outsideReset s (keeps_ite (wake_keeps s) (keeps_ite (Keeps.refl s) h))

theorem takeVehicleState_keeps (v g c : Byte) (s : State) : Keeps s (takeVehicleState v g c s) := by
  unfold takeVehicleState
  split
  · exact Keeps.refl s
  · rename_i g' _
    have h : Keeps s (s.onBody (fun b => b.takeVehicle v g' (parseClosures c))) :=
      keeps_onBody_same s _ rfl rfl rfl rfl rfl rfl
    have h2 : Keeps s
        (if s.body.vehicle.closures = parseClosures c then s.onBody (fun b => b.takeVehicle v g' (parseClosures c))
          else restartRest (s.onBody (fun b => b.takeVehicle v g' (parseClosures c)))) :=
      keeps_ite h (h.andThen (restartRest_keeps _))
    exact (h2.andThen (afterVanChange_keeps s _)).andThen (endEvent_keeps _)

theorem takeMapRequest_keeps (s : State) : Keeps s (takeMapRequest s) :=
  keeps_ite (((keeps_onBody_same s _ rfl rfl rfl rfl rfl rfl).andThen (mapsDue_keeps _)).andThen (arbitrate_keeps _))
    (Keeps.refl s)

theorem takeAck_keeps (m : Word16) (s : State) : Keeps s (takeAck m s) :=
  keeps_ite ((acknowledge_keeps m s).andThen (endEvent_keeps _)) (Keeps.refl s)

theorem freshnessExpires_keeps (s : State) : Keeps s (freshnessExpires s) :=
  keeps_ite (((keeps_onBody_same s _ rfl rfl rfl rfl rfl rfl).andThen (afterVanChange_keeps s _)).andThen
    (endEvent_keeps _)) (Keeps.refl s)

theorem degradeExpires_keeps (s : State) : Keeps s (degradeExpires s) :=
  keeps_ite (((keeps_onBody_same s _ rfl rfl rfl rfl rfl rfl).andThen (afterVanChange_keeps s _)).andThen
    (endEvent_keeps _)) (Keeps.refl s)

theorem mapExpires_keeps (s : State) : Keeps s (mapExpires s) :=
  keeps_ite (((keeps_onBody_same s _ rfl rfl rfl rfl rfl rfl).andThen (mapsDue_keeps _)).andThen (arbitrate_keeps _))
    (Keeps.refl s)

theorem transmitAcked_keeps (s : State) : Keeps s (transmitAcked s) :=
  keeps_ite ((keeps_onBody s _ Body.acknowledged_queueInv Body.acknowledged_slotInv).andThen (arbitrate_keeps _))
    (Keeps.refl s)

theorem busGoesOff_keeps (s : State) : Keeps s (busGoesOff s) :=
  keeps_onBody s _ Body.enterBusOff_queueInv (fun _ => Body.enterBusOff_slotInv _)

theorem busRecovers_keeps (s : State) : Keeps s (busRecovers s) :=
  keeps_ite ((keeps_onBody_same s _ rfl rfl rfl rfl rfl rfl).andThen (arbitrate_keeps _)) (Keeps.refl s)

/-! ### Service requests -/

theorem takeService_keeps (k : Byte) (r : List Byte) {f : State → State} (s : State)
    (h : ∀ t : State, t.body.reply = none → Keeps t (f t)) : Keeps s (takeService k r f s) := by
  refine receive_keeps s ?_
  dsimp only
  split
  · exact restartRest_keeps s
  · rename_i hr
    have hn : (restartRest s).body.reply = none := by simpa using hr
    exact keeps_ite (((restartRest_keeps s).andThen (h _ hn)).andThen (arbitrate_keeps _))
      (((restartRest_keeps s).andThen (sendReply_keeps _ _ hn)).andThen (arbitrate_keeps _))

theorem answerReadParam_keeps (i v : Word16) (s : State) (hn : s.body.reply = none) : Keeps s (answerReadParam i v s) :=
  keeps_ite (sendReply_keeps _ s hn) (sendReply_keeps _ s hn)

theorem answerWriteParam_keeps (i v : Word16) (s : State) (hn : s.body.reply = none) :
    Keeps s (answerWriteParam i v s) := by
  unfold answerWriteParam
  dsimp only
  refine keeps_ite (sendReply_keeps _ s hn) ?_
  split
  · exact sendReply_keeps _ s hn
  · exact (changes_onSettings s _).keeps

theorem answerClear_keeps (s : State) (hn : s.body.reply = none) : Keeps s (answerClear s) :=
  keeps_ite (sendReply_keeps _ s hn) (keeps_ite (sendReply_keeps _ s hn)
    (((((sendReply_keeps _ s hn).andThen (clearChildren_keeps _)).andThen (evaluateEach_keeps _ _)).andThen
      (publish_keeps _)).andThen (takeReminders_keeps _)))

theorem answerReadEntry_keeps (i : Byte) (s : State) (hn : s.body.reply = none) : Keeps s (answerReadEntry i s) :=
  keeps_ite (sendReply_keeps _ s hn) (sendReply_keeps _ s hn)

theorem answerReadRow_keeps (r : Byte) (s : State) (hn : s.body.reply = none) : Keeps s (answerReadRow r s) := by
  unfold answerReadRow
  split
  · exact sendReply_keeps _ s hn
  · exact sendReply_keeps _ s hn

/-! ### The completion of a write -/

theorem sensorsChanged_keeps (b : State) (p : Pos) (s : State) : Keeps s (sensorsChanged b p s) := by
  unfold sensorsChanged
  dsimp only
  generalize hs : (if (anchorsFitted b p && !anchorsFitted s p) = true then
      evaluate false p (afterSeatChange false b p (s.onCls p ClassState.forgetAnchors)) else s) = s1
  have h : Keeps s s1 := by
    rw [← hs]
    exact keeps_ite (((changes_onCls s p _).keeps.andThen (afterSeatChange_keeps false b p _)).andThen
      (evaluate_keeps false p _)) (Keeps.refl s)
  exact keeps_ite ((h.andThen (coilRemoved_keeps p _)).andThen (evaluateEach_keeps _ _))
    (keeps_ite (h.andThen (coilAdded_keeps p _)) h)

theorem checkTableReplaced_keeps (s : State) : Keeps s (checkTableReplaced s) := by
  unfold checkTableReplaced
  refine (keeps_onLine s _ rfl).andThen (keeps_forEach (fun r t => ?_) _ _)
  have h : Keeps t (t.onRow r (fun x => { x with walk := ⟨0, .read, x.walk.attempts⟩ })) :=
    keeps_onRow t r _ (fun h => h)
  exact keeps_ite (h.andThen (enterOnline_keeps r _)) h

theorem writeEffects_keeps (b : State) (g i : Nat) (s : State) : Keeps s (writeEffects b g i s) := by
  have pos : ∀ p t, Keeps t (positionEffects b p i t) := fun p t => by
    have h : Keeps t (if i = 19 then sensorsChanged b p t else t) :=
      keeps_ite (sensorsChanged_keeps b p t) (Keeps.refl t)
    exact (keeps_ite (h.andThen (gainWritten_changes p _).keeps) h).andThen (revalidate_changes p _).keeps
  have tab : ∀ t, Keeps t (tableEffects g i t) := fun t => by
    have h : Keeps t (if g = 19 then checkTableReplaced t else t) :=
      keeps_ite (checkTableReplaced_keeps t) (Keeps.refl t)
    exact keeps_ite (h.andThen (evaluateAllLists_keeps _)) h
  unfold writeEffects
  refine (Keeps.andThen ?_ (keeps_forEach (fun p t => (staleAfterWrite_changes p t).keeps) _ _)).andThen (tab _)
  split
  · exact pos _ s
  · exact Keeps.refl s

theorem writeSucceeds_keeps (w : WriteInFlight) (s : State) : Keeps s (writeSucceeds w s) :=
  ((((changes_onSettings s _).keeps.andThen (writeEffects_keeps s _ _ _)).andThen (publish_keeps _)).andThen
    (sendWriteReply_keeps _ _)).andThen (endEvent_keeps _)

theorem writeFails_keeps (w : WriteInFlight) (n : Option Nat) (s : State) : Keeps s (writeFails w n s) := by
  unfold writeFails
  dsimp only
  refine Keeps.andThen (Keeps.andThen ?_ (sendWriteReply_keeps _ _)) (arbitrate_keeps _)
  split
  · exact (changes_onSettings s _).keeps
  · exact keeps_ite ((changes_onSettings s _).keeps.andThen (changes_onSettings _ _).keeps)
      (((changes_onSettings s _).keeps.andThen (changes_onSettings _ _).keeps).andThen (notify_keeps _ _))

/-! ### Positions -/

theorem tagReadTimesOut_keeps (r : Row) (s : State) : Keeps s (tagReadTimesOut r s) := by
  unfold tagReadTimesOut
  split
  · exact Keeps.refl s
  · exact keeps_ite (((completeRead_keeps r _ _ s).andThen (evaluateEach_keeps _ _)).andThen (endWithBatch_keeps _))
      (Keeps.refl s)

theorem delayRunsOut_keeps (p : Pos) (s : State) : Keeps s (delayRunsOut p s) := by
  unfold delayRunsOut
  split
  · rename_i h
    exact (enterVisual_keeps p s (by simp [h.1])).andThen (endEvent_keeps _)
  · exact Keeps.refl s

theorem audibleRunsOut_keeps (p : Pos) (s : State) : Keeps s (audibleRunsOut p s) := by
  unfold audibleRunsOut
  split
  · rename_i h
    exact (silence_keeps p 1 s h.1).andThen (endEvent_keeps _)
  · exact Keeps.refl s

theorem ageRunsOut_keeps (p : Pos) (s : State) : Keeps s (ageRunsOut p s) :=
  keeps_ite ((changes_onLoad s p _).keeps.andThen (goStale_keeps p _)) (Keeps.refl s)

end Sys2Proof.Machine
end

