-- ==== Sys2Proof/Laws/Ends.lean ====
section
/-! SUPPORT. What the ends of events leave: the published table and its marks, and the Cadence Generator's copy and
timers. -/

namespace Sys2Proof.Machine

set_option Elab.async false

/-! ### The Publication Unit -/

/-- While the lock is not held no mark stands. -/
def MarksClear (s : State) : Prop := s.pub.locked = false → ∀ p, s.pub.marks.get p = false

theorem PublicationInv.marksClear {s : State} (h : PublicationInv s) : MarksClear s :=
  fun hl p => (h p).1.trans ((h p).2 hl)

theorem marksClear_of_same {s t : State} (hp : t.pub = s.pub) (h : MarksClear s) : MarksClear t := by
  unfold MarksClear
  rw [hp]
  exact h

theorem publicationInv_of_same {s t : State} (hc : t.cls = s.cls) (hp : t.pub = s.pub) (h : PublicationInv s) :
    PublicationInv t := by
  intro p
  have e : unpublished t p = unpublished s p := by
    unfold unpublished
    rw [hc, hp]
  rw [e, hp]
  exact h p

/-- A batch publishes the positions given and leaves marks and lock. -/
theorem publishBatch_spec (ps : List Pos) (s : State) :
    (publishBatch ps s).cls = s.cls ∧ (publishBatch ps s).pub.marks = s.pub.marks
    ∧ (publishBatch ps s).pub.locked = s.pub.locked
    ∧ ∀ p, (publishBatch ps s).pub.table.get p
        = if ps.contains p then (s.cls.get p).settled else s.pub.table.get p := by
  refine ⟨(publishBatch_changes ps s).cls, ?_⟩
  by_cases he : ps.isEmpty = true
  · have e : publishBatch ps s = s := by
      unfold publishBatch
      rw [if_pos he]
    rw [e]
    refine ⟨rfl, rfl, fun p => ?_⟩
    rw [List.isEmpty_iff.mp he]
    rfl
  · have e : (publishBatch ps s).pub = (s.onPub (fun u =>
        { u with
          table := u.table.mapIdx (fun p r => if ps.contains p then (s.cls.get p).settled else r)
          epoch := u.epoch + 1 })).pub := by
      unfold publishBatch
      rw [if_neg he]
      exact (((changesOnly_forEach (bs := [.monitor, .rem, .body]) (fun p t => (notify_changes _ t).widen) ps _).andThen
        (restartRest_changes _)).andThen (changesOnly_forEach (bs := [.monitor, .rem, .body])
          (fun p t => (afterSeatChange_changes false s p t).widen) ps _)).pub
    rw [e]
    exact ⟨rfl, rfl, fun p => PerPos.get_mapIdx _ _ p⟩

theorem mem_allPos_filter (f : Pos → Bool) (p : Pos) : (allPos.filter f).contains p = f p := by
  cases h : f p
  · simp [h]
  · simp [h]

/-- The end of a batch: the marks stand exactly where settled and published records differ, and while the lock is not
held they nowhere do (R104, R108). -/
theorem publish_publicationInv {s : State} (h : MarksClear s) : PublicationInv (publish s) := by
  intro p
  by_cases hl : s.pub.locked = true
  · have e : publish s = s.onPub (fun u => { u with marks := u.marks.mapIdx (fun p _ => unpublished s p) }) := by
      unfold publish
      rw [if_pos hl]
    rw [e]
    refine ⟨PerPos.get_mapIdx _ _ p, fun hn => ?_⟩
    rw [show (s.onPub _).pub.locked = s.pub.locked from rfl, hl] at hn
    cases hn
  · have e : publish s = publishBatch (allPos.filter (unpublished s)) s := by
      unfold publish
      rw [if_neg hl]
    obtain ⟨hc, hm, _, ht⟩ := publishBatch_spec (allPos.filter (unpublished s)) s
    have hu : unpublished (publishBatch (allPos.filter (unpublished s)) s) p = false := by
      show (((publishBatch (allPos.filter (unpublished s)) s).cls.get p).settled
        != (publishBatch (allPos.filter (unpublished s)) s).pub.table.get p) = false
      rw [hc, ht, mem_allPos_filter]
      cases hp : unpublished s p
      · exact hp
      · simp
    rw [e, hm, hu]
    exact ⟨h (by simpa using hl) p, fun _ => rfl⟩

/-- The release publishes every pending record and clears the marks (R111). -/
theorem releaseLock_publicationInv {s : State} (h : PublicationInv s) : PublicationInv (releaseLock s) := by
  have hc := releaseLock_changes s
  obtain ⟨_, _, _, ht⟩ := publishBatch_spec (allPos.filter (fun p => s.pub.marks.get p && unpublished s p)) s
  have e : (releaseLock s).pub = { (publishBatch (allPos.filter (fun p => s.pub.marks.get p && unpublished s p)) s).pub
      with locked := false, holdTimer := none, marks := PerPos.all false } := by
    unfold releaseLock
    exact (afterVanChange_changes _ _).pub
  intro p
  have hu : unpublished (releaseLock s) p = false := by
    unfold unpublished
    rw [hc.cls, e]
    simp only [ht, mem_allPos_filter, (h p).1, Bool.and_self]
    cases hp : unpublished s p
    · exact hp
    · simp
  rw [hu, e]
  exact ⟨PerPos.get_all _ p, fun _ => rfl⟩

theorem takeLock_publicationInv (n : Nat) {s : State} (h : PublicationInv s) : PublicationInv (takeLock n s) := by
  have e : (takeLock n s).pub = { s.pub with locked := true, holdTimer := some n } :=
    (afterVanChange_changes s (s.onPub _)).pub
  intro p
  have hu : unpublished (takeLock n s) p = unpublished s p := by
    unfold unpublished
    rw [(takeLock_changes n s).cls, e]
  rw [hu, e]
  exact ⟨(h p).1, fun hn => nomatch hn⟩

/-! ### The Cadence Generator -/

/-- Its timers and profile agree with its own copy of the reminder states (R139 to R143). -/
def CopyShown (c : Cadence) : Prop :=
  (c.chime.running = true ↔ wantedProfile c.copy ≠ .none) ∧ (c.active = .none ↔ wantedProfile c.copy = .none)
  ∧ (c.flash.running = true ↔ telltaleState c.copy = .flashing)

theorem cadenceInv_iff (s : State) :
    CadenceInv s ↔ (∀ p, s.cadence.copy.get p = (s.rem.get p).state) ∧ CopyShown s.cadence := Iff.rfl

theorem onWanted_spec (c : Cadence) (w : Profile) :
    (c.onWanted w).copy = c.copy ∧ (c.onWanted w).flash = c.flash
    ∧ ((c.chime.running = true ↔ c.active ≠ .none) →
        ((c.onWanted w).chime.running = true ↔ w ≠ .none) ∧ ((c.onWanted w).active = .none ↔ w = .none)) := by
  cases w
  case none => exact ⟨rfl, rfl, fun _ => ⟨⟨nofun, fun h => absurd rfl h⟩, ⟨fun _ => rfl, fun _ => rfl⟩⟩⟩
  all_goals
    unfold Cadence.onWanted
    dsimp only
    by_cases ha : c.active = .none
    · simp [ha, chimeCadence, freshTimer]
    · simp [ha]

theorem onTelltale_spec (c : Cadence) (old new : Telltale) :
    (c.onTelltale old new).copy = c.copy ∧ (c.onTelltale old new).chime = c.chime
    ∧ (c.onTelltale old new).active = c.active
    ∧ ((c.flash.running = true ↔ old = .flashing) → ((c.onTelltale old new).flash.running = true ↔ new = .flashing)) := by
  unfold Cadence.onTelltale
  by_cases hn : new = .flashing
  · rw [if_pos hn]
    exact ⟨rfl, rfl, rfl, fun _ => ⟨fun _ => hn, fun _ => rfl⟩⟩
  · rw [if_neg hn]
    by_cases ho : old = .flashing
    · rw [if_pos ho]
      exact ⟨rfl, rfl, rfl, fun _ => ⟨nofun, fun h => absurd h hn⟩⟩
    · rw [if_neg ho]
      exact ⟨rfl, rfl, rfl, fun h => ⟨fun hr => absurd (h.mp hr) ho, fun h => absurd h hn⟩⟩

/-- Taking new reminder states, the timers and the profile agree with them again (R139 to R143). -/
theorem take_spec {c : Cadence} (h : CopyShown c) (x : PerPos RemState) :
    (c.take x).copy = x ∧ CopyShown (c.take x) := by
  obtain ⟨h1, h2, h3⟩ := h
  have hr : c.chime.running = true ↔ c.active ≠ .none := h1.trans (not_congr h2.symm)
  let c1 : Cadence := { c with copy := x }
  have a : ∀ c2, (c2 = if wantedProfile c.copy = wantedProfile x then c1 else c1.onWanted (wantedProfile x)) →
      c2.copy = x ∧ c2.flash = c.flash ∧ (c2.chime.running = true ↔ wantedProfile x ≠ .none)
        ∧ (c2.active = .none ↔ wantedProfile x = .none) := by
    rintro c2 rfl
    split
    · rename_i he
      rw [← he]
      exact ⟨rfl, rfl, h1, h2⟩
    · obtain ⟨e1, e2, e3⟩ := onWanted_spec c1 (wantedProfile x)
      exact ⟨e1, e2, e3 hr⟩
  unfold Cadence.take
  dsimp only
  obtain ⟨e1, e2, e3, e4⟩ := a _ rfl
  split
  · rename_i he
    refine ⟨e1, ?_, ?_, ?_⟩
    · rw [e1]; exact e3
    · rw [e1]; exact e4
    · rw [e1, e2, ← he]; exact h3
  · generalize (if wantedProfile c.copy = wantedProfile x then c1 else c1.onWanted (wantedProfile x)) = c2 at e1 e2 e3 e4
    obtain ⟨f1, f2, f3, f4⟩ := onTelltale_spec c2 (telltaleState c.copy) (telltaleState x)
    refine ⟨f1.trans e1, ?_, ?_, ?_⟩
    · rw [f2, f1, e1]; exact e3
    · rw [f3, f1, e1]; exact e4
    · rw [f1, e1]; exact f4 (by rw [e2]; exact h3)

theorem takeReminders_cadenceInv {s : State} (h : CopyShown s.cadence) : CadenceInv (takeReminders s) := by
  obtain ⟨e1, e2⟩ := take_spec h (s.rem.mapIdx (fun _ r => r.state))
  refine ⟨fun p => ?_, e2⟩
  show (s.cadence.take (s.rem.mapIdx (fun _ r => r.state))).copy.get p = _
  rw [e1, PerPos.get_mapIdx]
  rfl

theorem cadenceInv_of_same {s t : State} (hc : t.cadence = s.cadence) (hr : t.rem = s.rem) (h : CadenceInv s) :
    CadenceInv t := by
  unfold CadenceInv
  rw [hc, hr]
  exact h

/-- The end of an event leaves the Cadence Generator showing the reminder states (R136, R139). -/
theorem endEvent_cadenceInv {s : State} (h : CopyShown s.cadence) : CadenceInv (endEvent s) :=
  cadenceInv_of_same (arbitrate_changes _).cadence (arbitrate_changes _).rem (takeReminders_cadenceInv h)

theorem endWithBatch_cadenceInv {s : State} (h : CopyShown s.cadence) : CadenceInv (endWithBatch s) :=
  endEvent_cadenceInv (by rw [(publish_changes s).cadence]; exact h)

theorem endWithBatch_publicationInv {s : State} (h : MarksClear s) : PublicationInv (endWithBatch s) :=
  publicationInv_of_same (endEvent_changes _).cls (endEvent_changes _).pub (publish_publicationInv h)

/-- A cadence timer that is changed in its counts alone. -/
theorem copyShown_of_same {c d : Cadence} (h1 : d.chime.running = c.chime.running) (h2 : d.active = c.active)
    (h3 : d.flash.running = c.flash.running) (h4 : d.copy = c.copy) (h : CopyShown c) : CopyShown d := by
  unfold CopyShown
  rw [h1, h2, h3, h4]
  exact h

/-- The chime timer's period end leaves a profile that is wanted (R140, R141). -/
theorem chimeEnds_copyShown {c : Cadence} (h : CopyShown c) :
    c.chimeEnds.copy = c.copy ∧ CopyShown c.chimeEnds := by
  unfold Cadence.chimeEnds
  by_cases hr : c.chime.running = true
  · rw [if_neg (by simp [hr])]
    dsimp only
    have hw := h.1.mp hr
    rw [if_neg hw]
    split
    · exact ⟨rfl, copyShown_of_same rfl rfl rfl rfl h⟩
    · refine ⟨rfl, ⟨fun _ => hw, fun _ => ?_⟩, ⟨fun e => absurd e hw, fun e => absurd e hw⟩, h.2.2⟩
      cases e : wantedProfile c.copy
      · exact absurd e hw
      all_goals (simp only [chimeCadence]; rfl)
  · rw [if_pos (by simpa using hr)]
    exact ⟨rfl, h⟩

theorem flashEnds_copyShown {c : Cadence} (h : CopyShown c) :
    c.flashEnds.copy = c.copy ∧ CopyShown c.flashEnds := by
  unfold Cadence.flashEnds
  split
  · exact ⟨rfl, h⟩
  · exact ⟨rfl, copyShown_of_same rfl rfl rfl rfl h⟩

end Sys2Proof.Machine
end

