-- ==== Sys2Proof/WellFormed.lean ====
section
/-! DEFINITION. Which terms of `Instr` stand for something the part can meet on its links and lines. The meanings are
total: an ill-formed term has an effect too. -/

namespace Sys2Proof

/-- The command byte is one of the six of R151. -/
def isRestraintCommand (c : Byte) : Bool :=
  c == 0x01 || c == 0x02 || c == 0x03 || c == 0x04 || c == 0x0A || c == 0x0B

/-- The kind byte is one of the five service requests of R177. -/
def isServiceKind (k : Byte) : Bool := 1 ≤ k.toNat && k.toNat ≤ 5

/-- The row has a sense input: rows 2 to 5 (section 1.4). -/
def hasSense (r : Row) : Bool := r != .r1

/-- What the store answered fits the 4 KiB part (section 0.2). -/
def storeFits : StoreAnswer → Bool
  | .unacknowledged => true
  | .image b => b.length ≤ 4096

/-- The command is well formed: an answer that is complete has at least one byte (R176), a sense change names a row with
a sense input (R11, R13), UNKNOWN_COMMAND and UNKNOWN_SERVICE_REQUEST carry a code outside the known ones (R150, R164),
and the store's bytes fit the store. -/
def WellFormed (c : Instr) : Bool :=
  match c with
  | .autoloadEnd a => storeFits a
  | .sampleAnswer b => b.length != 0
  | .readIdAnswer b => b.length != 0
  | .readRegAnswer b => b.length != 0
  | .writeRegAnswer b => b.length != 0
  | .senseMated r => hasSense r
  | .rowArrival r => hasSense r
  | .rowRemoval r => hasSense r
  | .matingDebounceStop r => hasSense r
  | .unknownCommand c _ => !isRestraintCommand c
  | .unknownServiceRequest k => !isServiceKind k
  | .reset _ _ | .ignLineChange _ | .ignAsserted | .ignDeasserted | .holdSet | .holdCleared | .restTimerExpiry
  | .wakeEvent _ | .endOfWakeSettle | .secondsCountTick | .slotTimerExpiry | .responseWindowExpiry
  | .powerSettleExpiry _ | .powerOffTimerExpiry _ | .onlineStabilityTimerExpiry _ | .positionBecomesStale _
  | .scanTimerExpiry _ _ | .tagReadTimerExpiry _ | .lockHoldTimerExpiry | .delayTimerExpiry _
  | .audibleTimerExpiry _ | .chimePeriodEnd | .flashPeriodEnd | .cadenceOnPartEnd _ | .outenAsserted
  | .outenDeasserted | .nop _ | .getFront _ | .getPosition _ | .getStatus _ | .lock _ | .unlock _ | .frameError
  | .vehicleState _ _ _ | .freshnessTimerExpiry | .degradeTimerExpiry | .mapTimerExpiry | .mapRequest
  | .reminderAck _ | .readParam _ _ | .writeParam _ _ | .clearChildList | .readChildEntry _ | .readRow _
  | .writeCompletion _ | .transmitAcknowledged | .busOff | .busOffRecovery | .supplyBelowHoldThreshold _
  | .resetRelease => true

end Sys2Proof
end

