-- ==== Sys2Proof/Tests/Slice0.lean ====
section
/-! SUPPORT. The tests: ill-formed terms that WellFormed refuses, the spec's worked values, one step of each kind of
command on a small state, and for each statement with hypotheses a state and operands that meet them. -/

namespace Sys2Proof.Tests

open Sys2Proof.Machine

set_option Elab.async false

/-! ### WellFormed refuses -/

theorem test_refuses_long_store : WellFormed (.autoloadEnd (.image (List.replicate 4097 0))) = false := by decide +kernel
theorem test_refuses_empty_sample : WellFormed (.sampleAnswer []) = false := by decide
theorem test_refuses_empty_identity : WellFormed (.readIdAnswer []) = false := by decide
theorem test_refuses_empty_register : WellFormed (.readRegAnswer []) = false := by decide
theorem test_refuses_empty_write : WellFormed (.writeRegAnswer []) = false := by decide
theorem test_refuses_mating_of_row_1 : WellFormed (.senseMated .r1) = false := by decide
theorem test_refuses_arrival_of_row_1 : WellFormed (.rowArrival .r1) = false := by decide
theorem test_refuses_removal_of_row_1 : WellFormed (.rowRemoval .r1) = false := by decide
theorem test_refuses_stop_for_row_1 : WellFormed (.matingDebounceStop .r1) = false := by decide
theorem test_refuses_known_command_as_unknown : WellFormed (.unknownCommand 0x0A 0) = false := by decide
theorem test_refuses_known_kind_as_unknown : WellFormed (.unknownServiceRequest 5) = false := by decide
theorem test_accepts_unknown_command : WellFormed (.unknownCommand 0x05 0) = true := by decide
theorem test_accepts_unknown_kind : WellFormed (.unknownServiceRequest 0) = true := by decide

/-! ### Words and frames -/

/-- No row of the opcode table has bits, so no word spells a command. -/
theorem test_no_word_spells_a_command : decodeTableWord 8 0x02 = none := by decide

/-- 12.4.1: the CRC-8 of a GET_FRONT request. -/
theorem test_crc8_worked : crc8 [0x02, 0x00, 0x00] = 0x8A := by decide +kernel

/-- 12.4.2: the CRC-16 of the two-byte body. -/
theorem test_crc16_worked : crc16 [0x01, 0x02] = 0x0E7C := by decide +kernel

/-- The bits of a byte, the most significant first (R175). -/
def bitsOf (b : Byte) : List Bool := [7, 6, 5, 4, 3, 2, 1, 0].map (fun i => b.getLsbD i)

/-- 12.4.1: the frame 0x02 0x00 0x00 0x8A is GET_FRONT. -/
theorem test_get_front_frame :
    restraintCommand (bitsOf 0x02 ++ bitsOf 0 ++ bitsOf 0 ++ bitsOf 0x8A) = .getFront 0 := by decide +kernel

/-- A frame whose CRC-8 fails is a frame error (R150). -/
theorem test_bad_crc_frame :
    restraintCommand (bitsOf 0x02 ++ bitsOf 0 ++ bitsOf 0 ++ bitsOf 0x8B) = .frameError := by decide +kernel

/-- 9.4, frame 4: 31 bits are a frame error (R148). -/
theorem test_short_frame : restraintCommand (List.replicate 31 true) = .frameError := by decide

/-- A VEHICLE_STATE under the default identifier 0x210 (R177). -/
theorem test_vehicle_state_frame :
    canCommand Groups.builtIn 0x210#11 [40, 3, 4, 0] = some (.vehicleState 40 3 4) := by decide

/-- A SERVICE_REQUEST under base 0x3C0 + 10: READ_ROW of row 2 (R177). -/
theorem test_read_row_frame :
    canCommand Groups.builtIn 0x3CA#11 [5, 2, 0, 0, 0, 0, 0, 0] = some (.readRow 2) := by decide

/-- A frame of another length is not taken (R155). -/
theorem test_wrong_length_frame : canCommand Groups.builtIn 0x210#11 [40, 3, 4] = none := by decide

/-! ### Worked values of the chapters -/

/-- 3.11: the corrected load of cell 1. -/
theorem test_cell_worked : correctCell 300 200 905 = 472 := by decide

/-- 3.12: a cell taken as 2047. -/
theorem test_cell_cap : correctCell 0 511 4095 = 2047 := by decide

/-- 3.12: a code below its offset. -/
theorem test_cell_below_offset : correctCell 350 256 200 = 0 := by decide

/-- The settings of 3.11. -/
def workedSettings : LoadSettings where
  offset := PerCell.all 300
  gain := ⟨200, 200, 210, 210, 190, 190, 180, 180⟩
  tension := true
  k := 32
  shift := 2
  threshold := 100

/-- A cell that is not marked faulted. -/
def good (code : Nat) : CellReading := ⟨BitVec.ofNat 12 code, false⟩

/-- The sample of 3.11. -/
def workedPart : SeatPart where
  cells := ⟨good 812, good 905, good 1210, good 980, good 455, good 610, good 700, good 390⟩
  tension := some 120
  buckle := .latched
  leftAnchor := .isOpen
  rightAnchor := .isOpen

/-- The load state of 3.11 before the sample: LIVE with F at 2700. -/
def workedLoad : LoadState := { LoadState.reset with phase := .live, filtered := 2700 }

/-- 3.11: W, C, E, footprint and F. -/
theorem test_sample_worked :
    let l := workedLoad.take workedSettings workedPart
    (l.total, l.compensation, l.effective, l.footprint, l.filtered) = (2864, 60, 2804, 7, 2726) := by decide

/-- 3.11: as a first sample F is set to E. -/
theorem test_first_sample_worked :
    ({ workedLoad with phase := .awaiting }.take workedSettings workedPart).filtered = 2804 := by decide

/-- 3.12: convergence, sample 1 and sample 14. -/
theorem test_filter_converges : (filterUpdate 2 2726 2804, filterUpdate 2 2801 2804) = (2745, 2802) := by decide

/-- 3.12: a falling load truncates toward zero, and a gap below 2^s moves F by 1. -/
theorem test_filter_falls : (filterUpdate 2 2800 2790, filterUpdate 3 2801 2800) = (2798, 2800) := by decide

/-- The REAR set of 5.2.1. -/
def rearSet : BandSet := ⟨150, 750, 2000, 100⟩

/-- 5.2.1: the eight band updates. -/
theorem test_bands_worked :
    [firstBand rearSet 700, moveBand rearSet 760 1, moveBand rearSet 700 2, moveBand rearSet 640 2,
      moveBand rearSet 2050 1, moveBand rearSet 1950 3, moveBand rearSet 40 3, firstBand rearSet 700]
      = [1, 2, 2, 1, 3, 3, 0, 1] := by decide

/-- A Classifier's state with a settled record, a previous candidate and a dwell count. -/
def dwelling (settled previous : ClassRecord) (n : Nat) : ClassState :=
  { ClassState.reset settled with previous := some previous, dwell := n }

/-- 5.5.1, evaluation 3: another candidate starts its own count. -/
theorem test_dwell_restarts : ((dwelling .vacant .object 2).settle .smallOccupant true 10).dwell = 1 := by decide

/-- 5.5.1, evaluation 9: an evaluation without an F update keeps the count. -/
theorem test_dwell_keeps : ((dwelling .vacant .smallOccupant 6).settle .smallOccupant false 10).dwell = 6 := by decide

/-- 5.5.1, evaluation 13: the tenth update settles. -/
theorem test_dwell_settles :
    ((dwelling .vacant .smallOccupant 9).settle .smallOccupant true 10).settled = .smallOccupant := by decide

/-- The terms of 7.3.1: SPEED_GE_V2, OR GEAR_MOVING, AND NOT STATE_FRESH, at 40 km/h in DRIVE with the copy FRESH. -/
def workedTerm (t : Word16) : Bool :=
  let v := t.toNat % 16 != 0
  if t.getLsbD 4 then !v else v

/-- 7.3.1: the fold has no precedence. -/
theorem test_fold_worked : foldTerms workedTerm [2, 35, 22] = false := by decide

/-- 7.3.1: the AND first gives the condition meant. -/
theorem test_fold_meant : foldTerms workedTerm [3, 22, 34] = true := by decide

/-- 9.4: epoch 300 in a NOP answer in RUN, unlocked. -/
theorem test_nop_payload_worked :
    nopPayload { State.reset with monitor := { Monitor.reset with device := .run }
                                  pub := { State.reset.pub with epoch := 300 } } = 0x52C := by decide

/-! ### Small states -/

/-- The part in RUN with the restraint port ready, rows 2 and 3 mated, and nothing published yet. -/
def runState : State :=
  { State.reset with
    pins := { State.reset.pins with sense := PerRow.all true, ignLine := true }
    monitor := { Monitor.reset with device := .run, ign := true }
    port := { Restraint.reset with ready := true } }

/-- The part in REST, with the rest timer running. -/
def restState : State :=
  { runState with
    pins := { runState.pins with ignLine := false }
    monitor := { Monitor.reset with device := .rest, restTimer := some 5 } }

/-- The part in SLEEP. -/
def sleepState : State := { State.reset with monitor := { Monitor.reset with device := .sleep } }

/-- The part in the wake settle. -/
def wakingState : State := { sleepState with monitor := { sleepState.monitor with wakeSettle := some 1 } }

/-- The part held in reset. -/
def resetState : State := { State.reset with monitor := { Monitor.reset with inReset := true } }

/-- A fitted position of row 2. -/
def pos4 : Pos := ⟨.r2, .s1⟩

/-- A row in a state. -/
def withRow (s : State) (r : Row) (f : RowRecord → RowRecord) : State := s.onRow r f

/-- The part in RUN with row 2 ONLINE and its positions sampled and VACANT. -/
def onlineState : State :=
  let s := withRow runState .r2 (fun x => { x with state := .online, rpwr := true, stability := some 9 })
  { s with
    line := { s.line with timer := .running 1, pointer := 0 }
    cls := s.cls.mapIdx (fun p c => if p.row = .r2 then { c with sampled := true, settled := .vacant } else c)
    pub := { s.pub with table := s.pub.table.mapIdx (fun p c => if p.row = .r2 then .vacant else c) }
    load := s.load.mapIdx (fun p l => if p.row = .r2 then { l with phase := .live, ageMode := .running } else l) }

/-- The same with an exchange of a kind on the line to row 2. -/
def exchangeState (kind : PollKind) (state : RowState) : State :=
  let s := withRow onlineState .r2 (fun x => { x with state := state })
  { s with line := { s.line with exchange := some ⟨.r2, kind, 0, [], false⟩ } }

/-- The crash lock held. -/
def lockedState : State := { runState with pub := { runState.pub with locked := true, holdTimer := some 1 } }

/-- A position's reminder in a state, with its timer. -/
def remState (x : RemState) : State :=
  runState.onRem ⟨.r2, .s1⟩ (fun r => { r with
    state := x, delay := if x = .wait then some 1 else none, audible := if x = .audible then some 1 else none
    start := true, escalate := true })

/-- A write in flight: the rest time (group 0, index 14) to 60 s. -/
def writingState : State :=
  { runState with
    body := { runState.body with vehicle := ⟨0, .park, Closures.closed, .fresh⟩ }
    settings := { runState.settings with write := some ⟨14, 60⟩ } }

/-- A child seat standing at a position of row 2, with its row ONLINE. -/
def seatedState : State :=
  { onlineState with child := { ChildUnit.reset with entries := [⟨7, .rear, .present, pos4, 0, 0⟩] } }

/-- A tag read in flight in row 2. -/
def readingState : State :=
  let s := withRow onlineState .r2 (fun x => { x with tagRead := some ⟨.s1, 1, false⟩ })
  { s with child := { s.child with tagTimers := s.child.tagTimers.modify .r2 (fun _ => some 1) } }

/-- A sleeping row wakes the schedule: the next slot of the default schedule names row 2. -/
theorem test_next_slot_names_row_2 : slotRow onlineState.settings.active (onlineState.line.pointer + 1).toNat = some .r2 := by
  decide

/-- The state a command leaves. -/
def after (c : Instr) (s : State) : State :=
  match exec c s with
  | .next t => t
  | .fault _ => s
  | .refused _ => s

/-! ### One step of a command -/

/-- An answer of row 2 to the exchange of `exchangeState`, with its CRC-8 (R176). -/
def answerOf (kind : Nat) (middle : List Byte) : List Byte :=
  let front := [2#8, byte (64 * kind)] ++ middle
  front ++ [crc8 front]

/-- A SAMPLE answer of three empty seats with the tag bytes given. -/
def emptySample (tag : List Byte) : List Byte := answerOf 0 (List.replicate 57 0 ++ tag)

theorem test_reset_latches_the_straps :
    (after (.reset .resetPin ⟨2, true, true⟩) runState).straps = ⟨2, true, true⟩ := by decide +kernel
theorem test_reset_clears_the_lock : (after (.reset .powerOn ⟨0, false, false⟩) lockedState).pub.locked = false := by
  decide +kernel
theorem test_release_ends_reset : (after .resetRelease resetState).monitor.inReset = false := by decide
theorem test_autoload_without_store :
    (after (.autoloadEnd .unacknowledged) State.reset).settings.config = .configFault := by decide +kernel
theorem test_autoload_ends_starting :
    (after (.autoloadEnd (.image [])) State.reset).pub.table.get ⟨.r1, .s3⟩ = .indeterminate .uncalibrated := by
  decide +kernel
theorem test_ign_line_debounces : (after (.ignLineChange true) restState).monitor.ignDebounce = some 50 := by decide
theorem test_ign_asserted_runs : (after .ignAsserted restState).monitor.device = .run := by decide +kernel
theorem test_ign_deasserted_rests : (after .ignDeasserted runState).monitor.restTimer = some 600000 := by decide +kernel
theorem test_hold_suspends_the_slots : (after .holdSet onlineState).line.timer = .suspended := by decide +kernel
theorem test_hold_freezes_ages : ((after .holdSet onlineState).load.get pos4).ageMode = .frozen := by decide +kernel
theorem test_hold_clears : (after .holdCleared (after .holdSet onlineState)).line.timer = .running 1 := by decide +kernel
theorem test_supply_dip_qualifies :
    (after (.supplyBelowHoldThreshold .fellBelow) runState).monitor.supply = .dipping 1 := by decide
theorem test_supply_returns_in_reset :
    (after (.supplyBelowHoldThreshold .returnedAbove) (after .holdSet resetState)).monitor.supply = .normal := by decide
theorem test_rest_timer_sleeps : (after .restTimerExpiry restState).monitor.device = .sleep := by decide +kernel
theorem test_wake_settle_starts : (after (.wakeEvent .canActivity) sleepState).monitor.wakeSettle = some 4 := by decide
theorem test_sleeping_port_is_silent : shiftedOut sleepState = none := by decide
theorem test_waking_frame_is_missed :
    after (.nop 0) (after (.wakeEvent (.chipSelect true)) sleepState) = after (.wakeEvent .canActivity) sleepState := by
  decide +kernel
theorem test_wake_input_disabled : (after (.wakeEvent .wake0) sleepState).monitor.wakeSettle = none := by decide
theorem test_wake_settle_ends_in_rest : (after .endOfWakeSettle wakingState).monitor.device = .rest := by decide +kernel
theorem test_seconds_count : (after .secondsCountTick sleepState).monitor.seconds = 1 := by decide
theorem test_slot_polls_an_online_row :
    ((after .slotTimerExpiry onlineState).line.exchange.map (·.poll)) = some (pollBytes 2 0 (.sample none)) := by
  decide +kernel
theorem test_window_expiry_scores : ((after .responseWindowExpiry (exchangeState .sample .online)).row .r2).score = 4 := by
  decide +kernel
theorem test_sample_is_good :
    ((after (.sampleAnswer (emptySample [0, 0, 0, 0, 0])) (exchangeState .sample .online)).row .r2).latch.seat1.isSome
      = true := by decide +kernel
theorem test_sample_crc_error :
    ((after (.sampleAnswer [2, 0, 0]) (exchangeState .sample .online)).row .r2).score = 4 := by decide +kernel
theorem test_identity_leads_to_checking :
    ((after (.readIdAnswer (answerOf 1 [1, 2, 0, 0, 0, 9])) (exchangeState .readId .probing)).row .r2).state = .checking := by
  decide +kernel
theorem test_register_passes :
    ((after (.readRegAnswer (answerOf 2 [0x5A, 0x12])) (exchangeState .readReg .checking)).row .r2).walk.entry = 1 := by
  decide +kernel
theorem test_register_fails :
    ((after (.readRegAnswer (answerOf 2 [0x5B, 0])) (exchangeState .readReg .checking)).row .r2).walk.attempts = 1 := by
  decide +kernel
theorem test_write_answer_of_another_kind :
    ((after (.writeRegAnswer (answerOf 3 [0, 0])) (exchangeState .readReg .checking)).row .r2).walk.attempts = 1 := by
  decide +kernel
theorem test_mating_debounces : ((after (.senseMated .r2) runState).row .r2).mating = some 100 := by decide
theorem test_mating_stops : ((after (.matingDebounceStop .r2) (after (.senseMated .r2) runState)).row .r2).mating = none := by
  decide
theorem test_row_arrives : ((after (.rowArrival .r2) (after (.senseMated .r2) runState)).row .r2).rpwr = true := by
  decide +kernel
theorem test_row_removed : (after (.rowRemoval .r2) onlineState).pub.table.get pos4 = .notInstalled := by decide +kernel
theorem test_removal_is_urgent : (after (.rowRemoval .r2) onlineState).body.slot.map (·.data)
    = some [7, 2, 3, 0, 2, 0, 0, 0] := by decide +kernel
theorem test_settle_expires :
    ((after (.powerSettleExpiry .r1) (withRow runState .r1 (fun x => { x with settle := .running 1 }))).row .r1).settle
      = .expired := by decide
theorem test_power_off_ends :
    ((after (.powerOffTimerExpiry .r2)
      (withRow runState .r2 (fun x => { x with state := .recovering, powerOff := some 1 }))).row .r2).settle
      = .running 50 := by decide
theorem test_stability_clears_recoveries :
    ((after (.onlineStabilityTimerExpiry .r2) (withRow onlineState .r2 (fun x => { x with recovery := 2 }))).row .r2).recovery
      = 0 := by decide
theorem test_stale_position :
    (after (.positionBecomesStale pos4) onlineState).pub.table.get pos4 = .indeterminate .staleSamples := by decide +kernel
theorem test_scan_makes_due :
    ((after (.scanTimerExpiry pos4 9) (onlineState.onCoil pos4 (fun c => { c with scan := some 1 }))).coil pos4).due
      = some 9 := by decide
theorem test_tag_timer_counts_a_fault : ((after (.tagReadTimerExpiry .r2) readingState).coil pos4).faults = 1 := by
  decide +kernel
theorem test_hold_timer_releases : (after .lockHoldTimerExpiry lockedState).pub.locked = false := by decide +kernel
theorem test_delay_ends_audible : ((after (.delayTimerExpiry pos4) (remState .wait)).rem.get pos4).state = .audible := by
  decide +kernel
theorem test_audible_ends_silenced :
    ((after (.audibleTimerExpiry pos4) (remState .audible)).rem.get pos4).state = .silenced := by decide +kernel
theorem test_on_part_ends :
    (after (.cadenceOnPartEnd .chime)
      (runState.onCadence (fun c => { c with chime := chimeCadence .front }))).cadence.chime.level = false := by decide
theorem test_period_reloads :
    (after .flashPeriodEnd
      (runState.onCadence (fun c => { c with flash := { flashCadence with unit := 249 } }))).cadence.flash.unit = 0 := by
  decide
theorem test_chime_changes_profile :
    (after .chimePeriodEnd (runState.onCadence (fun c => { c with
      chime := chimeCadence .front, active := .front
      copy := c.copy.modify pos4 (fun _ => .audible) }))).cadence.active = .rear := by decide
theorem test_outen_drives : chimePin (after .outenAsserted runState) = .inactive := by decide
theorem test_outen_off : chimePin (after .outenDeasserted { runState with straps := ⟨0, false, true⟩ }) = .highImpedance := by
  decide
theorem test_nop_answers : (after (.nop 0) runState).port.response = ⟨1, .ok, 0x400⟩ := by decide
theorem test_get_front_not_ready : (after (.getFront 0) State.reset).port.response = ⟨2, .notReady, 0x770⟩ := by decide
theorem test_get_position : (after (.getPosition 4) onlineState).port.response = ⟨3, .ok, 0⟩ := by decide
theorem test_get_position_bad : (after (.getPosition 16) runState).port.response.status = .badArgument := by decide
theorem test_get_status : (after (.getStatus 0) onlineState).port.response.payload = 0x485 := by decide
theorem test_lock_holds : (after (.lock 2) runState).pub.holdTimer = some 5000 := by decide +kernel
theorem test_unlock_releases : (after (.unlock 0) lockedState).pub.locked = false := by decide +kernel
theorem test_frame_error : (after .frameError runState).port.response = ⟨0xFF, .frameError, 0⟩ := by decide
theorem test_unknown_command : (after (.unknownCommand 5 0) runState).port.response.status = .unknownCommand := by decide
theorem test_vehicle_state : (after (.vehicleState 40 3 4) runState).body.vehicle.gear = .drive := by decide +kernel
theorem test_vehicle_state_bad_gear : (after (.vehicleState 40 5 4) runState).body.vehicle.speed = 0 := by decide
theorem test_freshness_ends :
    (after .freshnessTimerExpiry (after (.vehicleState 40 3 4) runState)).body.degrade = some 2000 := by decide +kernel
theorem test_degraded :
    (after .degradeTimerExpiry (runState.onBody (fun b => { b with degrade := some 1 }))).body.vehicle.freshness
      = .degraded := by decide +kernel
theorem test_map_timer : (after .mapTimerExpiry (runState.onBody (fun b => { b with mapTimer := some 1 }))).body.slot.map
    (·.canId) = some 0x3C0 := by decide +kernel
theorem test_map_request_clears_resync :
    (after .mapRequest (runState.onBody (fun b => { b with resync := true }))).body.resync = false := by decide +kernel
theorem test_ack_silences : ((after (.reminderAck 8) (remState .audible)).rem.get pos4).state = .silenced := by
  decide +kernel
theorem test_read_param : (after (.readParam 14 0) runState).body.reply = some ⟨1, 0, [0, 14, 2, 88], 0⟩ := by decide +kernel
theorem test_write_param_moving : (after (.writeParam 14 60) runState).body.reply.map (·.code) = some 3 := by
  decide +kernel
theorem test_write_param_taken :
    (after (.writeParam 14 60) { writingState with settings := runState.settings }).settings.write = some ⟨14, 60⟩ := by
  decide +kernel
theorem test_clear_list : (after .clearChildList seatedState).child.entries = [] := by decide +kernel
theorem test_read_entry : (after (.readChildEntry 0) seatedState).body.reply.map (fun r => r.content.take 8)
    = some [0, 1, 0, 0, 7, 0, 1, 4] := by decide +kernel
theorem test_read_entry_range : (after (.readChildEntry 16) seatedState).body.reply.map (·.code) = some 4 := by
  decide +kernel
theorem test_read_row : (after (.readRow 2) onlineState).body.reply.map (fun r => r.content.take 5)
    = some [2, 3, 0, 0, 0] := by decide +kernel
theorem test_unknown_request : (after (.unknownServiceRequest 9) runState).body.reply = some ⟨9, 4, [], 0⟩ := by
  decide +kernel
theorem test_write_completes :
    restTime (after (.writeCompletion .readBackAsWritten) writingState) = 60000 := by decide +kernel
theorem test_write_fails :
    (after (.writeCompletion .headerFailed) writingState).settings.config = .storeInconsistent := by decide +kernel
theorem test_acknowledged_map :
    (after .transmitAcknowledged (after .mapRequest runState)).body.slot.map (·.canId) = some 0x3C1 := by decide +kernel
theorem test_bus_off_empties_the_slot : (after .busOff (after .mapRequest runState)).body.slot = none := by decide +kernel
theorem test_bus_off_in_sleep : (after (.wakeEvent .canActivity) (after .busOff sleepState)).body.busOff = true := by decide
theorem test_bus_off_recovers :
    (after .busOffRecovery (after .busOff (after .mapRequest runState))).body.slot.map (·.canId) = some 0x3C0 := by
  decide +kernel

/-- The third failed attempt of a row whose recoveries are used up is counted, and the row is FAILED (R30, R33). -/
theorem test_third_attempt_counts :
    let x := (after .responseWindowExpiry (withRow (exchangeState .readReg .checking) .r2 (fun x => { x with
      recovery := 2, walk := ⟨1, .read, 2⟩ }))).row .r2
    (x.state, x.walk.attempts) = (.failed, 3) := by decide +kernel

/-- A step on an empty queue counts 1 ms. -/
theorem test_idle_step_counts : (match step runState with
    | .next t => t.monitor.now
    | .fault _ => 0
    | .refused _ => 0) = 1 := by decide +kernel

/-! ### States that meet the statements' hypotheses -/

/-- A running part meets the conditions on its reset, device state and reception. -/
theorem running_runState : Running runState := ⟨by decide, by decide⟩
theorem running_restState : Running restState := ⟨by decide, by decide⟩
theorem running_onlineState : Running onlineState := ⟨by decide, by decide⟩
theorem running_lockedState : Running lockedState := ⟨by decide, by decide⟩
theorem running_writingState : Running writingState := ⟨by decide, by decide⟩
theorem receiving_runState : Receiving runState := ⟨⟨by decide, by decide⟩, by decide⟩
theorem serving_runState : Serving runState := ⟨running_runState, by decide, by decide⟩
theorem serving_lockedState : Serving lockedState := ⟨running_lockedState, by decide, by decide⟩
theorem serving_writingState : Serving writingState := ⟨running_writingState, by decide, by decide⟩

theorem witness_StepRunsTheFrontCommand : ∃ c rest, ({ runState with pending := [.busOff, .frameError] } : State).pending = c :: rest :=
  ⟨.busOff, [.frameError], rfl⟩
theorem witness_IdleStepsCountTime_held : resetState.pending = [] ∧ resetState.monitor.inReset = true := by decide
theorem witness_IdleStepsCountTime_counting : runState.pending = [] ∧ runState.monitor.inReset = false := by decide
theorem witness_ResetTakesEveryBlock_held : resetState.monitor.inReset = true := by decide
theorem witness_ResetTakesEveryBlock_released : runState.monitor.inReset = false := by decide
theorem witness_AutoloadJudgesTheImage : State.reset.monitor.inReset = false ∧ State.reset.monitor.device = .starting := by
  decide

/-- A position record of position 4 with a cell offset out of range. -/
def failingWords : List Word16 := (defaultPosition pos4).set 0 2000

/-- The body of an image: position 4 with a failing record, position 6 with a record of one value and a reminder record that
passes. -/
def imageRecords : List Byte :=
  recordBytes 4 failingWords ++ recordBytes 6 [0] ++ recordBytes 16 (defaultReminder.set 5 30)

/-- A store that holds that image for variant 000: signature, version, variant, a length of 78 and the CRC-16 (R165). -/
def imageBytes : List Byte :=
  [0xA7#8, 0xC5#8, 1#8, 0#8, 0#8, 78#8, 0xCE#8, 0x41#8] ++ List.replicate 8 0#8 ++ imageRecords

/-- The CRC-16 of the image's body in two parts: one evaluation of all of it nests too deep for the kernel. -/
theorem imageCrc_first : (imageRecords.take 40).foldl crc16Byte 0xFFFF#16 = 0xCD10#16 := by decide +kernel
theorem imageCrc_rest : (imageRecords.drop 40).foldl crc16Byte 0xCD10#16 = 0xCE41#16 := by decide +kernel
theorem imageCrc : crc16 imageRecords = 0xCE41#16 := by
  rw [crc16, ← List.take_append_drop 40 imageRecords, List.foldl_append, imageCrc_first, imageCrc_rest]
theorem imageBytes_body : imageBody imageBytes = imageRecords := by decide +kernel
theorem witness_AutoloadJudgesTheImage_configured : judgeImage State.reset (.image imageBytes) = .configured := by
  have h : headerSignature imageBytes = 0xA7C5#16 ∧ (headerVersion imageBytes = 1 ∧ headerLength imageBytes = 78)
      ∧ variantFault State.reset = false ∧ headerVariant imageBytes = State.reset.straps.var.setWidth 8
      ∧ headerCrc imageBytes = 0xCE41#16 := by decide +kernel
  simp [judgeImage, h, imageBytes_body, imageCrc]
theorem autoload_config (a : StoreAnswer) (s : State) (hr : s.monitor.inReset = false) (hd : s.monitor.device = .starting) :
    (after (.autoloadEnd a) s).settings.config = judgeImage s a := by
  have h := ((evaluateStart_changes ((goLive s.monitor.ign (s.onSettings (fun _ => autoloaded s a))).onPort
    (fun u => { u with ready := true }))) .settings (by decide)).trans
    ((goLive_changes s.monitor.ign (s.onSettings (fun _ => autoloaded s a))) .settings (by decide))
  have ht : after (.autoloadEnd a) s = evaluateStart ((goLive s.monitor.ign (s.onSettings (fun _ => autoloaded s a))).onPort
      (fun u => { u with ready := true })) := by
    simp [after, exec, execAutoloadEnd, outsideReset, autoloadEnds, State.onSettings, hr, hd]
  rw [ht, h]
  simp only [State.onSettings, autoloaded]
  split <;> rfl
theorem witness_AutoloadJudgesTheImage_config :
    (after (.autoloadEnd (.image imageBytes)) State.reset).settings.config = .configured :=
  (autoload_config _ _ (by decide) (by decide)).trans witness_AutoloadJudgesTheImage_configured
theorem witness_AutoloadJudgesTheImage_records :
    (bodyRecords (imageBody imageBytes)).map (·.group) = [4, 6, 16]
    ∧ recordOf (bodyRecords (imageBody imageBytes)) 4 = some failingWords
    ∧ recordOf (bodyRecords (imageBody imageBytes)) 6 = some [0] := by decide +kernel
theorem witness_AutoloadJudgesTheImage_passes : PositionRecordPasses State.reset ⟨.r2, .s2⟩ (defaultPosition ⟨.r2, .s2⟩)
    ∧ ¬ PositionRecordPasses State.reset pos4 failingWords :=
  ⟨⟨by decide, fun i h1 h2 => by interval_cases i <;> decide, by decide, by decide, by decide, by decide, by decide,
    fun h => absurd h (by decide), fun h => absurd h (by decide), fun h => absurd h (by decide),
    fun h => absurd h (by decide), by decide, by decide⟩, fun h => absurd (h.1 0 (by decide)) (by decide)⟩
theorem witness_AutoloadJudgesTheImage_groups : ReminderRecordPasses (defaultReminder.set 5 30)
    ∧ (defaultReminder.set 5 30).length = 7 ∧ ¬ (∀ i, i < 32 → wordAt (defaultSchedule.set 0 6) i ≤ 5)
    ∧ (defaultSchedule.set 0 6).length = 32 :=
  ⟨by unfold ReminderRecordPasses; decide, by decide, fun h => absurd (h 0 (by decide)) (by decide), by decide⟩
theorem witness_StartingEnds : State.reset.monitor.inReset = false ∧ State.reset.monitor.device = .starting
    ∧ State.reset.pub.locked = false ∧ posFitted State.reset ⟨.r3, .s3⟩ = true := by decide

/-- STARTING with the debounced IGN asserted. -/
def ignStartState : State := State.reset.onMonitor (fun m => { m with ign := true })

theorem witness_StartingEnds_reminders :
    remHeld (after (.autoloadEnd .unacknowledged) ignStartState) ⟨.r1, .s1⟩ = false
    ∧ remHeld (after (.autoloadEnd .unacknowledged) ignStartState) pos4 = true := by decide +kernel
theorem witness_StartingEnds_timers : RemTimersInv (ignStartState.rem.get ⟨.r1, .s1⟩) := by unfold RemTimersInv; decide
theorem witness_MonitorLines : runState.monitor.inReset = false ∧ runState.monitor.device ≠ .sleep
    ∧ runState.monitor.supply = .normal := by decide
theorem witness_MonitorLines_dipping : (after (.supplyBelowHoldThreshold .fellBelow) resetState).monitor.supply ≠ .normal
    ∧ (after (.supplyBelowHoldThreshold .fellBelow) resetState).monitor.inReset = true := by decide
theorem witness_IgnAssertsInRest : restState.monitor.inReset = false ∧ restState.monitor.ign = false
    ∧ restState.monitor.device = .rest ∧ remHeld (after .ignAsserted restState) ⟨.r1, .s1⟩ = false
    ∧ remHeld (after .ignAsserted restState) pos4 = true := by decide +kernel
theorem witness_IgnAssertsInRest_timers : RemTimersInv (restState.rem.get ⟨.r1, .s1⟩) := by unfold RemTimersInv; decide
theorem witness_IgnDeassertsInRun : runState.monitor.inReset = false ∧ runState.monitor.ign = true
    ∧ runState.monitor.device = .run := by decide
theorem witness_HoldIsSet : Running onlineState ∧ onlineState.monitor.hold = false := ⟨running_onlineState, by decide⟩

/-- A running part under HOLD with a frozen age past its limit. -/
def heldState : State :=
  { onlineState with
    monitor := { onlineState.monitor with hold := true, supply := .low }
    load := onlineState.load.mapIdx (fun _ l => { l with ageMode := .frozen, age := 151 }) }

theorem witness_HoldIsCleared : Running heldState ∧ heldState.monitor.hold = true
    ∧ staleLimit heldState pos4 < (heldState.load.get pos4).age := ⟨⟨by decide, by decide⟩, by decide, by decide⟩
theorem witness_RestTimerExpires_sleeps : restState.monitor.inReset = false ∧ restState.monitor.device = .rest
    ∧ restState.monitor.restTimer = some 5 ∧ restState.settings.write = none ∧ restState.pub.locked = false := by decide

/-- A resting part with the crash lock held. -/
def restLockedState : State := { restState with pub := { restState.pub with locked := true } }

theorem witness_RestTimerExpires_stays : restLockedState.monitor.inReset = false
    ∧ restLockedState.monitor.device = .rest ∧ restLockedState.monitor.restTimer = some 5
    ∧ (restLockedState.settings.write.isSome = true ∨ restLockedState.pub.locked = true) := by decide
theorem witness_WakeEvents_asleep : sleepState.monitor.inReset = false ∧ sleepState.monitor.device = .sleep
    ∧ sleepState.monitor.wakeSettle = none := by decide
theorem witness_WakeEvents_waking : wakingState.monitor.inReset = false ∧ wakingState.monitor.device = .sleep
    ∧ wakingState.monitor.wakeSettle = some 1 := by decide
theorem witness_WakeEvents_waking_frame :
    (after (.wakeEvent (.chipSelect true)) sleepState).monitor.wakeSettle = some 4
    ∧ (after (.wakeEvent (.chipSelect true)) sleepState).port.wakingFrame = true := by decide

/-- A waking part with a PROVISIONAL child seat in a row that is unmated. -/
def wakingSeatState : State :=
  { wakingState with child := { ChildUnit.reset with entries := [⟨7, .rear, .provisional, pos4, 0, 0⟩] } }

theorem witness_WakeSettleEnds : wakingSeatState.monitor.inReset = false ∧ wakingSeatState.monitor.device = .sleep
    ∧ wakingSeatState.monitor.wakeSettle = some 1 ∧ wakingSeatState.pub.locked = false ∧ OneStanding wakingSeatState.child :=
  ⟨by decide, by decide, by decide, by decide, fun _ => List.length_filter_le _ _⟩
theorem witness_WakeSettleEnds_entries : TagsInv wakingSeatState.child ∧ wakingSeatState.body.queue = []
    ∧ kindClass wakingSeatState.settings.active 6 = 1 := ⟨by unfold TagsInv; decide, by decide, by decide⟩
theorem witness_WakeSettleEnds_absent :
    ((after .endOfWakeSettle wakingSeatState).row pos4.row).state = .absent
    ∧ remHeld (after .endOfWakeSettle wakingSeatState) pos4 = true
    ∧ remHeld (after .endOfWakeSettle (wakingSeatState.onPins (fun u => { u with ignLine := true }))) ⟨.r1, .s1⟩ = false := by
  decide +kernel

/-- The slot timer runs with an exchange still on the line. -/
theorem witness_SlotIsTaken_exchange : (exchangeState .sample .online).line.timer = .running 1
    ∧ (exchangeState .sample .online).line.exchange = some ⟨.r2, .sample, 0, [], false⟩ := by decide

/-- The slot of `onlineState` is free, and names row 2. -/
theorem witness_SlotIsTaken : onlineState.line.timer = .running 1 ∧ onlineState.line.exchange = none
    ∧ slotRow onlineState.settings.active (onlineState.line.pointer + 1).toNat = some .r2
    ∧ rowFitted onlineState .r2 = true ∧ (onlineState.row .r2).state = .online := by decide

/-- The next slot of this state is EMPTY. -/
def emptySlotState : State :=
  { onlineState with settings := { onlineState.settings with
      active := { Groups.builtIn with schedule := List.replicate 32 0 } } }

theorem witness_SlotIsTaken_empty : emptySlotState.line.timer = .running 1 ∧ emptySlotState.line.exchange = none
    ∧ slotRow emptySlotState.settings.active (emptySlotState.line.pointer + 1).toNat = none := by decide

/-- Row 2, named by the next slot, in another state. -/
def slotState (x : RowState) (settle : Settle) : State :=
  withRow onlineState .r2 (fun y => { y with state := x, settle := settle })

theorem witness_SlotIsTaken_idle : (slotState .probing (.running 3)).line.exchange = none
    ∧ ((slotState .probing (.running 3)).row .r2).state = .probing
    ∧ ((slotState .probing (.running 3)).row .r2).settle ≠ .expired := by decide
theorem witness_SlotIsTaken_probing : (slotState .probing .expired).line.timer = .running 1
    ∧ ((slotState .probing .expired).row .r2).state = .probing ∧ ((slotState .probing .expired).row .r2).settle = .expired := by
  decide
theorem witness_SlotIsTaken_checking : (slotState .checking .expired).line.timer = .running 1
    ∧ ((slotState .checking .expired).row .r2).state = .checking := by decide

/-- Position 4 has an urgent request, position 5 too. -/
def urgentState : State :=
  (onlineState.onCoil pos4 (fun c => { c with urgent := true })).onCoil ⟨.r2, .s2⟩ (fun c => { c with urgent := true })

theorem witness_TagStartIsNamed_urgent : urgentState.line.timer = .running 1 ∧ (urgentState.row .r2).tagRead = none
    ∧ coilFitted urgentState pos4 = true ∧ (urgentState.coil pos4).urgent = true := by decide

/-- Positions 4 and 5 fell due at the same millisecond. -/
def dueState : State :=
  (onlineState.onCoil pos4 (fun c => { c with due := some 8 })).onCoil ⟨.r2, .s2⟩ (fun c => { c with due := some 8 })

theorem witness_TagStartIsNamed_due : dueState.line.timer = .running 1 ∧ (dueState.row .r2).tagRead = none
    ∧ coilFitted dueState pos4 = true ∧ (dueState.coil pos4).due = some 8 ∧ (dueState.coil ⟨.r2, .s2⟩).due = some 8
    ∧ ([⟨.r2, .s1⟩, ⟨.r2, .s2⟩, ⟨.r2, .s3⟩] : List Pos).all (fun q => !(dueState.coil q).urgent) = true := by decide
theorem witness_TagStartIsNamed_none : (onlineState.row .r2).tagRead = none
    ∧ ([⟨.r2, .s1⟩, ⟨.r2, .s2⟩, ⟨.r2, .s3⟩] : List Pos).all (fun q =>
        !(onlineState.coil q).urgent && (onlineState.coil q).due.isNone) = true := by decide
theorem witness_TagStartIsNamed_reading : readingState.line.timer = .running 1 ∧ readingState.line.exchange = none
    ∧ (readingState.row .r2).tagRead.isSome = true := by decide

/-- The exchange of `exchangeState`. -/
def exchangeOf (kind : PollKind) : Exchange := ⟨.r2, kind, 0, [], false⟩

/-- A SAMPLE exchange with a row at a score and a recovery count. -/
def scoredState (score recovery : Nat) : State :=
  withRow (exchangeState .sample .online) .r2 (fun x => { x with score := score, recovery := recovery })

theorem witness_SampleExchangeFails : (scoredState 27 0).line.exchange = some (exchangeOf .sample)
    ∧ ((scoredState 27 0).row .r2).state = .online ∧ ((scoredState 27 0).row .r2).score + 4 < 32
    ∧ FailsExchange (scoredState 27 0) (exchangeOf .sample) (.sampleAnswer [1, 2])
    ∧ PublicationInv (scoredState 27 0) := by
  refine ⟨by decide, by decide, by decide, .inr ⟨[1, 2], by decide +kernel, rfl⟩, ?_⟩
  intro p
  obtain ⟨r, k⟩ := p
  cases r <;> cases k <;> decide

/-- A child seat standing at position 4, whose tag position 7 contests. -/
def contestedState : State := seatedState.onCoil ⟨.r3, .s1⟩ (fun c => { c with contest := some 7 })

theorem listInv_contestedState : ListInv contestedState.child := by
  refine ⟨by unfold TagsInv; decide, fun _ => List.length_filter_le _ _, by decide, fun p x h => ?_⟩
  obtain ⟨r, k⟩ := p
  cases r <;> cases k <;> cases h
  exact ⟨⟨7, .rear, .present, pos4, 0, 0⟩, List.mem_cons_self, rfl, by decide, by decide⟩

theorem lowest_contestedState : LowestContest contestedState .r2 7 ⟨.r3, .s1⟩ := by
  refine ⟨by decide, by decide, fun p _ h => ?_⟩
  obtain ⟨r, k⟩ := p
  cases r <;> cases k <;> revert h <;> decide

/-- A SAMPLE exchange whose failure takes the row out of ONLINE, with that child seat in it. -/
def leavingState (recovery : Nat) : State := { scoredState 28 recovery with child := contestedState.child }

theorem witness_SampleExchangeFails_leaves : (leavingState 1).line.exchange = some (exchangeOf .sample)
    ∧ ((leavingState 1).row .r2).state = .online ∧ 32 ≤ ((leavingState 1).row .r2).score + 4
    ∧ FailsExchange (leavingState 1) (exchangeOf .sample) .responseWindowExpiry
    ∧ ((leavingState 1).row .r2).recovery + 1 < 3 ∧ 3 ≤ ((leavingState 2).row .r2).recovery + 1
    ∧ awake (leavingState 1) = true ∧ (leavingState 1).pub.locked = false ∧ posFitted (leavingState 1) pos4 = true
    ∧ (leavingState 1).body.queue.length < 23 ∧ kindClass (leavingState 1).settings.active 7 = 1
    ∧ kindClass (leavingState 1).settings.active 8 = 1 :=
  ⟨by decide, by decide, by decide, .inl rfl, by decide, by decide, by decide, by decide, by decide, by decide, by decide,
    by decide⟩
theorem witness_SampleExchangeFails_contest : ListInv (leavingState 1).child
    ∧ LowestContest (leavingState 1) .r2 7 ⟨.r3, .s1⟩ := ⟨listInv_contestedState, lowest_contestedState⟩
theorem witness_SampleExchangeFails_alone : ListInv seatedState.child ∧ ∀ q, ¬ LowestContest seatedState .r2 7 q := by
  refine ⟨⟨by unfold TagsInv; decide, fun _ => List.length_filter_le _ _, by decide, fun p x h => ?_⟩, fun q h => ?_⟩
  · obtain ⟨r, k⟩ := p
    cases r <;> cases k <;> cases h
  · obtain ⟨r, k⟩ := q
    cases r <;> cases k <;> cases h.2.1
theorem witness_ReadIdOutcomes_good : (exchangeState .readId .probing).line.exchange = some (exchangeOf .readId)
    ∧ ((exchangeState .readId .probing).row .r2).state = .probing
    ∧ judgeAnswer (exchangeState .readId .probing) (exchangeOf .readId) (answerOf 1 [1, 2, 0, 0, 0, 9]) = .good
    ∧ 0 < checkCount (exchangeState .readId .probing).settings.active := by decide +kernel

/-- A state with an empty check table. -/
def withoutChecks (s : State) : State :=
  s.onSettings (fun u => { u with active := { u.active with check := u.active.check.set 0 0 } })

theorem witness_ReadIdOutcomes_empty :
    (withoutChecks (exchangeState .readId .probing)).line.exchange = some (exchangeOf .readId)
    ∧ ((withoutChecks (exchangeState .readId .probing)).row .r2).state = .probing
    ∧ judgeAnswer (withoutChecks (exchangeState .readId .probing)) (exchangeOf .readId) (answerOf 1 [1, 2, 0, 0, 0, 9]) = .good
    ∧ checkCount (withoutChecks (exchangeState .readId .probing)).settings.active = 0
    ∧ (withoutChecks (exchangeState .readId .probing)).body.queue.length < 24
    ∧ kindClass (withoutChecks (exchangeState .readId .probing)).settings.active 7 = 1 := by decide +kernel

/-- A READ_ID exchange with a row at a failure count. -/
def probedState (failures : Nat) : State :=
  withRow (exchangeState .readId .probing) .r2 (fun x => { x with idFailures := failures })

theorem witness_ReadIdOutcomes_bad : (probedState 14).line.exchange = some (exchangeOf .readId)
    ∧ ((probedState 14).row .r2).state = .probing
    ∧ FailsExchange (probedState 14) (exchangeOf .readId) (.readIdAnswer [1, 2])
    ∧ ((probedState 14).row .r2).idFailures + 1 < 16 ∧ 16 ≤ ((probedState 15).row .r2).idFailures + 1
    ∧ ((probedState 15).row .r2).recovery + 1 < 3 :=
  ⟨by decide, by decide, .inr ⟨[1, 2], by decide +kernel, rfl⟩, by decide, by decide, by decide⟩

/-- An exchange of the check walk at an entry, a phase and an attempt count. -/
def walkedState (kind : PollKind) (w : Walk) : State :=
  withRow (exchangeState kind .checking) .r2 (fun x => { x with walk := w })

theorem witness_CheckWalkMoves_next : (walkedState .readReg ⟨0, .read, 0⟩).line.exchange = some (exchangeOf .readReg)
    ∧ ((walkedState .readReg ⟨0, .read, 0⟩).row .r2).state = .checking
    ∧ judgeAnswer (walkedState .readReg ⟨0, .read, 0⟩) (exchangeOf .readReg) (answerOf 2 [0x5A, 0]) = .good
    ∧ (parseRegister (answerOf 2 [0x5A, 0]) &&& checkMask Groups.builtIn 0) = checkExpected Groups.builtIn 0
    ∧ 0 + 1 < checkCount Groups.builtIn := by decide +kernel
theorem witness_CheckWalkMoves_last :
    judgeAnswer (walkedState .readReg ⟨2, .reread, 0⟩) (exchangeOf .readReg) (answerOf 2 [0, 1]) = .good
    ∧ (parseRegister (answerOf 2 [0, 1]) &&& checkMask Groups.builtIn 2) = checkExpected Groups.builtIn 2
    ∧ checkCount Groups.builtIn ≤ 2 + 1 ∧ (walkedState .readReg ⟨2, .reread, 0⟩).body.queue.length < 24
    ∧ kindClass Groups.builtIn 7 = 1 := by decide +kernel
theorem witness_CheckWalkMoves_fails :
    judgeAnswer (walkedState .readReg ⟨1, .read, 2⟩) (exchangeOf .readReg) (answerOf 2 [0, 1]) = .good
    ∧ (parseRegister (answerOf 2 [0, 1]) &&& checkMask Groups.builtIn 1) ≠ checkExpected Groups.builtIn 1
    ∧ checkHasWrite Groups.builtIn 1 = true ∧ checkHasWrite Groups.builtIn 0 = false := by decide +kernel
theorem witness_CheckWalkMoves_writes : (walkedState .writeReg ⟨1, .write, 0⟩).line.exchange = some (exchangeOf .writeReg)
    ∧ judgeAnswer (walkedState .writeReg ⟨1, .write, 0⟩) (exchangeOf .writeReg) (answerOf 3 [0, 8]) = .good := by
  decide +kernel
theorem witness_CheckWalkMoves_no_answer : (walkedState .readReg ⟨1, .read, 2⟩).line.exchange = some (exchangeOf .readReg)
    ∧ ((walkedState .readReg ⟨1, .read, 2⟩).row .r2).state = .checking ∧ (exchangeOf .readReg).detached = false
    ∧ FailsExchange (walkedState .readReg ⟨1, .read, 2⟩) (exchangeOf .readReg) .responseWindowExpiry :=
  ⟨by decide, by decide, by decide, .inl rfl⟩

/-- An exchange that a replaced check table detached from the walk. -/
def detachedState : State :=
  (walkedState .readReg ⟨0, .read, 0⟩).onLine (fun l => { l with exchange := some ⟨.r2, .readReg, 0, [], true⟩ })

theorem witness_CheckWalkMoves_detached : detachedState.line.exchange = some ⟨.r2, .readReg, 0, [], true⟩
    ∧ (detachedState.row .r2).state = .checking
    ∧ FailsExchange detachedState ⟨.r2, .readReg, 0, [], true⟩ .responseWindowExpiry := ⟨by decide, by decide, .inl rfl⟩
theorem witness_CheckWalkMoves_detached_good :
    judgeAnswer detachedState ⟨.r2, .readReg, 0, [], true⟩ (answerOf 2 [0x5A, 0]) = .good := by decide +kernel
theorem witness_SampleIsDelivered : (exchangeState .sample .online).line.exchange = some (exchangeOf .sample)
    ∧ ((exchangeState .sample .online).row .r2).state = .online
    ∧ judgeAnswer (exchangeState .sample .online) (exchangeOf .sample) (emptySample [0, 0, 0, 0, 0]) = .good
    ∧ posFitted (exchangeState .sample .online) pos4 = true ∧ awake (exchangeState .sample .online) = true
    ∧ ((parseSeat (emptySample [0, 0, 0, 0, 0]) .s1).cells.toList.filter (·.faulted)).length < 3 := by decide +kernel

/-- A SAMPLE answer whose seat 1 has three faulted cells. -/
def faultedSample : List Byte :=
  answerOf 0 ([0x80, 0, 0x80, 0, 0x80, 0] ++ List.replicate 51 0 ++ [0, 0, 0, 0, 0])

theorem witness_SampleIsDelivered_faulted :
    judgeAnswer (exchangeState .sample .online) (exchangeOf .sample) faultedSample = .good
    ∧ ((parseSeat faultedSample .s1).cells.toList.filter (·.faulted)).length = 3 := by decide +kernel

/-- A SAMPLE exchange with a read in flight at position 4, and tag 7 PROVISIONAL at position 7. -/
def taggedState : State :=
  let s := withRow (exchangeState .sample .online) .r2 (fun x => { x with tagRead := some ⟨.s1, 1, false⟩ })
  { s with child := { s.child with
      entries := [⟨7, .rear, .provisional, ⟨.r3, .s1⟩, 0, 0⟩]
      tagTimers := s.child.tagTimers.modify .r2 (fun _ => some 9) } }

/-- A GOOD SAMPLE with a DONE for seat 1, read 1: FOUND tag 7, REAR. The first byte is for the caller to vary. -/
def foundSample (first : Byte) : List Byte := emptySample [first, 0, 0, 7, 0]

theorem witness_SampleIsDelivered_done : taggedState.line.exchange = some (exchangeOf .sample)
    ∧ (taggedState.row .r2).state = .online ∧ judgeAnswer taggedState (exchangeOf .sample) (foundSample 0x95) = .good
    ∧ parseTagStatus (foundSample 0x95) = .done 1 1 (.found 7 .rear)
    ∧ (taggedState.row .r2).tagRead = some ⟨.s1, 1, false⟩
    ∧ (takeResult pos4 (.found 7 .rear) taggedState).body.queue.length ≤ 15
    ∧ (∃ e ∈ (takeResult pos4 (.found 7 .rear) taggedState).body.queue, e.urgent = true) :=
  ⟨by decide, by decide, by decide +kernel, by rfl, by decide, by decide +kernel, by decide +kernel⟩
theorem witness_SampleIsDelivered_other_done :
    judgeAnswer taggedState (exchangeOf .sample) (foundSample 0x99) = .good
    ∧ parseTagStatus (foundSample 0x99) = .done 1 2 (.found 7 .rear)
    ∧ judgeAnswer taggedState (exchangeOf .sample) (emptySample [0x40, 0, 0, 0, 0]) = .good
    ∧ parseTagStatus (emptySample [0x40, 0, 0, 0, 0]) = .busy :=
  ⟨by decide +kernel, by rfl, by decide +kernel, by rfl⟩
theorem witness_SampleIsDelivered_elsewhere :
    (evidence taggedState ⟨.r3, .s1⟩ ≠ evidence (after (.sampleAnswer (foundSample 0x95)) taggedState) ⟨.r3, .s1⟩)
    ∧ posFitted taggedState ⟨.r3, .s1⟩ = true ∧ awake taggedState = true
    ∧ evidence taggedState ⟨.r3, .s2⟩ = evidence (after (.sampleAnswer (foundSample 0x95)) taggedState) ⟨.r3, .s2⟩ := by
  decide +kernel

/-- The debounce of row 2 runs. -/
def matingState : State := withRow runState .r2 (fun x => { x with mating := some 1 })

theorem witness_RowArrives : Watched matingState .r2 ∧ (matingState.row .r2).state = .absent
    ∧ (matingState.row .r2).mating = some 1 ∧ matingState.pub.locked = false ∧ matingState.body.queue.length < 24
    ∧ kindClass matingState.settings.active 7 = 1 :=
  ⟨⟨by decide, by decide, by decide, by decide⟩, by decide, by decide, by decide, by decide, by decide⟩
theorem witness_RowArrives_locked : Watched { matingState with pub := lockedState.pub } .r2
    ∧ ({ matingState with pub := lockedState.pub } : State).pub.locked = true :=
  ⟨⟨by decide, by decide, by decide, by decide⟩, by decide⟩
theorem witness_RowIsRemoved : Watched onlineState .r2 ∧ (onlineState.row .r2).state ≠ .absent
    ∧ posFitted onlineState pos4 = true ∧ onlineState.pub.locked = false :=
  ⟨⟨by decide, by decide, by decide, by decide⟩, by decide, by decide, by decide⟩
theorem witness_RowIsRemoved_child : Watched contestedState .r2 ∧ (contestedState.row .r2).state ≠ .absent
    ∧ ListInv contestedState.child ∧ LowestContest contestedState .r2 7 ⟨.r3, .s1⟩
    ∧ contestedState.body.queue.length < 24 ∧ kindClass contestedState.settings.active 7 = 1 :=
  ⟨⟨by decide, by decide, by decide, by decide⟩, by decide, listInv_contestedState, lowest_contestedState, by decide,
    by decide⟩
theorem witness_RowIsRemoved_locked : Watched { onlineState with pub := lockedState.pub } .r2
    ∧ ({ onlineState with pub := lockedState.pub } : State).pub.locked = true :=
  ⟨⟨by decide, by decide, by decide, by decide⟩, by decide⟩
theorem witness_PowerSettleExpires_slot : ((slotState .probing (.running 3)).row .r2).settle = .running 3
    ∧ ((slotState .probing (.running 3)).row .r2).state = .probing
    ∧ hasSlot (slotState .probing (.running 3)).settings.active .r2 = true := by decide

/-- The schedule names no row. -/
def noSlotState : State :=
  withRow emptySlotState .r2 (fun x => { x with state := .probing, settle := .running 3 })

theorem witness_PowerSettleExpires_noSlot : (noSlotState.row .r2).settle = .running 3
    ∧ (noSlotState.row .r2).state = .probing ∧ hasSlot noSlotState.settings.active .r2 = false := by decide
theorem witness_PowerSettleExpires_recovering : ((slotState .recovering (.running 3)).row .r2).settle = .running 3
    ∧ ((slotState .recovering (.running 3)).row .r2).state = .recovering := by decide

/-- A recovering row with its power off, and a scan timer. -/
def timersState : State :=
  (withRow onlineState .r3 (fun x => { x with state := .recovering, powerOff := some 2 })).onCoil pos4
    (fun c => { c with scan := some 2 })

theorem witness_TimersActAlone : (timersState.row .r3).state = .recovering ∧ (timersState.row .r3).powerOff = some 2
    ∧ (timersState.row .r2).stability = some 9 ∧ timersState.monitor.hold = false
    ∧ (timersState.coil pos4).scan = some 2 := by decide
theorem witness_TimersActAlone_held : heldState.monitor.hold = true := by decide
theorem witness_TimersActAlone_mating : Watched runState .r2 ∧ (runState.row .r2).state = .absent :=
  ⟨⟨by decide, by decide, by decide, by decide⟩, by decide⟩
theorem witness_PositionGoesStale : posFitted onlineState pos4 = true ∧ (onlineState.load.get pos4).ageMode = .running
    ∧ (onlineState.load.get pos4).stale = false ∧ awake onlineState = true ∧ (onlineState.row .r2).state = .online
    ∧ (onlineState.cls.get pos4).sampled = true ∧ onlineState.straps.var.toNat < 6
    ∧ onlineState.settings.posFault.get pos4 = false ∧ onlineState.settings.uncalibrated.get pos4 = false
    ∧ onlineState.pub.locked = false := by decide
theorem witness_TagReadTimesOut : (readingState.row .r2).tagRead = some ⟨.s1, 1, false⟩
    ∧ readingState.child.tagTimers.get .r2 = some 1 := by decide
theorem witness_TagReadTimesOut_discard :
    let s := withRow readingState .r2 (fun x => { x with tagRead := some ⟨.s1, 1, true⟩ })
    (s.row .r2).tagRead = some ⟨.s1, 1, true⟩ ∧ s.child.tagTimers.get .r2 = some 1 := by decide

/-- A list with a PROVISIONAL entry at position 4 and a MISSING one. -/
def provisionalState : State :=
  { onlineState with child := { ChildUnit.reset with
      entries := [⟨7, .rear, .provisional, pos4, 0, 0⟩, ⟨8, .rear, .missing, pos4, 0, 0⟩] } }

theorem witness_TagResultsActOnTheList_contest :
    (⟨7, .rear, .present, pos4, 0, 0⟩ : Entry) ∈ contestedState.child.entries
    ∧ (contestedState.coil ⟨.r3, .s1⟩).contest = some 7 ∧ pos4 ≠ ⟨.r3, .s1⟩ ∧ (7 : TagId) ≠ 8
    ∧ (contestedState.coil ⟨.r3, .s2⟩).contest = none := by decide
theorem witness_TagResultsActOnTheList_contest_missing :
    let s := provisionalState.onCoil ⟨.r2, .s2⟩ (fun c => { c with contest := some 8 })
    (s.coil ⟨.r2, .s2⟩).contest = some 8
    ∧ ∀ e ∈ s.child.entries, e.tag = 8 → e.state = .missing ∨ e.pos = ⟨.r2, .s2⟩ := by decide
theorem witness_TagResultsActOnTheList : TagsInv seatedState.child
    ∧ (⟨7, .rear, .present, pos4, 0, 0⟩ : Entry) ∈ seatedState.child.entries
    ∧ standsAt pos4 ⟨7, .rear, .present, pos4, 0, 0⟩ = true := ⟨by unfold TagsInv; decide, by decide, by decide⟩
theorem witness_TagResultsActOnTheList_elsewhere : pos4 ≠ ⟨.r2, .s2⟩ ∧ (seatedState.row pos4.row).state = .online := by
  decide

theorem witness_TagResultsActOnTheList_provisional : TagsInv provisionalState.child
    ∧ (⟨7, .rear, .provisional, pos4, 0, 0⟩ : Entry) ∈ provisionalState.child.entries
    ∧ standing provisionalState ⟨.r2, .s2⟩ = none := ⟨by unfold TagsInv; decide, by decide, by decide⟩
theorem witness_TagResultsActOnTheList_old_row :
    ((withRow seatedState .r2 (fun x => { x with state := .recovering })).row pos4.row).state ≠ .online
    ∧ standing seatedState ⟨.r3, .s1⟩ = none := by decide
theorem witness_TagResultsActOnTheList_missing :
    (⟨8, .rear, .missing, pos4, 0, 0⟩ : Entry) ∈ provisionalState.child.entries
    ∧ standing provisionalState ⟨.r2, .s3⟩ = none := by decide
theorem witness_TagResultsActOnTheList_absent : (∀ e ∈ seatedState.child.entries, e.tag ≠ 8)
    ∧ standing seatedState ⟨.r2, .s2⟩ = none ∧ seatedState.child.entries.length < 16 := by decide
theorem witness_TagResultsActOnTheList_gives_way :
    standing seatedState pos4 = some ⟨7, .rear, .present, pos4, 0, 0⟩ ∧ ∀ q, (seatedState.coil q).contest ≠ some 7 := by
  refine ⟨by decide, fun q => ?_⟩
  obtain ⟨r, k⟩ := q
  cases r <;> cases k <;> decide
theorem witness_TagResultsActOnTheList_moves :
    standing contestedState pos4 = some ⟨7, .rear, .present, pos4, 0, 0⟩ ∧ (⟨.r3, .s1⟩ : Pos) ≠ pos4
    ∧ standing contestedState ⟨.r3, .s1⟩ = none ∧ ∀ r, (contestedState.coil r).contest = some 7 ↔ r = ⟨.r3, .s1⟩ := by
  refine ⟨by decide, by decide, by decide, fun q => ?_⟩
  obtain ⟨r, k⟩ := q
  cases r <;> cases k <;> decide

/-- A full list: fifteen MISSING entries behind one that stands. -/
def fullListState : State :=
  { onlineState with child := { ChildUnit.reset with
      entries := ⟨100, .rear, .present, pos4, 0, 0⟩ ::
        (List.range 15).map (fun i => ⟨BitVec.ofNat 24 (i + 1), .rear, .missing, pos4, 0, 0⟩) } }

theorem witness_TagResultsActOnTheList_full : TagsInv fullListState.child ∧ fullListState.child.entries.length = 16
    ∧ (∀ d ∈ fullListState.child.entries, d.tag ≠ 50) ∧ standing fullListState ⟨.r2, .s2⟩ = none
    ∧ fullListState.child.entries = [⟨100, .rear, .present, pos4, 0, 0⟩] ++ ⟨1, .rear, .missing, pos4, 0, 0⟩ ::
      (List.range 14).map (fun i => ⟨BitVec.ofNat 24 (i + 2), .rear, .missing, pos4, 0, 0⟩) :=
  ⟨by unfold TagsInv; decide, by decide, by decide, by decide, by decide⟩
theorem witness_BandsHoldTheLoad : thresholdsValid rearSet.th1 rearSet.th2 rearSet.th3 rearSet.h = true := by decide
theorem witness_FilterStaysBetween : (2700 : Nat) ≤ 2804 ∧ (2700 : Nat) ≠ 2804 ∧ (2804 : Nat) ≤ 16376 := by decide
theorem witness_DwellSettles : settlesAtOnce (.indeterminate .cellFaults) = true ∧ settlesAtOnce .adult = false
    ∧ (dwelling .vacant .adult 9).previous = some .adult ∧ 0 < (dwelling .vacant .adult 9).dwell
    ∧ ClassRecord.adult ≠ (dwelling .vacant .adult 9).settled := by decide

/-- Position 4 LATCHED with a first OPEN reading, in RUN, its reminder OFF. -/
def unbucklingState : State :=
  onlineState.onCls pos4 (fun c => { c with buckle := .latched, prevBuckle := some .isOpen })

theorem witness_BuckleChanges : (unbucklingState.cls.get pos4).buckle
      ≠ ((takeBuckle pos4 .isOpen unbucklingState).cls.get pos4).buckle
    ∧ remHeld unbucklingState pos4 = false ∧ unbucklingState.body.queue.length + 2 ≤ 24
    ∧ NoneWaits unbucklingState.body .buckleChange (.position pos4) ∧ RemTimersInv (unbucklingState.rem.get pos4) :=
  ⟨by decide +kernel, by decide, by decide, by unfold NoneWaits; decide, by unfold RemTimersInv; decide⟩
theorem witness_BuckleChanges_held : remHeld runState pos4 = true := by decide

/-- A settled record that is not yet published: an ADULT at position 4. -/
def unpublishedState : State := onlineState.onCls pos4 (fun c => { c with settled := .adult })

theorem witness_BatchIsPublished : unpublishedState.pub.locked = false
    ∧ allPos.filter (fun p => decide ((unpublishedState.cls.get p).settled ≠ unpublishedState.pub.table.get p)) = [pos4]
    ∧ remHeld unpublishedState pos4 = false
    ∧ beltRequired (publish unpublishedState) pos4 ≠ beltRequired unpublishedState pos4
    ∧ unpublishedState.body.queue.length + 2 * 1 ≤ 24 := by decide +kernel
theorem witness_BatchIsPublished_quiet : (∀ q, NoneWaits unpublishedState.body .classChange (.position q))
    ∧ RemTimersInv (unpublishedState.rem.get pos4) :=
  ⟨fun _ _ h => (nomatch h), by unfold RemTimersInv; decide⟩
theorem witness_BatchIsPublished_locked : lockedState.pub.locked = true := by decide
theorem witness_ReminderTimersExpire : ((remState .wait).rem.get pos4).state = .wait
    ∧ ((remState .wait).rem.get pos4).delay = some 1 ∧ ((remState .audible).rem.get pos4).state = .audible
    ∧ ((remState .audible).rem.get pos4).audible = some 1 ∧ (remState .wait).body.queue.length < 24 := by decide
theorem witness_ReminderTimersExpire_room : NoneWaits (remState .wait).body .reminder (.position pos4)
    ∧ NoneWaits (remState .audible).body .reminder (.position pos4) := by unfold NoneWaits; decide
theorem witness_AcknowledgementSilences : Running (remState .audible) ∧ (remState .audible).body.busOff = false
    ∧ ((remState .audible).rem.get pos4).state = .audible ∧ (remState .audible).body.queue.length ≤ 12
    ∧ ∀ q, NoneWaits (remState .audible).body .reminder (.position q) :=
  ⟨⟨by decide, by decide⟩, by decide, by decide, by decide, fun _ _ h => nomatch h⟩

/-- A cadence that sounds for a REAR position and flashes. -/
def soundingState : State :=
  runState.onCadence (fun c => { c with
    chime := chimeCadence .rear, active := .rear, flash := flashCadence, copy := c.copy.modify pos4 (fun _ => .audible) })

theorem witness_CadencePeriodsEnd : soundingState.cadence.chime.running = true
    ∧ wantedProfile soundingState.cadence.copy ≠ .none ∧ soundingState.cadence.flash.running = true := by decide
theorem witness_OutenGatesTheOutputs : awake runState = true ∧ runState.pins.outen = false := by decide
theorem witness_RestraintReadsAnswer : Running runState ∧ runState.port.wakingFrame = false ∧ runState.port.ready = true
    ∧ (15#8).toNat = Pos.num ⟨.r5, .s3⟩ := ⟨running_runState, by decide, by decide, by decide⟩
theorem witness_RestraintRefusalsHaveNoEffect : Hearing runState ∧ runState.port.ready = true ∧ 15 < (16#8).toNat
    ∧ 3 < (4#8).toNat := ⟨⟨⟨by decide, by decide⟩, by decide⟩, by decide, by decide, by decide⟩
theorem witness_RestraintRefusalsHaveNoEffect_not_ready : Hearing State.reset ∧ State.reset.port.ready = false
    ∧ (0x0C : Byte) ≠ 0x02 ∧ (0x0C : Byte) ≠ 0x03 :=
  ⟨⟨⟨by decide, by decide⟩, by decide⟩, by decide, by decide, by decide⟩

/-- The part running, with the frame that woke it still on. -/
def wakingFrameState : State := { runState with port := { runState.port with wakingFrame := true } }

theorem witness_RestraintRefusalsHaveNoEffect_waking : Listening wakingFrameState
    ∧ wakingFrameState.port.wakingFrame = true := ⟨⟨by decide, by decide⟩, by decide⟩
theorem witness_LockIsTakenAndReleased : Running runState ∧ runState.port.wakingFrame = false ∧ runState.port.ready = true
    ∧ (3#8).toNat ≤ 3 := ⟨running_runState, by decide, by decide, by decide⟩
theorem witness_LockIsTakenAndReleased_release : Running lockedState ∧ lockedState.port.wakingFrame = false
    ∧ lockedState.port.ready = true ∧ lockedState.pub.locked = true ∧ lockedState.pub.holdTimer = some 1 :=
  ⟨running_lockedState, by decide, by decide, by decide, by decide⟩
theorem witness_LockIsTakenAndReleased_unlocked : Running runState ∧ runState.port.wakingFrame = false
    ∧ runState.port.ready = true ∧ runState.pub.locked = false := ⟨running_runState, by decide, by decide, by decide⟩
theorem witness_VehicleStateIsTaken : Receiving runState ∧ (4#8).toNat ≤ 4 ∧ 4 < (5#8).toNat :=
  ⟨receiving_runState, by decide, by decide⟩

/-- Both vehicle-state timers run. -/
def ageingState : State := runState.onBody (fun b => { b with freshTimer := some 2, degrade := some 2, mapTimer := some 2 })

theorem witness_VehicleStateIsTaken_ages : ageingState.body.freshTimer = some 2 ∧ ageingState.body.degrade = some 2 := by decide
theorem witness_MapsFallDue : ageingState.body.mapTimer = some 2 ∧ Running ageingState ∧ ageingState.body.busOff = false :=
  ⟨by decide, ⟨by decide, by decide⟩, by decide⟩
theorem witness_ServiceReadsReply : Serving runState := serving_runState
theorem witness_ServiceReadsReply_entry : Serving seatedState ∧ (0#8).toNat ≤ 15
    ∧ seatedState.child.entries[(0#8).toNat]? = some ⟨7, .rear, .present, pos4, 0, 0⟩
    ∧ seatedState.child.entries.length ≤ (1#8).toNat ∧ (15#8).toNat ≤ 15 ∧ 15 < (16#8).toNat :=
  ⟨⟨⟨by decide, by decide⟩, by decide, by decide⟩, by decide, by decide, by decide, by decide, by decide⟩
theorem witness_ServiceReadsReply_rows : (0#8).toNat = 0 ∧ 5 < (6#8).toNat := by decide

/-- TELLTALE follows its level, with the front states given. -/
def lampState (a b : RemState) : State :=
  runState.onCadence (fun c => { c with
    telltaleGate := .following, copy := (c.copy.modify ⟨.r1, .s1⟩ (fun _ => a)).modify ⟨.r1, .s2⟩ (fun _ => b) })

theorem witness_MapLayouts : (lampState .audible .visual).cadence.telltaleGate = .following
    ∧ (lampState .audible .visual).cadence.copy.get ⟨.r1, .s1⟩ = .audible
    ∧ (lampState .off .silenced).cadence.copy.get ⟨.r1, .s2⟩ = .silenced
    ∧ (∀ k, (lampState .off .silenced).cadence.copy.get ⟨.r1, k⟩ ≠ .audible)
    ∧ runState.cadence.telltaleGate ≠ .following :=
  ⟨by decide, by decide, by decide, fun k => by cases k <;> decide, by decide⟩

/-- A reply waits. -/
def replyingState : State := runState.onBody (fun b => { b with reply := some ⟨3, 0, [], 0⟩ })

theorem witness_ServiceReadsReply_waiting : Receiving replyingState ∧ replyingState.body.reply.isSome = true :=
  ⟨⟨⟨by decide, by decide⟩, by decide⟩, by decide⟩
theorem witness_ServiceReadsReply_starting : Receiving State.reset ∧ State.reset.body.reply = none
    ∧ awake State.reset = false := ⟨⟨⟨by decide, by decide⟩, by decide⟩, by decide, by decide⟩
theorem witness_WriteParamIsJudged : Serving writingState ∧ writingState.settings.write.isSome = true :=
  ⟨serving_writingState, by decide⟩

/-- A write may be taken: PARK, FRESH, at rest. -/
def parkedState : State := { writingState with settings := runState.settings }

theorem witness_WriteParamIsJudged_taken : Serving parkedState ∧ writeRefusal parkedState 14 60 = none :=
  ⟨⟨⟨by decide, by decide⟩, by decide, by decide⟩, by decide +kernel⟩
theorem witness_ChildListIsCleared : Serving runState ∧ runState.pub.locked = false ∧ runState.settings.write = none :=
  ⟨serving_runState, by decide, by decide⟩
theorem witness_ChildListIsCleared_locked : Serving lockedState ∧ lockedState.pub.locked = true :=
  ⟨serving_lockedState, by decide⟩
theorem witness_ChildListIsCleared_busy : Serving writingState ∧ writingState.pub.locked = false
    ∧ writingState.settings.write.isSome = true := ⟨serving_writingState, by decide, by decide⟩
theorem witness_WriteCompletes : writingState.settings.write = some ⟨14, 60⟩ ∧ writingState.body.reply = none
    ∧ writingState.settings.config ≠ .storeInconsistent ∧ writingState.body.queue.length < 24
    ∧ kindClass writingState.settings.active 8 = 1 := by decide
theorem witness_WriteCompletes_waiting :
    (writingState.onBody (fun b => { b with reply := some ⟨3, 0, [], 0⟩ })).settings.write = some ⟨14, 60⟩
    ∧ (writingState.onBody (fun b => { b with reply := some ⟨3, 0, [], 0⟩ })).body.reply = some ⟨3, 0, [], 0⟩ := by decide
theorem witness_WriteCompletes_inconsistent :
    (writingState.onSettings (fun u => { u with config := .storeInconsistent })).settings.write = some ⟨14, 60⟩ := by decide

/-- A write of a value in flight in a state, and the state its success leaves. -/
def inFlight (id value : Word16) (s : State) : State := s.onSettings (fun u => { u with write := some ⟨id, value⟩ })
def written (id value : Word16) (s : State) : State := after (.writeCompletion .readBackAsWritten) (inFlight id value s)

/-- Position 2 carries its gain-written mark already, and both restraint positions are UNCALIBRATED. -/
def calibratingState : State := runState.onSettings (fun u => { u with
  gainWritten := u.gainWritten.modify ⟨.r1, .s2⟩ (fun _ => true), uncalibrated := u.uncalibrated.mapIdx (fun p _ => isRestraint p) })

theorem witness_WrittenValuesAct_gain : (inFlight 200 256 calibratingState).settings.write = some ⟨200, 256⟩
    ∧ 200 / 64 = (⟨.r1, .s3⟩ : Pos).num ∧ 8 ≤ 200 % 64 ∧ posFitted calibratingState ⟨.r1, .s3⟩ = true
    ∧ (written 200 256 calibratingState).settings.gainWritten.get ⟨.r1, .s2⟩ = true
    ∧ (written 200 256 calibratingState).settings.gainWritten.get ⟨.r1, .s3⟩ = true
    ∧ (written 200 256 runState).settings.gainWritten.get ⟨.r1, .s2⟩ = false ∧ awake calibratingState = true := by
  decide +kernel

/-- Position 4 has POSITION_CONFIG_FAULT, and its record as built in would pass. -/
def faultyState : State := onlineState.onSettings (fun u => { u with posFault := u.posFault.modify pos4 (fun _ => true) })

theorem witness_WrittenValuesAct_fault : faultyState.settings.posFault.get pos4 = true ∧ posFitted faultyState pos4 = true
    ∧ (written 256 5 faultyState).settings.active.positions.get pos4 = (defaultPosition pos4).set 0 5
    ∧ (written 256 2000 faultyState).settings.active.positions.get pos4 = failingWords := by decide +kernel
theorem witness_WrittenValuesAct_passes : PositionRecordPasses faultyState pos4 ((defaultPosition pos4).set 0 5) :=
  ⟨by decide, fun i h1 h2 => by interval_cases i <;> decide, by decide, by decide, by decide, by decide, by decide,
    fun h => absurd h (by decide), fun h => absurd h (by decide), fun h => absurd h (by decide),
    fun h => absurd h (by decide), by decide, by decide⟩
theorem witness_WrittenValuesAct_sensors : coilFitted contestedState pos4 = true
    ∧ coilFitted (written 275 2 contestedState) pos4 = false ∧ anchorsFitted contestedState pos4 = true
    ∧ anchorsFitted (written 275 4 contestedState) pos4 = false
    ∧ evidence contestedState pos4 ≠ evidence (written 275 2 contestedState) pos4
    ∧ standing contestedState pos4 = some ⟨7, .rear, .present, pos4, 0, 0⟩ ∧ standing contestedState ⟨.r2, .s2⟩ = none
    ∧ contestedState.body.queue.length ≤ 22 ∧ kindClass contestedState.settings.active 6 = 1 := by decide +kernel
theorem witness_WrittenValuesAct_list : ListInv contestedState.child := listInv_contestedState
theorem witness_WrittenValuesAct_coil_set : coilFitted (written 275 2 contestedState) pos4 = false
    ∧ coilFitted (written 275 6 (written 275 2 contestedState)) pos4 = true := by decide +kernel
theorem witness_WrittenValuesAct_table : ((walkedState .readReg ⟨1, .read, 2⟩).row .r2).state = .checking
    ∧ wordAt (written 1216 0 (walkedState .readReg ⟨1, .read, 2⟩)).settings.active.check 0 = 0
    ∧ wordAt (written 1216 1 (walkedState .readReg ⟨1, .read, 2⟩)).settings.active.check 0 = 1 ∧ 1216 / 64 = 19
    ∧ (walkedState .readReg ⟨1, .read, 2⟩).body.queue.length ≤ 7 := by decide +kernel

/-- Running ages of 120 ms, below the built-in limit of 150 ms. -/
def agedState : State := { onlineState with load := onlineState.load.mapIdx (fun _ l => { l with age := 120 }) }

theorem witness_WrittenValuesAct_stale : posFitted agedState pos4 = true ∧ (agedState.load.get pos4).ageMode = .running
    ∧ (agedState.load.get pos4).stale = false ∧ 100 < (agedState.load.get pos4).age
    ∧ staleLimit agedState pos4 = 150 ∧ staleLimit (written 13 100 agedState) pos4 = 100 := by decide +kernel
theorem witness_WrittenValuesAct_lists : 1088 / 64 = 17 ∧ remHeld (written 1088 1 runState) ⟨.r1, .s1⟩ = false := by
  decide +kernel

/-- A REMINDER about a position. -/
def note (p : Pos) : Notice := ⟨.reminder, .position p, 2, 3, 1, none⟩

/-- A queue of URGENT notices and one ROUTINE one. -/
def queuedBody (n : Nat) : Body :=
  { runState.body with queue := ⟨note pos4, false, false⟩ :: List.replicate n ⟨note ⟨.r3, .s1⟩, true, false⟩ }

theorem queueInv_queuedBody : QueueInv (queuedBody 3) ∧ QueueInv (queuedBody 23) := by
  unfold QueueInv sameRoutine; decide
theorem witness_NoticeEntersTheQueue_coalesces : QueueInv (queuedBody 3)
    ∧ (queuedBody 3).queue = [] ++ ⟨note pos4, false, false⟩ :: List.replicate 3 ⟨note ⟨.r3, .s1⟩, true, false⟩ :=
  ⟨queueInv_queuedBody.1, rfl⟩
theorem witness_NoticeEntersTheQueue_joins : QueueInv (queuedBody 3) ∧ (queuedBody 3).queue.length < 24
    ∧ ∀ e ∈ (queuedBody 3).queue, ¬ (e.urgent = false ∧ e.notice.kind = .rowChange ∧ e.notice.subject = .row .r2) :=
  ⟨queueInv_queuedBody.1, by decide, by decide⟩
theorem witness_NoticeEntersTheQueue_full : QueueInv (queuedBody 23) ∧ (queuedBody 23).queue.length = 24
    ∧ (queuedBody 23).queue = [] ++ ⟨note pos4, false, false⟩ :: List.replicate 23 ⟨note ⟨.r3, .s1⟩, true, false⟩
    ∧ ∀ x ∈ List.replicate 23 (⟨note ⟨.r3, .s1⟩, true, false⟩ : QueueEntry), x.urgent = true :=
  ⟨queueInv_queuedBody.2, by decide, rfl, by decide⟩

/-- A queue of 24 URGENT notices. -/
def urgentBody : Body := { runState.body with queue := List.replicate 24 ⟨note ⟨.r3, .s1⟩, true, false⟩ }

theorem witness_NoticeEntersTheQueue_urgent : QueueInv urgentBody ∧ urgentBody.queue.length = 24
    ∧ ∀ e ∈ urgentBody.queue, e.urgent = true := by unfold QueueInv sameRoutine; decide

/-- Two notices wait, one of each class, with a count of URGENT ones just sent. -/
def notingState (count : Nat) : State := { runState with body := { queuedBody 1 with urgentCount := count } }

theorem witness_ArbiterChooses_idle : (notingState 0).body.slot = none ∧ (notingState 0).body.busOff = false
    ∧ awake (notingState 0) = true ∧ (notingState 0).body.occMap = none ∧ (notingState 0).body.beltMap = none
    ∧ (notingState 0).body.reply = none := by decide
theorem witness_ArbiterChooses_urgent : (notingState 0).body.urgentCount ≠ 3
    ∧ FirstEligible true (notingState 0).body.queue [⟨note pos4, false, false⟩] ⟨note ⟨.r3, .s1⟩, true, false⟩ [] := by
  refine ⟨by decide, rfl, rfl, by decide, fun l1 x l2 h hu => ?_⟩
  obtain ⟨rfl, h2⟩ | ⟨_, _, h2⟩ := List.cons_eq_append_iff.1 h
  · cases h2; cases hu
  · simp at h2
theorem witness_ArbiterChooses_routine : (notingState 3).body.urgentCount = 3
    ∧ FirstEligible false (notingState 3).body.queue [] ⟨note pos4, false, false⟩ [⟨note ⟨.r3, .s1⟩, true, false⟩] :=
  ⟨by decide, rfl, rfl, nofun, fun l1 x l2 h _ => by simp at h⟩
theorem witness_ArbiterChooses_settling : (replyingState.onMonitor (fun m => { m with device := .starting })).body.slot = none
    ∧ awake (replyingState.onMonitor (fun m => { m with device := .starting })) = false
    ∧ asleep (replyingState.onMonitor (fun m => { m with device := .starting })) = false
    ∧ (replyingState.onMonitor (fun m => { m with device := .starting })).body.reply = some ⟨3, 0, [], 0⟩ := by decide

/-- A notice in the transmit slot. -/
def sendingState : State :=
  runState.onBody (fun b => { b with
    queue := [⟨rowNotice .r2 .absent .probing .senseMated, true, true⟩]
    slot := some ⟨.notice, 0x3C2, noticeBytes (rowNotice .r2 .absent .probing .senseMated)⟩ })

theorem witness_TransmitterMoves_notice : sendingState.body.slot.map (·.owner) = some .notice
    ∧ (sendingState.body.queue.find? (·.inSlot)).isSome = true := by decide

/-- A part in bus-off with a map waiting. -/
def offState : State := runState.onBody (fun b => { b with busOff := true, occMap := some [0, 0, 0, 0, 0, 0, 0, 0] })

theorem witness_TransmitterMoves_asleep : sleepState.monitor.inReset = false ∧ asleep sleepState = true := by decide
theorem witness_TransmitterMoves_busOff : runState.monitor.inReset = false ∧ offState.body.busOff = true ∧ awake offState = true
    ∧ offState.body.occMap.isSome = true := by decide

theorem witness_EveryStepPublishes : PublicationInv State.reset ∧ ∃ t, step State.reset = .next t :=
  ⟨fun p => by obtain ⟨r, k⟩ := p; cases r <;> cases k <;> decide, _, rfl⟩
theorem witness_EveryStepBoundsTheQueue : QueueInv sendingState.body ∧ ∃ t, step sendingState = .next t :=
  ⟨by unfold QueueInv sameRoutine; decide, _, rfl⟩
theorem witness_EveryStepKeepsTheSlot : SlotInv sendingState.body ∧ ∃ t, step sendingState = .next t :=
  ⟨⟨by decide, rfl⟩, _, rfl⟩
theorem witness_EveryStepKeepsTagsApart : ListInv contestedState.child ∧ ∃ t, step contestedState = .next t :=
  ⟨listInv_contestedState, _, rfl⟩
theorem witness_EveryStepKeepsTheReminderTimers :
    (∀ p, RemTimersInv (State.reset.rem.get p)) ∧ ∃ t, step State.reset = .next t :=
  ⟨fun p => by obtain ⟨r, k⟩ := p; unfold RemTimersInv; cases r <;> cases k <;> decide, _, rfl⟩
theorem witness_EveryStepKeepsTheCadence : CadenceInv State.reset ∧ ∃ t, step State.reset = .next t :=
  ⟨⟨fun p => by obtain ⟨r, k⟩ := p; cases r <;> cases k <;> decide, by decide, by decide, by decide⟩, _, rfl⟩
theorem witness_EveryStepKeepsTheCadence_gates : GateInv State.reset ∧ ∃ t, step State.reset = .next t :=
  ⟨⟨by decide, by decide⟩, _, rfl⟩
theorem witness_EveryStepBoundsTheRowCounts :
    (∀ r, RowCountsInv (State.reset.row r)) ∧ ∃ t, step State.reset = .next t :=
  ⟨fun r => by cases r <;> (unfold RowCountsInv; decide), _, rfl⟩
theorem witness_LockHoldsTheTable : lockedState.pub.locked = true ∧ Instr.frameError ≠ .unlock 0
    ∧ Instr.frameError ≠ .lockHoldTimerExpiry := by decide

end Sys2Proof.Tests
end

section
/-! PROOFS. Rules that several proofs share: the commands' meanings, the variant code, the lists of rows and positions. -/

namespace Sys2Proof.Machine

/-! ### The variant code (R4, R5) -/

/-- VARIANT_FAULT is a latched code of 6 or 7 (R5). -/
theorem variantFault_eq (s : State) : variantFault s = decide (6 ≤ s.straps.var.toNat) := by
  have h : ∀ v : BitVec 3, (v == 6#3 || v == 7#3) = decide (6 ≤ v.toNat) := by decide
  exact h s.straps.var

theorem variantFault_of_lt {s : State} (h : s.straps.var.toNat < 6) : variantFault s = false := by
  rw [variantFault_eq]
  simpa using h

/-- A watched row's sense input counts. -/
theorem senseWatched_of_watched {s : State} {r : Row} (h : Watched s r) : senseWatched s r = true := by
  obtain ⟨hr, hf, hv, ha⟩ := h
  simp [senseWatched, senseRow, hr, hf, ha, variantFault_of_lt hv]

end Sys2Proof.Machine
end

section
/-! PROOFS. Four timers that act on one record alone (R11, R31, R34, R62). -/

namespace Sys2Proof.Machine

theorem powerOffExpires_recovering {s : State} {r : Row} {n : Nat} (h : (s.row r).state = .recovering)
    (hn : (s.row r).powerOff = some n) :
    powerOffExpires r s = s.onRow r (fun x => { x with powerOff := none, rpwr := true, settle := .running 50 }) :=
  if_pos ⟨h, by rw [hn]; rfl⟩

theorem stabilityExpires_running {s : State} {r : Row} {n : Nat} (h : (s.row r).stability = some n)
    (hh : s.monitor.hold = false) :
    stabilityExpires r s = s.onRow r (fun x => { x with stability := none, recovery := 0 }) :=
  if_pos ⟨by rw [h]; rfl, hh⟩

theorem stabilityExpires_hold {s : State} {r : Row} (hh : s.monitor.hold = true) : stabilityExpires r s = s :=
  if_neg (fun h => by rw [hh] at h; exact absurd h.2 (by decide))

theorem scanExpires_running {s : State} {p : Pos} {n moment : Nat} (h : (s.coil p).scan = some n) :
    scanExpires p moment s = s.onCoil p (fun c => { c with scan := none, due := some moment }) :=
  if_pos (by rw [h]; rfl)

theorem senseBecomesMated_absent {s : State} {r : Row} (h : Watched s r) (ha : (s.row r).state = .absent) :
    senseBecomesMated r s = (s.onPins (fun u => { u with sense := u.sense.modify r (fun _ => true) })).onRow r
      (fun x => { x with mating := some 100 }) :=
  if_pos (by simp [senseWatched_of_watched h, ha])

theorem senseReadsUnmated_absent {s : State} {r : Row} (h : Watched s r) (ha : (s.row r).state = .absent) :
    senseReadsUnmated r s = (s.onPins (fun u => { u with sense := u.sense.modify r (fun _ => false) })).onRow r
      (fun x => { x with mating := none }) := by
  unfold senseReadsUnmated
  rw [if_neg (by simp [senseWatched_of_watched h]), if_pos ha]

end Sys2Proof.Machine

namespace Sys2Proof.Certificates

open Sys2Proof.Machine

/-- Settles O25: each timer's rule gives the one record it changes. -/
theorem timersActAlone : Obligations.TimersActAlone := by
  intro s r p n moment
  refine ⟨fun h hn => ?_, fun h hh => ?_, fun hh => ?_, fun h => ?_, fun h ha => ⟨?_, ?_⟩⟩
  · exact congrArg Host.Outcome.next (powerOffExpires_recovering h hn)
  · exact congrArg Host.Outcome.next (stabilityExpires_running h hh)
  · exact congrArg Host.Outcome.next (stabilityExpires_hold hh)
  · exact congrArg Host.Outcome.next (scanExpires_running h)
  · exact congrArg Host.Outcome.next (senseBecomesMated_absent h ha)
  · exact congrArg Host.Outcome.next (senseReadsUnmated_absent h ha)

end Sys2Proof.Certificates
end

section
/-! PROOFS. The four reading restraint requests (R17, R151, R153, R177). -/

namespace Sys2Proof.Machine

theorem asleep_of_awake {s : State} (h : awake s = true) : asleep s = false := by
  unfold awake at h
  unfold asleep
  cases hd : s.monitor.device <;> simp_all

/-! ### Fields laid out behind one another -/

/-- A field behind the fields already laid out is the concatenation of their bits. -/
theorem ofNat_field (n w acc v : Nat) :
    BitVec.ofNat (n + w) (field acc w v) = BitVec.ofNat n acc ++ BitVec.ofNat w v := by
  apply BitVec.eq_of_toNat_eq
  have h1 : v % 2 ^ w < 2 ^ w := Nat.mod_lt _ (Nat.two_pow_pos w)
  have hm : (acc * 2 ^ w + v % 2 ^ w) % 2 ^ w = v % 2 ^ w := by
    rw [Nat.mul_comm, Nat.mul_add_mod, Nat.mod_mod]
  have hd : (acc * 2 ^ w + v % 2 ^ w) / 2 ^ w = acc := by
    rw [Nat.mul_comm, Nat.mul_add_div (Nat.two_pow_pos w), Nat.div_eq_of_lt h1, Nat.add_zero]
  rw [BitVec.toNat_append, BitVec.toNat_ofNat, BitVec.toNat_ofNat, BitVec.toNat_ofNat, ← Nat.shiftLeft_add_eq_or_of_lt h1,
    Nat.shiftLeft_eq, field, Nat.pow_add, Nat.mul_comm (2 ^ n), Nat.mod_mul, hm, hd, Nat.add_comm, Nat.mul_comm (2 ^ w)]

theorem ofNat_bit (b : Bool) : BitVec.ofNat 1 (bit b) = BitVec.ofBool b := by cases b <;> rfl

theorem ofNat_epochBits (s : State) (n : Nat) : BitVec.ofNat n (epochBits s n) = s.pub.epoch.setWidth n := by
  apply BitVec.eq_of_toNat_eq
  simp [epochBits]

theorem nopPayload_bits (s : State) : nopPayload s
    = (BitVec.ofNat 2 (deviceCode s.monitor.device) ++ BitVec.ofBool s.pub.locked ++ s.pub.epoch.setWidth 9 : BitVec 12) := by
  unfold nopPayload
  rw [ofNat_field 3 9, ofNat_field 2 1, ofNat_bit, ofNat_epochBits]

theorem getFrontPayload_bits (s : State) : getFrontPayload s
    = (BitVec.ofNat 4 (classCode (s.pub.table.get ⟨.r1, .s2⟩)) ++ BitVec.ofNat 4 (classCode (s.pub.table.get ⟨.r1, .s3⟩))
        ++ BitVec.ofBool s.pub.locked ++ s.pub.epoch.setWidth 3 : BitVec 12) := by
  unfold getFrontPayload
  rw [ofNat_field 9 3, ofNat_field 8 1, ofNat_field 4 4, ofNat_bit, ofNat_epochBits]

theorem getPositionPayload_bits (s : State) (p : Pos) : getPositionPayload s p
    = (BitVec.ofNat 4 (classCode (s.pub.table.get p)) ++ BitVec.ofNat 4 (recordReason (s.pub.table.get p))
        ++ s.pub.epoch.setWidth 4 : BitVec 12) := by
  unfold getPositionPayload
  rw [ofNat_field 8 4, ofNat_field 4 4, ofNat_epochBits]

/-- Five flags summed by their place values, behind other bits, are their bits, the last one highest. -/
theorem append_ofNat_flags (x : BitVec 7) (a b c d e : Bool) :
    x ++ BitVec.ofNat 5 (bit a + 2 * bit b + 4 * bit c + 8 * bit d + 16 * bit e)
      = (x ++ BitVec.ofBool e ++ BitVec.ofBool d ++ BitVec.ofBool c ++ BitVec.ofBool b ++ BitVec.ofBool a : BitVec 12) := by
  have h : BitVec.ofNat 5 (bit a + 2 * bit b + 4 * bit c + 8 * bit d + 16 * bit e)
      = (BitVec.ofBool e ++ BitVec.ofBool d ++ BitVec.ofBool c ++ BitVec.ofBool b ++ BitVec.ofBool a : BitVec 5) := by
    revert a b c d e
    decide
  rw [h]
  simp only [BitVec.append_assoc, BitVec.cast_eq]

theorem getStatusPayload_bits (s : State) : getStatusPayload s
    = (BitVec.ofNat 2 (deviceCode s.monitor.device) ++ BitVec.ofBool s.monitor.hold
        ++ BitVec.ofNat 2 (configCode s.settings.config) ++ BitVec.ofBool s.pub.locked
        ++ BitVec.ofBool (s.body.vehicle.freshness == .degraded)
        ++ BitVec.ofBool (rowFlag s .r5) ++ BitVec.ofBool (rowFlag s .r4) ++ BitVec.ofBool (rowFlag s .r3)
        ++ BitVec.ofBool (rowFlag s .r2) ++ BitVec.ofBool (rowFlag s .r1) : BitVec 12) := by
  unfold getStatusPayload
  rw [ofNat_field 7 5, ofNat_field 6 1, ofNat_field 5 1, ofNat_field 3 2, ofNat_field 2 1, ofNat_bit, ofNat_bit, ofNat_bit,
    append_ofNat_flags]

/-! ### A request that is taken -/

/-- A ready part that hears the frame keeps the request and answers it (R149, R150). -/
theorem takeRequest_ready {s : State} (hr : Running s) (hw : s.port.wakingFrame = false) (hp : s.port.ready = true)
    (command arg : Byte) (f : State → State) :
    takeRequest command arg f s = f (s.onPort (fun v => { v with lastRequest := some ⟨command, arg⟩ })) := by
  simp [takeRequest, takeFrame, outsideReset, hr.1, asleep_of_awake hr.2, hw, hp]

theorem takeRequest_answerOk {s : State} (hr : Running s) (hw : s.port.wakingFrame = false) (hp : s.port.ready = true)
    (command arg : Byte) (payload : State → BitVec 12) :
    takeRequest command arg (answerOk command payload) s
      = answered s command arg .ok (payload (s.onPort (fun v => { v with lastRequest := some ⟨command, arg⟩ }))) :=
  takeRequest_ready hr hw hp command arg _

end Sys2Proof.Machine

namespace Sys2Proof.Certificates

open Sys2Proof.Machine

/-- Settles O38: each request is taken by a part that hears it, and its payload is the fields' bits. -/
theorem restraintReadsAnswer : Obligations.RestraintReadsAnswer := by
  intro s arg hr hw hp
  refine ⟨congrArg Host.Outcome.next ?_, congrArg Host.Outcome.next ?_, fun p hn => congrArg Host.Outcome.next ?_,
    congrArg Host.Outcome.next ?_⟩
  · exact (takeRequest_answerOk hr hw hp _ _ _).trans (congrArg _ (nopPayload_bits _))
  · exact (takeRequest_answerOk hr hw hp _ _ _).trans (congrArg _ (getFrontPayload_bits _))
  · have hpos : answerPosition arg = answerOk 0x03 (fun t => getPositionPayload t p) := by
      funext t
      simp [answerPosition, hn]
    rw [hpos]
    exact (takeRequest_answerOk hr hw hp _ _ _).trans (congrArg _ (getPositionPayload_bits _ p))
  · exact (takeRequest_answerOk hr hw hp _ _ _).trans (congrArg _ (getStatusPayload_bits _))

end Sys2Proof.Certificates
end

section
/-! PROOFS. What an event leaves of the Monitor and of the Body Port: the rest timer at most restarts, and of the Body
Port the queue, RESYNC and the slot alone move, with every URGENT notice that waits still waiting (R161, R171). -/

namespace Sys2Proof.Machine

/-- Every URGENT entry of a queue still waits in another, marked as in the slot or not. -/
def UrgentKept (q q' : List QueueEntry) : Prop :=
  ∀ e ∈ q, e.urgent = true → ∃ e' ∈ q', e'.urgent = true ∧ e'.notice = e.notice

theorem UrgentKept.refl (q : List QueueEntry) : UrgentKept q q := fun e he hu => ⟨e, he, hu, rfl⟩

theorem UrgentKept.trans {q q' q'' : List QueueEntry} (h1 : UrgentKept q q') (h2 : UrgentKept q' q'') :
    UrgentKept q q'' := by
  intro e he hu
  obtain ⟨e', he', hu', hn'⟩ := h1 e he hu
  obtain ⟨e'', he'', hu'', hn''⟩ := h2 e' he' hu'
  exact ⟨e'', he'', hu'', hn''.trans hn'⟩

theorem urgentKept_of_subset {q q' : List QueueEntry} (h : ∀ e ∈ q, e.urgent = true → e ∈ q') : UrgentKept q q' :=
  fun e he hu => ⟨e, h e he hu, hu, rfl⟩

/-- Dropping the youngest ROUTINE entry drops no URGENT one. -/
theorem mem_dropYoungestRoutine {q : List QueueEntry} {e : QueueEntry} (he : e ∈ q) (hu : e.urgent = true) :
    e ∈ dropYoungestRoutine q := by
  unfold dropYoungestRoutine
  rw [List.mem_reverse, List.mem_eraseP_of_neg (by simp [hu])]
  exact List.mem_reverse.mpr he

theorem Body.enter_urgentKept (b : Body) (u : Bool) (n : Notice) : UrgentKept b.queue (b.enter u n).queue := by
  unfold Body.enter
  split
  · refine urgentKept_of_subset (fun e he hu => List.mem_map.mpr ⟨e, he, if_neg ?_⟩)
    simp [coalesces, hu]
  · split
    · exact urgentKept_of_subset (fun e he _ => List.mem_append_left _ he)
    · split
      · exact UrgentKept.refl _
      · split
        · exact urgentKept_of_subset (fun e he hu => List.mem_append_left _ (mem_dropYoungestRoutine he hu))
        · exact UrgentKept.refl _

/-- An URGENT notice enters a queue that has room. -/
theorem Body.enter_urgent_room {b : Body} (n : Notice) (h : b.queue.length < 24) :
    ⟨n, true, false⟩ ∈ (b.enter true n).queue := by
  simp [Body.enter, h]

theorem placeAny_urgentKept (g : Groups) (b : Body) : UrgentKept b.queue (placeAny g b).queue := by
  unfold placeAny
  split
  · exact UrgentKept.refl _
  · exact UrgentKept.refl _
  · exact UrgentKept.refl _
  · rename_i x _ _ _ hx
    obtain ⟨l, r, h1, h2⟩ := chooseNotice_spec hx
    intro e he hu
    show ∃ e' ∈ x.2, _
    rw [h1, List.mem_append, List.mem_cons] at he
    rw [h2]
    obtain he | rfl | he := he
    · exact ⟨e, by simp [he], hu, rfl⟩
    · exact ⟨{ x.1 with inSlot := true }, by simp, hu, rfl⟩
    · exact ⟨e, by simp [he], hu, rfl⟩
  · exact UrgentKept.refl _

theorem placeAny_rest (g : Groups) (b : Body) : placeAny g b = { b with
    queue := (placeAny g b).queue, resync := (placeAny g b).resync, slot := (placeAny g b).slot } := by
  unfold placeAny
  split <;> rfl

theorem placeReply_rest (g : Groups) (b : Body) : placeReply g b = { b with
    queue := (placeReply g b).queue, resync := (placeReply g b).resync, slot := (placeReply g b).slot } := by
  unfold placeReply
  split <;> rfl

theorem placeReply_queue (g : Groups) (b : Body) : (placeReply g b).queue = b.queue := by
  unfold placeReply
  split <;> rfl

/-- From `s` to `t` the rest timer at most restarts, and of the Body Port queue, RESYNC and slot alone move. -/
structure Quiet (s t : State) : Prop where
  monitor : t.monitor = s.monitor ∨ t.monitor = (restartRest s).monitor
  rest    : restTime t = restTime s
  body    : t.body = { s.body with queue := t.body.queue, resync := t.body.resync, slot := t.body.slot }
  urgent  : UrgentKept s.body.queue t.body.queue

theorem Quiet.refl (s : State) : Quiet s s := ⟨.inl rfl, rfl, rfl, UrgentKept.refl _⟩

theorem restartRest_monitor (s : State) : (restartRest s).monitor
    = if s.monitor.device = .rest then { s.monitor with restTimer := some (restTime s) } else s.monitor := by
  unfold restartRest
  split <;> rfl

/-- The Monitor is as it was but for the rest timer. -/
theorem Quiet.monitor_rest {s t : State} (h : Quiet s t) :
    t.monitor = { s.monitor with restTimer := t.monitor.restTimer } := by
  obtain h | h := h.monitor
  · rw [h]
  · rw [h, restartRest_monitor]
    split <;> rfl

theorem Quiet.device {s t : State} (h : Quiet s t) : t.monitor.device = s.monitor.device := by rw [h.monitor_rest]
theorem Quiet.ign {s t : State} (h : Quiet s t) : t.monitor.ign = s.monitor.ign := by rw [h.monitor_rest]
theorem Quiet.hold {s t : State} (h : Quiet s t) : t.monitor.hold = s.monitor.hold := by rw [h.monitor_rest]
theorem Quiet.seconds {s t : State} (h : Quiet s t) : t.monitor.seconds = s.monitor.seconds := by rw [h.monitor_rest]
theorem Quiet.vehicle {s t : State} (h : Quiet s t) : t.body.vehicle = s.body.vehicle := by rw [h.body]
theorem Quiet.mapTimer {s t : State} (h : Quiet s t) : t.body.mapTimer = s.body.mapTimer := by rw [h.body]

theorem Quiet.awake {s t : State} (h : Quiet s t) : awake t = awake s := by
  unfold Machine.awake
  rw [h.device]

theorem Quiet.andThen {s t u : State} (h1 : Quiet s t) (h2 : Quiet t u) : Quiet s u := by
  refine ⟨?_, h2.rest.trans h1.rest, ?_, h1.urgent.trans h2.urgent⟩
  · obtain h | h := h2.monitor
    · rw [h]; exact h1.monitor
    · have e : (restartRest t).monitor = (restartRest s).monitor := by
        obtain h' | h' := h1.monitor
        · rw [restartRest_monitor, restartRest_monitor, h', h1.rest]
        · rw [restartRest_monitor, h', h1.rest, restartRest_monitor]
          split <;> rfl
      rw [h, e]
      exact .inr rfl
  · rw [h2.body, h1.body]

/-- A change that leaves the Monitor, the Body Port and the settings. -/
theorem ChangesOnly.quiet {bs : List Block} {s t : State} (h : ChangesOnly bs s t)
    (hm : bs.contains Block.monitor = false := by rfl) (hb : bs.contains Block.body = false := by rfl)
    (hs : bs.contains Block.settings = false := by rfl) : Quiet s t := by
  have em := h.monitor hm
  have eb := h.body hb
  refine ⟨.inl em, ?_, by rw [eb], by rw [eb]; exact UrgentKept.refl _⟩
  unfold restTime
  rw [h.settings hs]

theorem quiet_ite {s t u : State} {c : Prop} [Decidable c] (h1 : Quiet s t) (h2 : Quiet s u) :
    Quiet s (if c then t else u) := by
  split
  · exact h1
  · exact h2

theorem quiet_forEach {α : Type} {f : α → State → State} (h : ∀ a s, Quiet s (f a s)) :
    ∀ (l : List α) (s : State), Quiet s (forEach l f s)
  | [], s => Quiet.refl s
  | a :: l, s => (h a s).andThen (quiet_forEach h l (f a s))

/-! ### Operations -/

theorem restartRest_quiet (s : State) : Quiet s (restartRest s) := by
  have h := restartRest_changes s
  refine ⟨.inr rfl, ?_, by rw [h.body], by rw [h.body]; exact UrgentKept.refl _⟩
  unfold restTime
  rw [h.settings]

theorem notify_quiet (n : Notice) (s : State) : Quiet s (notify n s) :=
  ⟨.inl rfl, rfl, Body.enter_rest s.body _ n, Body.enter_urgentKept s.body _ n⟩

theorem arbitrate_quiet (s : State) : Quiet s (arbitrate s) := by
  unfold arbitrate
  refine quiet_ite (Quiet.refl s) (quiet_ite ?_ (quiet_ite ?_ (Quiet.refl s)))
  · exact ⟨.inl rfl, rfl, placeAny_rest _ s.body, placeAny_urgentKept _ _⟩
  · refine ⟨.inl rfl, rfl, placeReply_rest _ s.body, ?_⟩
    show UrgentKept _ (placeReply _ s.body).queue
    rw [placeReply_queue]
    exact UrgentKept.refl _

theorem enterAudible_quiet (p : Pos) (s : State) : Quiet s (enterAudible p s) :=
  (changes_onRem s p _).quiet.andThen (notify_quiet _ _)

theorem enterVisual_quiet (p : Pos) (s : State) : Quiet s (enterVisual p s) :=
  have h := (changes_onRem s p (fun r => { r with state := .visual, delay := none })).quiet
  quiet_ite (h.andThen (enterAudible_quiet p _)) h

theorem enterWait_quiet (p : Pos) (d : Nat) (s : State) : Quiet s (enterWait p d s) :=
  quiet_ite (enterVisual_quiet p s) (changes_onRem s p _).quiet

theorem actOnResults_quiet (p : Pos) (d : Nat) (s : State) : Quiet s (actOnResults p d s) := by
  have off := (remOff_changes p s).quiet
  unfold actOnResults
  dsimp only
  split
  · exact quiet_ite (enterWait_quiet p d s) (Quiet.refl s)
  · exact quiet_ite (Quiet.refl s) off
  · exact quiet_ite off (quiet_ite (enterAudible_quiet p s) (Quiet.refl s))
  · exact quiet_ite (Quiet.refl s) off
  · exact quiet_ite (Quiet.refl s) off

theorem evaluateLists_quiet (u : Bool) (p : Pos) (s : State) : Quiet s (evaluateLists u p s) :=
  quiet_ite (Quiet.refl s) ((changes_onRem s p _).quiet.andThen (actOnResults_quiet p _ _))

theorem evaluateAllLists_quiet (s : State) : Quiet s (evaluateAllLists s) :=
  quiet_forEach (evaluateLists_quiet false) _ s

theorem afterSeatChange_quiet (u : Bool) (b : State) (p : Pos) (s : State) : Quiet s (afterSeatChange u b p s) :=
  quiet_ite (Quiet.refl s) (evaluateLists_quiet u p s)

theorem publishBatch_quiet (ps : List Pos) (s : State) : Quiet s (publishBatch ps s) := by
  unfold publishBatch
  refine quiet_ite (Quiet.refl s) ?_
  exact (((changes_onPub s _).quiet.andThen (quiet_forEach (fun p t => notify_quiet _ t) ps _)).andThen
    (restartRest_quiet _)).andThen (quiet_forEach (fun p t => afterSeatChange_quiet false s p t) ps _)

theorem publish_quiet (s : State) : Quiet s (publish s) :=
  quiet_ite (changes_onPub s _).quiet (publishBatch_quiet _ s)

theorem endEvent_quiet (s : State) : Quiet s (endEvent s) :=
  (takeReminders_changes s).quiet.andThen (arbitrate_quiet _)

theorem endWithBatch_quiet (s : State) : Quiet s (endWithBatch s) := (publish_quiet s).andThen (endEvent_quiet _)

theorem evaluateStart_quiet (s : State) : Quiet s (evaluateStart s) :=
  (((evaluateEach_changes _ s).quiet.andThen (publish_quiet _)).andThen (evaluateAllLists_quiet _)).andThen
    (endEvent_quiet _)

theorem makeMissing_quiet (x : TagId) (q : Pos) (c : Nat) (s : State) : Quiet s (makeMissing x q c s) :=
  ((onEntry_changes x _ s).quiet.andThen (changesOnly_forEach dropContest_changes _ _).quiet).andThen (notify_quiet _ _)

theorem vacate_quiet : ∀ (n : Nat) (m : List TagId) (q : Pos) (v : Vacating) (s : State), Quiet s (vacate n m q v s)
  | 0, _, _, _, s => Quiet.refl s
  | n + 1, m, q, v, s => by
    unfold vacate
    split
    · exact Quiet.refl s
    · split
      · split
        · exact Quiet.refl s
        · exact makeMissing_quiet _ _ _ s
      · refine quiet_ite ?_ (Quiet.andThen ?_ (raiseUrgent_changes _ _).quiet)
        · exact (((vacate_quiet n _ _ _ s).andThen (placeEntry_changes _ _ _).quiet).andThen
            (setContest_changes _ none _).quiet).andThen (notify_quiet _ _)
        · exact (((vacate_quiet n _ _ _ s).andThen (placeEntry_changes _ _ _).quiet).andThen
            (setContest_changes _ none _).quiet).andThen (notify_quiet _ _)

theorem childRowLeaves_quiet (r : Row) (b : Bool) (s : State) : Quiet s (childRowLeaves r b s) :=
  (changesOnly_forEach (fun p t => changes_onCoil t p _) _ s).quiet.andThen
    (quiet_forEach (fun p t => vacate_quiet 16 [] p _ t) _ _)

theorem positionsLeaveOnline_quiet (r : Row) (b : Bool) (s : State) : Quiet s (positionsLeaveOnline r b s) :=
  (quiet_forEach (fun p t => (changes_onLoad t p _).quiet.andThen (changes_onCls _ p _).quiet) _ s).andThen
    (childRowLeaves_quiet r b _)

theorem childWake_quiet (s : State) : Quiet s (childWake s) := by
  unfold childWake
  refine Quiet.andThen (quiet_forEach (fun p t => ?_) _ s) (raiseAllUrgent_changes _).quiet
  split
  · exact quiet_ite (makeMissing_quiet _ p _ t) (Quiet.refl t)
  · exact Quiet.refl t

theorem preparePosition_quiet (p : Pos) (s : State) : Quiet s (preparePosition p s) :=
  (((changes_onLoad s p _).quiet.andThen (changes_onCls _ p _).quiet).andThen (childEnterOnline_changes p _).quiet).andThen
    (afterSeatChange_quiet false s p _)

theorem enterOnline_quiet (r : Row) (s : State) : Quiet s (enterOnline r s) :=
  (((changes_onRow s r _).quiet.andThen (notify_quiet _ _)).andThen (quiet_forEach preparePosition_quiet _ _)).andThen
    (evaluateRow_changes r s _).quiet

/-! ### Notices that wait -/

/-- An URGENT notice handed to a queue with room waits. -/
theorem notify_waits {n : Notice} {s : State} (hu : noticeUrgent s.settings.active n = true)
    (h : s.body.queue.length < 24) : ∃ e ∈ (notify n s).body.queue, e.urgent = true ∧ e.notice = n := by
  refine ⟨⟨n, true, false⟩, ?_, rfl, rfl⟩
  show _ ∈ (s.body.enter (noticeUrgent s.settings.active n) n).queue
  rw [hu]
  exact Body.enter_urgent_room n h

/-- An URGENT notice that waits goes on waiting. -/
theorem Quiet.waits {s t : State} (h : Quiet s t) {n : Notice}
    (hw : ∃ e ∈ s.body.queue, e.urgent = true ∧ e.notice = n) : ∃ e ∈ t.body.queue, e.urgent = true ∧ e.notice = n := by
  obtain ⟨e, he, hu, rfl⟩ := hw
  exact h.urgent e he hu

theorem waits_of_urgent {b : Body} {n : Notice} (hw : ∃ e ∈ b.queue, e.urgent = true ∧ e.notice = n) : Waits b n := by
  obtain ⟨e, he, _, hn⟩ := hw
  exact ⟨e, he, hn⟩

theorem noticeUrgent_of_kindClass {g : Groups} {n : Notice} (h : kindClass g (noticeKindCode n.kind) = 1) :
    noticeUrgent g n = true := by
  simp [noticeUrgent, h]

end Sys2Proof.Machine
end

section
/-! PROOFS. Evaluations: the candidate is the record of R90's table, it reads one position alone, and what an evaluation
leaves (R85, R90, R94 to R96). -/

namespace Sys2Proof.Machine

/-- The record of the first line that holds. -/
def pickLine (l : List (Bool × ClassRecord)) : ClassRecord :=
  match l.find? (·.1) with
  | some line => line.2
  | none => .notFitted

theorem pickLine_cons (b : Bool) (c : ClassRecord) (l : List (Bool × ClassRecord)) :
    pickLine ((b, c) :: l) = if b = true then c else pickLine l := by
  cases b <;> rfl

theorem tableRecord_eq_pickLine (s : State) (p : Pos) : tableRecord s p = pickLine (candidateLines s p) := rfl

/-- The last lines of R90's table give the class by load. -/
theorem loadClass_lines (band footprint least : Nat) : loadClass band footprint least
    = if (band == 0) = true then .vacant
      else if (band == 1) = true then .object
      else if (band == 2) = true then (if least ≤ footprint then .smallOccupant else .object)
      else (if least ≤ footprint then .adult else .object) := by
  unfold loadClass
  by_cases hf : least ≤ footprint
  · simp [hf, Nat.not_lt.mpr hf]
  · simp [hf, Nat.lt_of_not_le hf]

/-- The candidate is the record of R90's table. -/
theorem candidate_eq_tableRecord (s : State) (p : Pos) : candidate s p = tableRecord s p := by
  rw [tableRecord_eq_pickLine]
  unfold candidateLines candidate
  dsimp only
  rw [variantFault_eq]
  simp only [pickLine_cons]
  refine if_congr Iff.rfl rfl ?_
  refine if_congr (by simp) rfl ?_
  refine if_congr Iff.rfl rfl ?_
  refine if_congr Iff.rfl rfl ?_
  refine if_congr Iff.rfl rfl ?_
  refine if_congr (by simp [or_assoc]) rfl ?_
  refine if_congr (by simp) rfl ?_
  refine if_congr Iff.rfl rfl ?_
  refine if_congr Iff.rfl rfl ?_
  refine if_congr (by simp) rfl ?_
  rw [loadClass_lines]
  cases hu : (s.coil p).unknown
  · cases hs : standing s p with
    | none => simp
    | some e => cases ho : e.orient <;> simp [ho]
  · simp

/-! ### What the candidate reads -/

/-- What the candidate reads of a position's Classifier state. -/
def ClassState.view (c : ClassState) : Nat × Bool × Anchor × Anchor := (c.band, c.sampled, c.left, c.right)

/-- What the candidate reads of a position's load state. -/
def LoadState.view (l : LoadState) : Bool × Bool × Nat := (l.stale, l.cellFaults, l.footprint)

/-- The two states give the candidate of a position the same to read. -/
structure SameView (s t : State) (p : Pos) : Prop where
  straps : t.straps = s.straps
  active : t.settings.active = s.settings.active
  fault  : t.settings.posFault.get p = s.settings.posFault.get p
  uncal  : t.settings.uncalibrated.get p = s.settings.uncalibrated.get p
  row    : (t.row p.row).state = (s.row p.row).state
  cls    : (t.cls.get p).view = (s.cls.get p).view
  load   : (t.load.get p).view = (s.load.get p).view
  seen   : evidence t p = evidence s p

theorem SameView.refl (s : State) (p : Pos) : SameView s s p := ⟨rfl, rfl, rfl, rfl, rfl, rfl, rfl, rfl⟩

theorem SameView.trans {s t u : State} {p : Pos} (h1 : SameView s t p) (h2 : SameView t u p) : SameView s u p :=
  ⟨h2.straps.trans h1.straps, h2.active.trans h1.active, h2.fault.trans h1.fault, h2.uncal.trans h1.uncal,
    h2.row.trans h1.row, h2.cls.trans h1.cls, h2.load.trans h1.load, h2.seen.trans h1.seen⟩

theorem posFitted_congr {s t : State} (h : t.straps = s.straps) (p : Pos) : posFitted t p = posFitted s p := by
  unfold posFitted rowFitted fittedRows centerAbsent variantFault
  rw [h]

theorem sensorFlag_congr {s t : State} {p : Pos} (h : t.straps = s.straps)
    (ha : posWords t.settings.active p = posWords s.settings.active p) (n : Nat) : sensorFlag t p n = sensorFlag s p n := by
  simp only [sensorFlag, posFitted_congr h, ha]

theorem tableRecord_of_sameView {s t : State} {p : Pos} (h : SameView s t p) : tableRecord t p = tableRecord s p := by
  obtain ⟨hst, ha, hf, hu, hr, hc, hl, he⟩ := h
  simp only [ClassState.view, Prod.mk.injEq] at hc
  simp only [LoadState.view, Prod.mk.injEq] at hl
  simp only [evidence, Evidence.mk.injEq] at he
  obtain ⟨hb, hsa, hle, hri⟩ := hc
  obtain ⟨hls, hlc, hlf⟩ := hl
  obtain ⟨hen, hco, hun⟩ := he
  have hor : (standing t p).map (·.orient) = (standing s p).map (·.orient) := by
    have := congrArg (Option.map Prod.snd) hen
    simpa [Option.map_map, Function.comp_def] using this
  have han : anchored t p = anchored s p := by
    simp only [anchored, anchorsFitted, sensorFlag_congr hst (congrArg (posWords · p) ha), hle, hri]
  simp only [tableRecord, candidateLines, posFitted_congr hst, ha, hf, hu, hr, hb, hsa, hls, hlc, hlf, hco, hun, hor, han, hst]

/-- A change of other blocks than those the candidate reads. -/
theorem ChangesOnly.sameView {bs : List Block} {s t : State} (h : ChangesOnly bs s t) (p : Pos)
    (h1 : bs.contains Block.straps = false := by rfl) (h2 : bs.contains Block.settings = false := by rfl)
    (h3 : bs.contains Block.line = false := by rfl) (h4 : bs.contains Block.cls = false := by rfl)
    (h5 : bs.contains Block.load = false := by rfl) (h6 : bs.contains Block.child = false := by rfl) : SameView s t p := by
  have es := h.settings h2
  have el := h.line h3
  have ec := h.child h6
  exact ⟨h.straps h1, by rw [es], by rw [es], by rw [es], by unfold State.row; rw [el], by rw [h.cls h4],
    by rw [h.load h5], by unfold evidence standing State.coil; rw [ec]⟩

/-- The record of a fitted position whose row is ABSENT, or is not yet sampled. -/
theorem candidate_eq_startRecord {s : State} {p : Pos} (hf : posFitted s p = true)
    (hr : (s.row p.row).state = .absent ∨ (s.row p.row).state = .probing ∨ (s.row p.row).state = .checking
      ∨ (s.row p.row).state = .recovering ∨ ((s.row p.row).state = .online ∧ (s.cls.get p).sampled = false)) :
    candidate s p = startRecord s p := by
  unfold candidate startRecord
  dsimp only
  rw [variantFault_eq, if_neg (by simp [hf])]
  by_cases ha : (s.row p.row).state = .absent
  · rw [if_pos ha, if_pos ha]
  · rw [if_neg ha, if_neg ha]
    exact if_congr (by simp) rfl (if_congr Iff.rfl rfl (if_congr Iff.rfl rfl (if_pos (hr.resolve_left ha))))

theorem startRecord_settlesAtOnce (s : State) (p : Pos) : settlesAtOnce (startRecord s p) = true := by
  unfold startRecord
  repeat' split
  all_goals rfl

theorem startRecord_congr {s t : State} {p : Pos} (h1 : t.straps = s.straps)
    (h2 : t.settings.posFault.get p = s.settings.posFault.get p)
    (h3 : t.settings.uncalibrated.get p = s.settings.uncalibrated.get p)
    (h4 : (t.row p.row).state = (s.row p.row).state) : startRecord t p = startRecord s p := by
  simp only [startRecord, h1, h2, h3, h4]

/-! ### What an evaluation leaves -/

/-- The Classifier's state after an evaluation that formed the candidate given: the candidate is kept, and is settled where
it settles at once (R95, R96). -/
def Formed (c : ClassState) (cand : ClassRecord) : Prop :=
  c.previous = some cand ∧ (settlesAtOnce cand = true → c.settled = cand)

theorem settle_formed (c : ClassState) (cand : ClassRecord) (f : Bool) (n : Nat) : Formed (c.settle cand f n) cand := by
  unfold ClassState.settle
  dsimp only
  constructor
  · repeat' split
    all_goals rfl
  · intro h
    rw [if_pos h]

/-- Settling changes the candidate kept, the settled record and the dwell alone. -/
theorem settle_rest (c : ClassState) (cand : ClassRecord) (f : Bool) (n : Nat) : c.settle cand f n
    = { c with previous := (c.settle cand f n).previous, dwell := (c.settle cand f n).dwell
               settled := (c.settle cand f n).settled } := by
  unfold ClassState.settle
  dsimp only
  repeat' split
  all_goals rfl

theorem settle_atOnce (c : ClassState) {cand : ClassRecord} (h : settlesAtOnce cand = true) (f : Bool) (n : Nat) :
    c.settle cand f n = { c with previous := some cand, settled := cand, dwell := 0 } := by
  unfold ClassState.settle
  dsimp only
  rw [if_pos h]

theorem evaluate_cls (f : Bool) (p : Pos) (s : State) (q : Pos) : (evaluate f p s).cls.get q
    = if q = p ∧ posFitted s p = true ∧ awake s = true then
        (s.cls.get p).settle (candidate s p) f (dwellLimit s.settings.active p)
      else s.cls.get q := by
  unfold evaluate
  by_cases h : (posFitted s p && awake s) = true
  · rw [if_pos h]
    rw [Bool.and_eq_true] at h
    simp only [State.onCls_cls, PerPos.get_modify, h.1, h.2, and_true]
    split
    · rename_i hq
      rw [hq]
    · rfl
  · rw [if_neg h, if_neg]
    rw [Bool.and_eq_true] at h
    exact fun hq => h hq.2

theorem evaluate_cls_rest (f : Bool) (p : Pos) (s : State) (q : Pos) : (evaluate f p s).cls.get q
    = { s.cls.get q with
        previous := ((evaluate f p s).cls.get q).previous, dwell := ((evaluate f p s).cls.get q).dwell
        settled := ((evaluate f p s).cls.get q).settled } := by
  rw [evaluate_cls]
  split
  · rename_i hq
    rw [hq.1]
    exact settle_rest _ _ _ _
  · rfl

theorem evaluate_sameView (f : Bool) (p : Pos) (s : State) (q : Pos) : SameView s (evaluate f p s) q := by
  have h := evaluate_changes f p s
  have es := h.settings
  have el := h.line
  have ec := h.child
  refine ⟨h.straps, by rw [es], by rw [es], by rw [es], by unfold State.row; rw [el], ?_, by rw [h.load],
    by unfold evidence standing State.coil; rw [ec]⟩
  rw [evaluate_cls_rest]
  rfl

/-- An evaluation forms the candidate of a fitted position, in RUN and REST. -/
theorem evaluate_formed (f : Bool) {p : Pos} {s : State} (hf : posFitted s p = true) (ha : awake s = true) :
    Formed ((evaluate f p s).cls.get p) (tableRecord s p) := by
  rw [evaluate_cls, if_pos ⟨rfl, hf, ha⟩, candidate_eq_tableRecord]
  exact settle_formed _ _ _ _

theorem evaluate_awake (f : Bool) (p : Pos) (s : State) : awake (evaluate f p s) = awake s := by
  unfold awake
  rw [(evaluate_changes f p s).monitor]

theorem evaluate_posFitted (f : Bool) (p : Pos) (s : State) (q : Pos) : posFitted (evaluate f p s) q = posFitted s q :=
  posFitted_congr (evaluate_changes f p s).straps q

theorem evaluate_other (f : Bool) {p q : Pos} (s : State) (h : q ≠ p) : (evaluate f p s).cls.get q = s.cls.get q := by
  rw [evaluate_cls, if_neg (fun hq => h hq.1)]

/-! ### Several evaluations -/

theorem evaluateEach_cons (p : Pos) (ps : List Pos) (s : State) :
    evaluateEach (p :: ps) s = evaluateEach ps (evaluate false p s) := rfl

theorem evaluateEach_sameView (q : Pos) : ∀ (ps : List Pos) (s : State), SameView s (evaluateEach ps s) q
  | [], s => SameView.refl s q
  | p :: ps, s => (evaluate_sameView false p s q).trans (evaluateEach_sameView q ps _)

theorem evaluateEach_other {q : Pos} : ∀ (ps : List Pos) (s : State), q ∉ ps → (evaluateEach ps s).cls.get q = s.cls.get q
  | [], _, _ => rfl
  | p :: ps, s, h => by
    rw [List.mem_cons, not_or] at h
    rw [evaluateEach_cons, evaluateEach_other ps _ h.2, evaluate_other _ _ h.1]

theorem evaluateEach_cls_rest (q : Pos) : ∀ (ps : List Pos) (s : State), (evaluateEach ps s).cls.get q
    = { s.cls.get q with
        previous := ((evaluateEach ps s).cls.get q).previous, dwell := ((evaluateEach ps s).cls.get q).dwell
        settled := ((evaluateEach ps s).cls.get q).settled }
  | [], _ => rfl
  | p :: ps, s => by
    rw [evaluateEach_cons, evaluateEach_cls_rest q ps, evaluate_cls_rest]

/-- Evaluations of positions whose candidates settle at once. -/
theorem evaluateEach_atOnce {q : Pos} (ps : List Pos) (s : State) (hm : q ∈ ps) (hf : posFitted s q = true)
    (ha : awake s = true) (hs : settlesAtOnce (tableRecord s q) = true) : (evaluateEach ps s).cls.get q
      = { s.cls.get q with previous := some (tableRecord s q), settled := tableRecord s q, dwell := 0 } := by
  induction ps generalizing s with
  | nil => exact absurd hm List.not_mem_nil
  | cons p ps ih =>
    rw [evaluateEach_cons]
    by_cases hq : q ∈ ps
    · have hv := tableRecord_of_sameView (evaluate_sameView false p s q)
      rw [ih _ hq ((evaluate_posFitted _ _ _ _).trans hf) ((evaluate_awake _ _ _).trans ha) (hv.symm ▸ hs), hv,
        evaluate_cls_rest]
    · have hp : q = p := (List.mem_cons.mp hm).resolve_right hq
      subst hp
      rw [evaluateEach_other ps _ hq, evaluate_cls, if_pos ⟨rfl, hf, ha⟩, candidate_eq_tableRecord]
      exact settle_atOnce _ hs _ _

theorem evaluateEach_asleep {s : State} (ha : awake s = false) : ∀ ps : List Pos, evaluateEach ps s = s
  | [] => rfl
  | p :: ps => by
    have h : evaluate false p s = s := if_neg (by simp [ha])
    rw [evaluateEach_cons, h, evaluateEach_asleep ha ps]

/-! ### What a batch publishes -/

/-- While the lock is not held, a batch leaves every settled record published (R104). -/
theorem publish_table {s : State} (hl : s.pub.locked = false) (p : Pos) :
    (publish s).pub.table.get p = (s.cls.get p).settled := by
  have e : publish s = publishBatch (allPos.filter (unpublished s)) s := if_neg (by simp [hl])
  obtain ⟨_, _, _, ht⟩ := publishBatch_spec (allPos.filter (unpublished s)) s
  rw [e, ht, mem_allPos_filter]
  split
  · rfl
  · rename_i h
    simpa [unpublished] using (Eq.symm (by simpa [unpublished] using h))

/-- While the lock is held the published table stands (R108). -/
theorem publish_table_locked {s : State} (hl : s.pub.locked = true) : (publish s).pub.table = s.pub.table := by
  unfold publish
  rw [if_pos hl]
  rfl

theorem publish_locked (s : State) : (publish s).pub.locked = s.pub.locked := by
  unfold publish
  split
  · rfl
  · exact (publishBatch_spec _ s).2.2.1

theorem endWithBatch_table {s : State} (hl : s.pub.locked = false) (p : Pos) :
    (endWithBatch s).pub.table.get p = (s.cls.get p).settled := by
  unfold endWithBatch
  rw [(endEvent_changes _).pub, publish_table hl]

theorem endWithBatch_table_locked {s : State} (hl : s.pub.locked = true) :
    (endWithBatch s).pub.table = s.pub.table := by
  unfold endWithBatch
  rw [(endEvent_changes _).pub, publish_table_locked hl]

end Sys2Proof.Machine
end

section
/-! PROOFS. The row line: the record that each operation of a row leaves, the rest of the line as it was (R20, R27 to R35). -/

namespace Sys2Proof.Machine

/-! ### One record changed -/

theorem PerRow.modify_eq_self {α : Type} {t : PerRow α} {r : Row} {f : α → α} (h : f (t.get r) = t.get r) :
    t.modify r f = t := by
  refine PerRow.ext_get (fun q => ?_)
  rw [PerRow.get_modify]
  split
  · rename_i hq
    rw [hq, h]
  · rfl

theorem PerRow.modify_modify {α : Type} (t : PerRow α) (r : Row) (f g : α → α) :
    (t.modify r f).modify r g = t.modify r (fun x => g (f x)) := by
  cases r <;> rfl

/-- Of the line, the record of one row alone differs, and by `f`. -/
def RowMoved (r : Row) (f : RowRecord → RowRecord) (s t : State) : Prop :=
  t.line = { s.line with rows := s.line.rows.modify r f }

theorem rowMoved_onRow (s : State) (r : Row) (f : RowRecord → RowRecord) : RowMoved r f s (s.onRow r f) := rfl

section
variable {r : Row} {f g : RowRecord → RowRecord} {s t u : State}

theorem RowMoved.row (h : RowMoved r f s t) : t.row r = f (s.row r) := by
  unfold State.row
  rw [h]
  exact PerRow.get_modify_self _ _ _

theorem RowMoved.other (h : RowMoved r f s t) {q : Row} (hq : q ≠ r) : t.row q = s.row q := by
  unfold State.row
  rw [h]
  exact PerRow.get_modify_ne _ _ hq

theorem RowMoved.exchange (h : RowMoved r f s t) : t.line.exchange = s.line.exchange := by rw [h]
theorem RowMoved.timer (h : RowMoved r f s t) : t.line.timer = s.line.timer := by rw [h]
theorem RowMoved.pointer (h : RowMoved r f s t) : t.line.pointer = s.line.pointer := by rw [h]

theorem RowMoved.andThen (h1 : RowMoved r f s t) (h2 : RowMoved r g t u) : RowMoved r (fun x => g (f x)) s u := by
  unfold RowMoved at *
  rw [h2, h1, PerRow.modify_modify]

/-- An operation that leaves the line follows. -/
theorem RowMoved.andLeave (h1 : RowMoved r f s t) (h2 : u.line = t.line) : RowMoved r f s u := h2.trans h1

theorem RowMoved.congr (h : RowMoved r f s t) (he : f (s.row r) = g (s.row r)) : RowMoved r g s t := by
  have e : s.line.rows.modify r f = s.line.rows.modify r g := by
    refine PerRow.ext_get (fun q => ?_)
    rw [PerRow.get_modify, PerRow.get_modify]
    split
    · rename_i hq
      rw [hq]
      exact he
    · rfl
  unfold RowMoved at *
  rw [h, e]

end

/-! ### The operations of a row -/

theorem abandonRead_row (r : Row) (s : State) : RowMoved r (fun x => { x with tagRead := none }) s (abandonRead r s) := by
  unfold abandonRead
  split
  · rename_i h
    refine RowMoved.congr (f := id) ?_ ?_
    · unfold RowMoved
      rw [PerRow.modify_eq_self rfl]
    · show s.row r = { s.row r with tagRead := none }
      rw [← h]
  · exact (show RowMoved r _ s (clearTagRead r s) from rfl).andLeave (raiseUrgent_changes _ _).line

theorem enterOnline_row (r : Row) (s : State) :
    RowMoved r (fun x => { x with state := .online, score := 0, stability := some 10000 }) s (enterOnline r s) :=
  (rowMoved_onRow s r _).andLeave ((((notify_changes _ _).widen (bs := [.load, .child, .cls, .rem, .body])).andThen
    (changesOnly_forEach preparePosition_changes _ _)).andThen (evaluateRow_changes r s _)).line

theorem enterFailed_row (r : Row) (c : RowCause) (s : State) :
    RowMoved r (fun x => { x.fail c with tagRead := none }) s (enterFailed r c s) :=
  ((abandonRead_row r s).andThen (rowMoved_onRow _ r (fun x => x.fail c))).andLeave
    ((((notify_changes _ _).widen (bs := [.monitor, .load, .child, .cls, .rem, .body])).andThen
      (notify_changes _ _)).andThen (positionsFall_changes r _ s _)).line

/-- A row that leaves for RECOVERING while its recovery count stays below 3 (R33). -/
theorem enterRecovering_row_below {r : Row} (c : RowCause) {s : State} (h : (s.row r).recovery + 1 < 3) :
    RowMoved r (fun x => { x.recover c with recovery := x.recovery + 1, tagRead := none }) s (enterRecovering r c s) := by
  unfold enterRecovering
  dsimp only
  rw [if_neg (by rw [State.row_onRow_self]; show ¬ 3 ≤ min 3 ((s.row r).recovery + 1); omega)]
  refine RowMoved.congr (((rowMoved_onRow s r (fun x => { x with recovery := min 3 (x.recovery + 1) })).andThen
    ((abandonRead_row r _).andThen
    (rowMoved_onRow _ r (fun x => x.recover c)))).andLeave ?_) ?_
  · exact (((notify_changes _ _).widen (bs := [.monitor, .load, .child, .cls, .rem, .body])).andThen
      (positionsFall_changes r _ s _)).line
  · show ({ (s.row r).recover c with recovery := min 3 ((s.row r).recovery + 1), tagRead := none } : RowRecord) = _
    rw [Nat.min_eq_right (by omega)]

/-- A row whose recovery count reaches 3 fails (R33, R35). -/
theorem enterRecovering_row_atLimit {r : Row} (c : RowCause) {s : State} (h : 3 ≤ (s.row r).recovery + 1) :
    RowMoved r (fun x => { x.fail .recoveryExhausted with recovery := 3, tagRead := none }) s (enterRecovering r c s) := by
  unfold enterRecovering
  dsimp only
  rw [if_pos (by rw [State.row_onRow_self]; show 3 ≤ min 3 ((s.row r).recovery + 1); omega)]
  refine RowMoved.congr ((rowMoved_onRow s r _).andThen (enterFailed_row r _ _)) ?_
  show ({ (s.row r).fail .recoveryExhausted with recovery := min 3 ((s.row r).recovery + 1), tagRead := none } : RowRecord)
    = _
  rw [Nat.min_eq_left h]

/-- The blocks that the fall of a row which is not ONLINE changes. -/
def offlineBlocks : List Block := [.line, .child, .cls, .body]

theorem enterFailed_changes_offline {r : Row} (c : RowCause) {s : State} (h : (s.row r).state ≠ .online) :
    ChangesOnly offlineBlocks s (enterFailed r c s) := by
  have e : ((s.row r).state == .online) = false := by simpa using h
  unfold enterFailed positionsFall
  simp only [e]
  exact ((((abandonRead_changes r s).widen.andThen (changes_onRow _ r _)).andThen (notify_changes _ _)).andThen
    (notify_changes _ _)).andThen (evaluateRow_changes r s _)

theorem enterRecovering_changes_offline {r : Row} (c : RowCause) {s : State} (h : (s.row r).state ≠ .online) :
    ChangesOnly offlineBlocks s (enterRecovering r c s) := by
  have e : ((s.row r).state == .online) = false := by simpa using h
  unfold enterRecovering
  refine changesOnly_ite ((changes_onRow s r _).widen.andThen (enterFailed_changes_offline _ ?_)) ?_
  · rw [State.row_onRow_self]
    exact h
  · unfold positionsFall
    simp only [e]
    exact ((((changes_onRow s r _).widen.andThen (abandonRead_changes r _)).andThen (changes_onRow _ r _)).andThen
      (notify_changes _ _)).andThen (evaluateRow_changes r s _)

/-! ### Exchanges -/

/-- A command that fails the exchange on the line ends it as a failure (R20). -/
theorem exec_failsExchange {s : State} {x : Exchange} {c : Instr} (hx : s.line.exchange = some x)
    (h : FailsExchange s x c) : exec c s = .next (endWithBatch (exchangeFails x (endExchange s))) := by
  obtain rfl | ⟨b, hb, rfl⟩ := h
  · show Host.Outcome.next (exchangeTimesOut s) = _
    unfold exchangeTimesOut
    rw [hx]
  · have e : answerCompletes b s = endWithBatch (exchangeFails x (endExchange s)) := by
      unfold answerCompletes
      rw [hx]
      dsimp only
      cases hj : judgeAnswer s x b
      · rfl
      · rfl
      · exact absurd hj hb
    rw [← e]
    cases x.kind <;> rfl

/-- A GOOD answer ends the exchange on the line (R20). -/
theorem answerCompletes_good {s : State} {x : Exchange} {b : List Byte} (hx : s.line.exchange = some x)
    (h : judgeAnswer s x b = .good) : answerCompletes b s = endWithBatch (exchangeGood x b (endExchange s)) := by
  unfold answerCompletes
  rw [hx]
  dsimp only
  rw [h]

theorem endWithBatch_line (s : State) : (endWithBatch s).line = s.line := (endWithBatch_changes s).line

/-- An exchange is ended, one row's record moves, and the event ends: what the line then holds. -/
theorem RowMoved.afterExchange {r : Row} {f : RowRecord → RowRecord} {s t : State} (h : RowMoved r f (endExchange s) t) :
    (endWithBatch t).line.exchange = none ∧ (endWithBatch t).row r = f (s.row r)
      ∧ ∀ q, q ≠ r → (endWithBatch t).row q = s.row q := by
  have hm : RowMoved r f (endExchange s) (endWithBatch t) := h.andLeave (endWithBatch_line t)
  exact ⟨hm.exchange, hm.row, fun q hq => hm.other hq⟩

end Sys2Proof.Machine
end

section
/-! PROOFS. The slot timer's expiry: the exchange on the line is ended, and the next slot is taken (R20, R22, R24, R37). -/

namespace Sys2Proof.Machine

/-! ### A failed exchange moves one record of the line -/

theorem enterRecovering_oneRow (r : Row) (c : RowCause) (s : State) : ∃ f, RowMoved r f s (enterRecovering r c s) := by
  by_cases h : (s.row r).recovery + 1 < 3
  · exact ⟨_, enterRecovering_row_below c h⟩
  · exact ⟨_, enterRecovering_row_atLimit c (Nat.le_of_not_lt h)⟩

/-- A record's count moves, and the row falls where the count is reached. -/
theorem oneRow_countOrFall (r : Row) (c : RowCause) (f : RowRecord → RowRecord) (s : State) {t : State}
    (h : t = s.onRow r f ∨ t = enterRecovering r c (s.onRow r f)) : ∃ g, RowMoved r g s t := by
  obtain rfl | rfl := h
  · exact ⟨f, rowMoved_onRow s r f⟩
  · obtain ⟨g, hg⟩ := enterRecovering_oneRow r c (s.onRow r f)
    exact ⟨_, (rowMoved_onRow s r f).andThen hg⟩

theorem sampleFails_oneRow (r : Row) (s : State) : ∃ f, RowMoved r f s (sampleFails r s) := by
  refine oneRow_countOrFall r .errorScore (fun x => { x with score := min 64 (x.score + 4) }) s ?_
  unfold sampleFails
  dsimp only
  split
  · exact .inr rfl
  · exact .inl rfl

theorem probeFails_oneRow (r : Row) (s : State) : ∃ f, RowMoved r f s (probeFails r s) := by
  refine oneRow_countOrFall r .probeExhausted (fun x => { x with idFailures := min 16 (x.idFailures + 1) }) s ?_
  unfold probeFails
  dsimp only
  split
  · exact .inr rfl
  · exact .inl rfl

theorem attemptFails_oneRow (r : Row) (s : State) : ∃ f, RowMoved r f s (attemptFails r s) := by
  unfold attemptFails
  dsimp only
  split
  · exact oneRow_countOrFall r .checkExhausted _ s (.inr rfl)
  · exact ⟨_, (rowMoved_onRow s r _).andThen (rowMoved_onRow _ r _)⟩

theorem exchangeFails_oneRow (x : Exchange) (s : State) : ∃ f, RowMoved x.row f s (exchangeFails x s) := by
  have same : ∃ f, RowMoved x.row f s s := ⟨id, (rowMoved_onRow s x.row id).andLeave (by
    show s.line = { s.line with rows := s.line.rows.modify x.row id }
    rw [PerRow.modify_eq_self rfl])⟩
  unfold exchangeFails
  split
  · exact sampleFails_oneRow x.row s
  · exact probeFails_oneRow x.row s
  · split
    · exact same
    · exact attemptFails_oneRow x.row s
  · split
    · exact same
    · exact attemptFails_oneRow x.row s
  · exact same

/-- The end of the response window leaves the slot timer and the pointer (R20, R22). -/
theorem exchangeTimesOut_line {s : State} {x : Exchange} (hx : s.line.exchange = some x) :
    (exchangeTimesOut s).line.exchange = none ∧ (exchangeTimesOut s).line.timer = s.line.timer
      ∧ (exchangeTimesOut s).line.pointer = s.line.pointer := by
  have e : exchangeTimesOut s = endWithBatch (exchangeFails x (endExchange s)) := by
    unfold exchangeTimesOut
    rw [hx]
  obtain ⟨f, hf⟩ := exchangeFails_oneRow x (endExchange s)
  have hm := hf.andLeave (endWithBatch_line _)
  rw [e]
  exact ⟨hm.exchange, hm.timer, hm.pointer⟩

theorem exchangeTimesOut_idle {s : State} (hx : s.line.exchange = none) : exchangeTimesOut s = s := by
  unfold exchangeTimesOut
  rw [hx]

theorem slotExpires_running {s : State} {n : Nat} (h : s.line.timer = .running n) :
    slotExpires s = takeSlot (exchangeTimesOut s) := by
  unfold slotExpires
  rw [h]

/-! ### The slot that is taken -/

/-- The pointer moved on and the timer restarted (R22). -/
def slotBegun (s : State) : State :=
  s.onLine (fun l => { l with pointer := s.line.pointer + 1, timer := .running (slotPeriod s) })

theorem takeSlot_empty {s : State} (h : slotRow s.settings.active (s.line.pointer + 1).toNat = none) :
    takeSlot s = slotBegun s := by
  unfold takeSlot
  dsimp only
  rw [h]
  rfl

theorem takeSlot_row {s : State} {r : Row} (h : slotRow s.settings.active (s.line.pointer + 1).toNat = some r) :
    takeSlot s = carrySlot r (slotBegun s) := by
  unfold takeSlot
  dsimp only
  rw [h]
  rfl

/-- From `s` to `t` a poll is put on the line, and of the records that of its row moves, by `f`. -/
structure PollSent (r : Row) (b : PollBody) (f : RowRecord → RowRecord) (s t : State) : Prop where
  line : t.line = { s.line with exchange := some (polled s r b), rows := s.line.rows.modify r f }

theorem PollSent.row {r : Row} {b : PollBody} {f : RowRecord → RowRecord} {s t : State} (h : PollSent r b f s t) :
    t.row r = f (s.row r) := by
  unfold State.row
  rw [h.line]
  exact PerRow.get_modify_self _ _ _

theorem sendPoll_sent (r : Row) (b : PollBody) (s : State) :
    PollSent r b (fun x => { x with sequence := x.sequence + 1 }) s (sendPoll r b s) := ⟨rfl⟩

theorem sendWalk_eq (r : Row) (s : State) : sendWalk r s = sendPoll r (walkPoll s.settings.active (s.row r).walk) s := by
  unfold sendWalk walkPoll
  dsimp only
  cases (s.row r).walk.phase <;> rfl

/-- The record of a row for which a read is started at a seat: the counter advances and the read is in flight (R37). -/
def RowRecord.startTag (n : BitVec 2) (k : Seat) (x : RowRecord) : RowRecord :=
  { x with tagCounter := n, tagRead := some ⟨k, n, false⟩ }

/-- A SAMPLE poll, with or without a tag start, takes the row's sequence and leaves its state (R19, R37). -/
theorem sendSample_sent (r : Row) (s : State) : ∃ start f, PollSent r (.sample start) f s (sendSample r s)
    ∧ (f (s.row r)).sequence = (s.row r).sequence + 1 ∧ (f (s.row r)).state = (s.row r).state := by
  unfold sendSample
  split
  · exact ⟨_, _, sendPoll_sent r _ s, rfl, rfl⟩
  · split
    · exact ⟨_, _, sendPoll_sent r _ s, rfl, rfl⟩
    · rename_i p _
      generalize hn : (s.row r).tagCounter + 1 = n
      refine ⟨some (p.seat, n), fun x => { x.startTag n p.seat with sequence := x.sequence + 1 }, ⟨?_⟩, rfl, rfl⟩
      have hq : polled ((startRead p s).onRow r (RowRecord.startTag n p.seat)) r (.sample (some (p.seat, n)))
          = polled s r (.sample (some (p.seat, n))) := by
        unfold polled
        rw [State.row_onRow_self]
        rfl
      refine (sendPoll_sent r (.sample (some (p.seat, n)))
        ((startRead p s).onRow r (RowRecord.startTag n p.seat))).line.trans ?_
      rw [hq, State.onRow_line, PerRow.modify_modify]
      rfl

/-- What a slot carries leaves the slot timer, the pointer and the records of the other rows. -/
theorem carrySlot_line (r : Row) (s : State) : (carrySlot r s).line.pointer = s.line.pointer
    ∧ (carrySlot r s).line.timer = s.line.timer ∧ ∀ q, q ≠ r → (carrySlot r s).row q = s.row q := by
  have sent : ∀ {b f t}, PollSent r b f s t →
      t.line.pointer = s.line.pointer ∧ t.line.timer = s.line.timer ∧ ∀ q, q ≠ r → t.row q = s.row q := by
    intro b f t h
    unfold State.row
    rw [h.line]
    exact ⟨rfl, rfl, fun q hq => PerRow.get_modify_ne _ _ hq⟩
  unfold carrySlot
  split
  · exact ⟨rfl, rfl, fun _ _ => rfl⟩
  · split
    · split
      · exact sent (sendPoll_sent r _ s)
      · exact ⟨rfl, rfl, fun _ _ => rfl⟩
    · rw [sendWalk_eq]
      exact sent (sendPoll_sent r _ s)
    · obtain ⟨_, _, h, _⟩ := sendSample_sent r s
      exact sent h
    · exact ⟨rfl, rfl, fun _ _ => rfl⟩
    · exact ⟨rfl, rfl, fun _ _ => rfl⟩
    · exact ⟨rfl, rfl, fun _ _ => rfl⟩

/-- A row that is not fitted, or in a state that no poll is for, gets none (R24). -/
theorem carrySlot_none {r : Row} {s : State} (h : rowFitted s r = false ∨ (s.row r).state = .absent
    ∨ (s.row r).state = .recovering ∨ (s.row r).state = .failed
    ∨ ((s.row r).state = .probing ∧ (s.row r).settle ≠ .expired)) : carrySlot r s = s := by
  unfold carrySlot
  by_cases hf : rowFitted s r = false
  · rw [if_pos (by simp [hf])]
  · rw [if_neg (by simpa using hf)]
    obtain h | h | h | h | ⟨h, hs⟩ := h
    · exact absurd h hf
    · rw [h]
    · rw [h]
    · rw [h]
    · rw [h]
      exact if_neg hs

theorem carrySlot_probing {r : Row} {s : State} (hf : rowFitted s r = true) (h : (s.row r).state = .probing)
    (hs : (s.row r).settle = .expired) : carrySlot r s = sendPoll r .readId s := by
  unfold carrySlot
  rw [if_neg (by simp [hf]), h]
  exact if_pos hs

theorem carrySlot_checking {r : Row} {s : State} (hf : rowFitted s r = true) (h : (s.row r).state = .checking) :
    carrySlot r s = sendWalk r s := by
  unfold carrySlot
  rw [if_neg (by simp [hf]), h]

theorem carrySlot_online {r : Row} {s : State} (hf : rowFitted s r = true) (h : (s.row r).state = .online) :
    carrySlot r s = sendSample r s := by
  unfold carrySlot
  rw [if_neg (by simp [hf]), h]

end Sys2Proof.Machine

namespace Sys2Proof.Certificates

open Sys2Proof.Machine

/-- Settles O16: a standing exchange is timed out first, and the slot then carries what its row's state calls for. -/
theorem slotIsTaken : Obligations.SlotIsTaken := by
  refine ⟨fun s n x hn hx => ?_, fun s n hn hx => ?_⟩
  · obtain ⟨he, ht, hp⟩ := exchangeTimesOut_line hx
    refine ⟨exchangeTimesOut s, rfl, he, ht.trans hn, hp, congrArg Host.Outcome.next ?_⟩
    rw [slotExpires_running hn, slotExpires_running (ht.trans hn), exchangeTimesOut_idle he]
  · have e : slotExpires s = takeSlot s := by rw [slotExpires_running hn, exchangeTimesOut_idle hx]
    refine ⟨takeSlot s, congrArg Host.Outcome.next e, ?_⟩
    cases hr : slotRow s.settings.active (s.line.pointer + 1).toNat with
    | none =>
      have hc := takeSlot_changes s
      rw [takeSlot_empty hr] at hc ⊢
      exact ⟨rfl, rfl, hc, fun _ => ⟨hx, rfl, rfl⟩, nofun⟩
    | some r =>
      have hc := takeSlot_changes s
      rw [takeSlot_row hr] at hc ⊢
      obtain ⟨hp, ht, ho⟩ := carrySlot_line r (slotBegun s)
      refine ⟨hp, ht, hc, nofun, fun q hq => ?_⟩
      obtain rfl := Option.some.inj hq
      refine ⟨ho, fun h => ?_, fun hf h hs => ?_, fun hf h => ?_, fun hf h => ?_⟩
      · rw [carrySlot_none (s := slotBegun s) h]
        exact ⟨hx, rfl, rfl⟩
      · rw [carrySlot_probing (s := slotBegun s) hf h hs]
        exact ⟨rfl, rfl, (sendPoll_sent r _ _).row⟩
      · rw [carrySlot_checking (s := slotBegun s) hf h, sendWalk_eq]
        exact ⟨rfl, rfl, (sendPoll_sent r _ _).row⟩
      · rw [carrySlot_online (s := slotBegun s) hf h]
        obtain ⟨start, f, hs, hq, hst⟩ := sendSample_sent r (slotBegun s)
        refine ⟨⟨start, ?_⟩, ?_, ?_⟩
        · rw [hs.line]
          rfl
        · rw [hs.row]
          exact hq
        · rw [hs.row]
          exact hst.trans h

end Sys2Proof.Certificates
end

section
/-! PROOFS. The tag read timer's expiry (R15, R65, R67). -/

namespace Sys2Proof.Machine

theorem clearTagRead_row (r : Row) (s : State) : RowMoved r (fun x => { x with tagRead := none }) s (clearTagRead r s) := rfl

/-- A read that completes with FAULT: at its position the count moves, unless it is marked to be discarded (R15, R67). -/
theorem completeRead_fault (r : Row) (x : TagRead) (s : State) : completeRead r x .fault s
    = if x.discard then clearTagRead r s else countFault ⟨r, x.seat⟩ (clearTagRead r s) := rfl

theorem completeRead_fault_row (r : Row) (x : TagRead) (s : State) :
    RowMoved r (fun y => { y with tagRead := none }) s (completeRead r x .fault s) := by
  rw [completeRead_fault]
  split
  · exact clearTagRead_row r s
  · exact clearTagRead_row r s

theorem completeRead_fault_child (r : Row) (x : TagRead) (s : State) :
    (completeRead r x .fault s).child.entries = s.child.entries
      ∧ (completeRead r x .fault s).child.tagTimers = s.child.tagTimers.modify r (fun _ => none) := by
  rw [completeRead_fault]
  split <;> exact ⟨rfl, rfl⟩

theorem completeRead_fault_coil (r : Row) (x : TagRead) (s : State) (p : Pos) : (completeRead r x .fault s).coil p
    = if x.discard = false ∧ p = ⟨r, x.seat⟩ then { s.coil p with
        faults := min 3 ((s.coil p).faults + 1), unknown := (s.coil p).unknown || decide (3 ≤ (s.coil p).faults + 1) }
      else s.coil p := by
  rw [completeRead_fault]
  cases x.discard
  · simp only [Bool.false_eq_true, if_false, countFault, State.coil_onCoil, true_and]
    rfl
  · simp only [if_true, Bool.true_eq_false, false_and, if_false]
    rfl

theorem tagReadTimesOut_running {s : State} {r : Row} {x : TagRead} {n : Nat} (hx : (s.row r).tagRead = some x)
    (hn : s.child.tagTimers.get r = some n) :
    tagReadTimesOut r s = endWithBatch (evaluateEvidence s (completeRead r x .fault s)) := by
  unfold tagReadTimesOut
  rw [hx]
  dsimp only
  rw [if_pos (by rw [hn]; rfl)]

end Sys2Proof.Machine

namespace Sys2Proof.Certificates

open Sys2Proof.Machine

/-- Settles O27: the read completes with FAULT, and the evaluations and the batch that follow leave line and list. -/
theorem tagReadTimesOut : Obligations.TagReadTimesOut := by
  intro s r x n hx hn
  have hev : ChangesOnly [.monitor, .cls, .pub, .rem, .cadence, .body] (completeRead r x .fault s)
      (endWithBatch (evaluateEvidence s (completeRead r x .fault s))) :=
    (evaluateEvidence_changes _ _).widen.andThen (endWithBatch_changes _)
  have hm := (completeRead_fault_row r x s).andLeave hev.line
  obtain ⟨he, ht⟩ := completeRead_fault_child r x s
  have hcoil : ∀ p, (endWithBatch (evaluateEvidence s (completeRead r x .fault s))).coil p
      = (completeRead r x .fault s).coil p := fun p => by unfold State.coil; rw [hev.child]
  refine ⟨_, congrArg Host.Outcome.next (tagReadTimesOut_running hx hn), hm.row, fun q hq => hm.other hq, ?_, ?_,
    fun hd => ?_, fun hd => ?_, fun p hp => ?_, ((completeRead_changes r x .fault s).widen.andThen hev)⟩
  · rw [hev.child, ht, PerRow.get_modify_self]
  · rw [hev.child, he]
  · rw [hcoil, completeRead_fault_coil, if_pos ⟨hd, rfl⟩]
  · rw [hcoil, completeRead_fault_coil, if_neg (by simp [hd])]
  · rw [hcoil, completeRead_fault_coil, if_neg (fun h => hp h.2)]

end Sys2Proof.Certificates
end

section
/-! PROOFS. A row enters ONLINE: each fitted position of it is prepared and settles (R12, R31, R55, R59, R62, R63, R98). -/

namespace Sys2Proof.Machine

/-! ### An operation for each of several positions -/

/-- An operation that moves one position's value, by a rule that the state's steady part fixes, done for each of a list
without repetition. -/
theorem forEach_get {β : Type} (get : State → Pos → β) {f : Pos → State → State} {upd : Pos → β → β} {K : State → Prop}
    (keep : ∀ p s, K s → K (f p s))
    (one : ∀ p s q, K s → get (f p s) q = if q = p then upd q (get s q) else get s q) :
    ∀ (l : List Pos) (s : State), l.Nodup → K s → ∀ q,
      get (forEach l f s) q = if q ∈ l then upd q (get s q) else get s q := by
  intro l
  induction l with
  | nil => intro s _ _ q; rw [if_neg List.not_mem_nil]; rfl
  | cons p l ih =>
    intro s hn hk q
    obtain ⟨hp, hl⟩ := List.nodup_cons.mp hn
    show get (forEach l f (f p s)) q = _
    rw [ih (f p s) hl (keep p s hk) q, one p s q hk]
    by_cases hq : q = p
    · rw [if_pos hq, hq, if_neg hp, if_pos List.mem_cons_self]
    · rw [if_neg hq]
      simp [hq]

/-- The straps, the settings, the device state and HOLD are those of `s`. -/
def Steady (s t : State) : Prop :=
  t.straps = s.straps ∧ t.settings = s.settings ∧ t.monitor.device = s.monitor.device ∧ t.monitor.hold = s.monitor.hold

theorem Steady.refl (s : State) : Steady s s := ⟨rfl, rfl, rfl, rfl⟩

theorem Steady.trans {s t u : State} (h1 : Steady s t) (h2 : Steady t u) : Steady s u :=
  ⟨h2.1.trans h1.1, h2.2.1.trans h1.2.1, h2.2.2.1.trans h1.2.2.1, h2.2.2.2.trans h1.2.2.2⟩

theorem ChangesOnly.steady {bs : List Block} {s t : State} (h : ChangesOnly bs s t) (q : Quiet s t)
    (h1 : bs.contains Block.straps = false := by rfl) (h2 : bs.contains Block.settings = false := by rfl) : Steady s t :=
  ⟨h.straps h1, h.settings h2, q.device, q.hold⟩

section
variable {s t : State} (h : Steady s t)
include h
theorem Steady.posFitted (p : Pos) : posFitted t p = posFitted s p := posFitted_congr h.1 p
theorem Steady.coilFitted (p : Pos) : coilFitted t p = coilFitted s p := sensorFlag_congr h.1 (by rw [h.2.1]) 2
theorem Steady.anchorsFitted (p : Pos) : anchorsFitted t p = anchorsFitted s p := sensorFlag_congr h.1 (by rw [h.2.1]) 1
theorem Steady.awake : awake t = awake s := by unfold Machine.awake; rw [h.2.2.1]
theorem Steady.scanInterval : scanInterval t = scanInterval s := by unfold Machine.scanInterval; rw [h.2.1, h.2.2.1]
theorem Steady.fittedOf (r : Row) : fittedOf t r = fittedOf s r := by
  unfold Machine.fittedOf
  rw [show Machine.posFitted t = Machine.posFitted s from funext h.posFitted]
end

theorem mem_fittedOf {s : State} {r : Row} {p : Pos} : p ∈ fittedOf s r ↔ p.row = r ∧ posFitted s p = true := by
  unfold fittedOf
  rw [List.mem_filter, mem_rowPositions]

theorem fittedOf_nodup (s : State) (r : Row) : (fittedOf s r).Nodup := (rowPositions_nodup r).filter _

/-! ### A position is prepared (R12) -/

/-- The coil of a position whose row enters ONLINE (R62, R63, R67). -/
def Coil.enterOnline (c : Coil) (fitted : Bool) (interval : Nat) : Coil :=
  if fitted then { c with scan := some interval, due := none, urgent := true, faults := 0, unknown := false }
  else { c with faults := 0, unknown := false }

theorem raiseUrgent_coil (p : Pos) (s : State) (q : Pos) : (raiseUrgent p s).coil q
    = if q = p then { s.coil q with urgent := (s.coil q).urgent || coilFitted s q } else s.coil q := by
  unfold raiseUrgent
  split
  · rename_i h
    rw [State.coil_onCoil]
    split
    · rename_i hq
      rw [hq, h, Bool.or_true]
    · rfl
  · rename_i h
    split
    · rename_i hq
      rw [hq, eq_false_of_ne_true h, Bool.or_false]
    · rfl

theorem raiseUrgent_entries (p : Pos) (s : State) : (raiseUrgent p s).child.entries = s.child.entries
    ∧ (raiseUrgent p s).child.tagTimers = s.child.tagTimers := by
  unfold raiseUrgent
  split <;> exact ⟨rfl, rfl⟩

theorem childEnterOnline_coil (p : Pos) (s : State) (q : Pos) : (childEnterOnline p s).coil q
    = if q = p then (s.coil q).enterOnline (coilFitted s q) (scanInterval s) else s.coil q := by
  unfold childEnterOnline Coil.enterOnline
  dsimp only
  split
  · rename_i h
    have hc : coilFitted ((clearFaults p s).onCoil p
        (fun c => { c with scan := some (scanInterval s), due := none })) p = true := h
    rw [raiseUrgent_coil, State.coil_onCoil, clearFaults, State.coil_onCoil]
    split
    · rename_i hq
      subst hq
      rw [h]
      simp only [if_true]
      rw [clearFaults] at hc
      rw [hc, Bool.or_true]
    · rfl
  · rename_i h
    rw [clearFaults, State.coil_onCoil]
    split
    · rename_i hq
      rw [hq, if_neg h]
    · rfl

theorem childEnterOnline_entries (p : Pos) (s : State) : (childEnterOnline p s).child.entries = s.child.entries
    ∧ (childEnterOnline p s).child.tagTimers = s.child.tagTimers := by
  unfold childEnterOnline
  dsimp only
  split
  · exact raiseUrgent_entries p _
  · exact ⟨rfl, rfl⟩

theorem preparePosition_steady (p : Pos) (s : State) : Steady s (preparePosition p s) :=
  (preparePosition_changes p s).steady (preparePosition_quiet p s)

theorem preparePosition_load (p : Pos) (s : State) (q : Pos) : (preparePosition p s).load.get q
    = if q = p then (s.load.get q).enterOnline s.monitor.hold else s.load.get q := by
  have h : (preparePosition p s).load = s.load.modify p (fun l => l.enterOnline s.monitor.hold) :=
    ((childEnterOnline_changes p _).widen (bs := [.child, .rem, .body]) |>.andThen
      (afterSeatChange_changes false s p _)).load
  rw [h, PerPos.get_modify]

theorem preparePosition_cls (p : Pos) (s : State) (q : Pos) : (preparePosition p s).cls.get q
    = if q = p then (s.cls.get q).enterOnline else s.cls.get q := by
  have h : (preparePosition p s).cls = s.cls.modify p ClassState.enterOnline :=
    ((childEnterOnline_changes p _).widen (bs := [.child, .rem, .body]) |>.andThen
      (afterSeatChange_changes false s p _)).cls
  rw [h, PerPos.get_modify]

theorem preparePosition_child (p : Pos) (s : State) : (preparePosition p s).child
    = (childEnterOnline p ((s.onLoad p (fun l => l.enterOnline s.monitor.hold)).onCls p ClassState.enterOnline)).child :=
  (afterSeatChange_changes false s p _).child

theorem preparePosition_coil (p : Pos) (s : State) (q : Pos) : (preparePosition p s).coil q
    = if q = p then (s.coil q).enterOnline (coilFitted s q) (scanInterval s) else s.coil q := by
  unfold State.coil
  rw [preparePosition_child]
  exact childEnterOnline_coil p _ q

theorem preparePosition_entries (p : Pos) (s : State) : (preparePosition p s).child.entries = s.child.entries
    ∧ (preparePosition p s).child.tagTimers = s.child.tagTimers := by
  rw [preparePosition_child]
  exact childEnterOnline_entries p _

/-! ### The row's positions -/

/-- The positions of a row prepared for sampling. -/
def prepared (r : Row) (s : State) : State := forEach (fittedOf s r) preparePosition s

theorem prepared_load (r : Row) (s : State) (q : Pos) : (prepared r s).load.get q
    = if q ∈ fittedOf s r then (s.load.get q).enterOnline s.monitor.hold else s.load.get q :=
  forEach_get (fun t q => t.load.get q) (upd := fun _ l => l.enterOnline s.monitor.hold) (K := Steady s)
    (fun p _ hk => hk.trans (preparePosition_steady p _))
    (fun p t q hk => by rw [preparePosition_load, hk.2.2.2]) _ s (fittedOf_nodup s r) (Steady.refl s) q

theorem prepared_cls (r : Row) (s : State) (q : Pos) : (prepared r s).cls.get q
    = if q ∈ fittedOf s r then (s.cls.get q).enterOnline else s.cls.get q :=
  forEach_get (fun t q => t.cls.get q) (upd := fun _ c => c.enterOnline) (K := fun _ => True)
    (fun _ _ _ => trivial) (fun p t q _ => preparePosition_cls p t q) _ s (fittedOf_nodup s r) trivial q

theorem prepared_coil (r : Row) (s : State) (q : Pos) : (prepared r s).coil q
    = if q ∈ fittedOf s r then (s.coil q).enterOnline (coilFitted s q) (scanInterval s) else s.coil q :=
  forEach_get State.coil (upd := fun q c => c.enterOnline (coilFitted s q) (scanInterval s)) (K := Steady s)
    (fun p _ hk => hk.trans (preparePosition_steady p _))
    (fun p t q hk => by rw [preparePosition_coil, hk.coilFitted, hk.scanInterval]) _ s (fittedOf_nodup s r)
    (Steady.refl s) q

/-- Every state of a run of operations that leave the list and the tag read timers leaves them. -/
theorem forEach_entries {α : Type} {f : α → State → State}
    (h : ∀ a s, (f a s).child.entries = s.child.entries ∧ (f a s).child.tagTimers = s.child.tagTimers) :
    ∀ (l : List α) (s : State), (forEach l f s).child.entries = s.child.entries
      ∧ (forEach l f s).child.tagTimers = s.child.tagTimers
  | [], _ => ⟨rfl, rfl⟩
  | a :: l, s => by
    obtain ⟨h1, h2⟩ := forEach_entries h l (f a s)
    exact ⟨h1.trans (h a s).1, h2.trans (h a s).2⟩

theorem prepared_entries (r : Row) (s : State) : (prepared r s).child.entries = s.child.entries
    ∧ (prepared r s).child.tagTimers = s.child.tagTimers :=
  forEach_entries preparePosition_entries _ s

theorem prepared_changes (r : Row) (s : State) : ChangesOnly [.load, .child, .cls, .rem, .body] s (prepared r s) :=
  changesOnly_forEach preparePosition_changes _ s

theorem prepared_steady (r : Row) (s : State) : Steady s (prepared r s) :=
  (prepared_changes r s).steady (quiet_forEach preparePosition_quiet _ s)

/-- The state of a row that enters ONLINE with its notice made, before its positions are prepared. -/
def onlineNoticed (r : Row) (s : State) : State :=
  notify (rowNotice r .checking .online .checkPassed)
    (s.onRow r (fun x => { x with state := .online, score := 0, stability := some 10000 }))

theorem enterOnline_eq (r : Row) (s : State) :
    enterOnline r s = evaluateRow r s (prepared r (onlineNoticed r s)) := rfl

theorem onlineNoticed_steady (r : Row) (s : State) : Steady s (onlineNoticed r s) := ⟨rfl, rfl, rfl, rfl⟩

theorem fittedOf_onlineNoticed (r : Row) (s : State) : fittedOf (onlineNoticed r s) r = fittedOf s r := rfl

theorem enterOnline_load (r : Row) (s : State) (p : Pos) : (enterOnline r s).load.get p
    = if p ∈ fittedOf s r then (s.load.get p).enterOnline s.monitor.hold else s.load.get p := by
  rw [enterOnline_eq, (evaluateRow_changes r s _).load]
  exact prepared_load r (onlineNoticed r s) p

theorem enterOnline_coil (r : Row) (s : State) (p : Pos) : (enterOnline r s).coil p
    = if p ∈ fittedOf s r then (s.coil p).enterOnline (coilFitted s p) (scanInterval s) else s.coil p := by
  rw [enterOnline_eq]
  unfold State.coil
  rw [(evaluateRow_changes r s _).child]
  exact prepared_coil r (onlineNoticed r s) p

theorem enterOnline_entries (r : Row) (s : State) : (enterOnline r s).child.entries = s.child.entries
    ∧ (enterOnline r s).child.tagTimers = s.child.tagTimers := by
  rw [enterOnline_eq, (evaluateRow_changes r s _).child]
  exact prepared_entries r (onlineNoticed r s)

/-- Evidence reads the list and the position's own coil. -/
theorem evidence_congr {s t : State} {p : Pos} (he : t.child.entries = s.child.entries) (hc : t.coil p = s.coil p) :
    evidence t p = evidence s p := by
  unfold evidence standing
  rw [he, hc]

theorem not_mem_evidenceChanges {s t : State} {p : Pos} (h : evidence t p = evidence s p) : p ∉ evidenceChanges s t := by
  simp [evidenceChanges, h]

/-- The Classifier's state of a position after a row entered ONLINE: the row's fitted positions are prepared and, in RUN and
REST, settle; the others stand (R12, R94, R96). -/
theorem enterOnline_cls (r : Row) (s : State) (p : Pos) : (enterOnline r s).cls.get p
    = if p ∈ fittedOf s r then
        if awake s then { (s.cls.get p).enterOnline with
          previous := some (startRecord (enterOnline r s) p), settled := startRecord (enterOnline r s) p, dwell := 0 }
        else (s.cls.get p).enterOnline
      else s.cls.get p := by
  have hst : Steady s (prepared r (onlineNoticed r s)) := (onlineNoticed_steady r s).trans (prepared_steady r _)
  have hcls := prepared_cls r (onlineNoticed r s) p
  rw [fittedOf_onlineNoticed] at hcls
  by_cases hp : p ∈ fittedOf s r
  · obtain ⟨hrow, hfit⟩ := mem_fittedOf.mp hp
    rw [if_pos hp]
    rw [if_pos hp] at hcls
    by_cases ha : awake s = true
    · rw [if_pos ha]
      have hrec : tableRecord (prepared r (onlineNoticed r s)) p = startRecord (enterOnline r s) p := by
        rw [← candidate_eq_tableRecord, candidate_eq_startRecord ((hst.posFitted p).trans hfit)]
        · have hc := evaluateRow_changes r s (prepared r (onlineNoticed r s))
          rw [enterOnline_eq]
          refine (startRecord_congr hc.straps ?_ ?_ ?_).symm
          · rw [hc.settings]
          · rw [hc.settings]
          · unfold State.row; rw [hc.line]
        · refine .inr (.inr (.inr (.inr ⟨?_, ?_⟩)))
          · unfold State.row
            rw [(prepared_changes r _).line, hrow]
            exact congrArg RowRecord.state (rowMoved_onRow s r _).row
          · rw [hcls]
            rfl
      have hmem : p ∈ fittedOf (prepared r (onlineNoticed r s)) r
          ++ (evidenceChanges s (prepared r (onlineNoticed r s))).filter (fun q => q.row != r) := by
        rw [hst.fittedOf]
        exact List.mem_append_left _ hp
      rw [enterOnline_eq]
      unfold evaluateRow
      rw [evaluateEach_atOnce _ _ hmem ((hst.posFitted p).trans hfit) (hst.awake.trans ha)
        (hrec ▸ startRecord_settlesAtOnce _ _), hcls, hrec]
      rfl
    · rw [if_neg ha, enterOnline_eq]
      unfold evaluateRow
      rw [evaluateEach_asleep (hst.awake.trans (eq_false_of_ne_true ha)), hcls]
      rfl
  · rw [if_neg hp]
    rw [if_neg hp] at hcls
    have hco : (prepared r (onlineNoticed r s)).coil p = s.coil p := by
      rw [prepared_coil, fittedOf_onlineNoticed, if_neg hp]
      rfl
    have hev := evidence_congr (s := s) (prepared_entries r (onlineNoticed r s)).1 hco
    rw [enterOnline_eq]
    unfold evaluateRow
    rw [evaluateEach_other, hcls]
    · rfl
    · rw [hst.fittedOf, List.mem_append, not_or]
      exact ⟨hp, fun h => not_mem_evidenceChanges hev (List.mem_filter.mp h).1⟩

/-- A row enters ONLINE (R12, R31). -/
theorem enterOnline_entersOnline (r : Row) (s : State) : EntersOnline s (enterOnline r s) r := by
  have hrow := (enterOnline_row r s).row
  refine ⟨by rw [hrow], by rw [hrow], by rw [hrow], fun p hp hf => ?_⟩
  have hm : p ∈ fittedOf s r := mem_fittedOf.mpr ⟨hp, hf⟩
  rw [enterOnline_load, if_pos hm, enterOnline_coil, if_pos hm, enterOnline_cls, if_pos hm]
  refine ⟨rfl, ?_⟩
  cases awake s <;> exact ⟨rfl, rfl, rfl, rfl, rfl, rfl, rfl, rfl, rfl, rfl⟩

/-- What follows the entry leaves the blocks it speaks of. -/
theorem EntersOnline.andLeave {s t u : State} {r : Row} (h : EntersOnline s t r) (hline : t.line = u.line)
    (hload : t.load = u.load) (hcls : t.cls = u.cls) (hchild : t.child = u.child) (hstraps : t.straps = u.straps)
    (hset : t.settings = u.settings) : EntersOnline s u r := by
  unfold EntersOnline State.row State.coil at *
  rw [← hline, ← hload, ← hcls, ← hchild]
  obtain ⟨h1, h2, h3, h4⟩ := h
  refine ⟨h1, h2, h3, fun p hp hf => ?_⟩
  rw [show startRecord u p = startRecord t p from startRecord_congr hstraps.symm (by rw [hset]) (by rw [hset])
    (by unfold State.row; rw [hline])]
  exact h4 p hp hf

theorem EntersOnline.endWithBatch {s t : State} {r : Row} (h : EntersOnline s t r) :
    EntersOnline s (endWithBatch t) r := by
  have hc := endWithBatch_changes t
  exact h.andLeave hc.line.symm hc.load.symm hc.cls.symm hc.child.symm hc.straps.symm hc.settings.symm

/-- What precedes the entry left all that it reads. -/
theorem EntersOnline.ofSource {s u t : State} {r : Row} (h : EntersOnline u t r) (hc : ChangesOnly [.line] s u) :
    EntersOnline s t r := by
  have hs : Steady s u := ⟨hc.straps, hc.settings, by rw [hc.monitor], by rw [hc.monitor]⟩
  obtain ⟨h1, h2, h3, h4⟩ := h
  refine ⟨h1, h2, h3, fun p hp hf => ?_⟩
  have h5 := h4 p hp ((hs.posFitted p).trans hf)
  unfold State.coil at *
  rwa [hc.load, hc.cls, hc.child, hc.monitor, hs.awake, hs.coilFitted, hs.scanInterval] at h5

/-- The row's notice enters a queue with room and stays (R36). -/
theorem enterOnline_waits {r : Row} {s : State} (hl : s.body.queue.length < 24)
    (hk : kindClass s.settings.active 7 = 1) :
    ∃ e ∈ (enterOnline r s).body.queue, e.urgent = true ∧ e.notice = ⟨.rowChange, .row r, 2, 3, 3, none⟩ := by
  have h := notify_waits (n := rowNotice r .checking .online .checkPassed)
    (s := s.onRow r (fun x => { x with state := .online, score := 0, stability := some 10000 }))
    (noticeUrgent_of_kindClass hk) hl
  rw [enterOnline_eq]
  exact ((quiet_forEach preparePosition_quiet _ (onlineNoticed r s)).andThen
    (evaluateRow_changes r s _).quiet).waits h

end Sys2Proof.Machine
end

section
/-! PROOFS. The outcomes of READ_ID in PROBING (R12, R27, R31, R33). -/

namespace Sys2Proof.Machine

/-- The record of a row that an answer to READ_ID takes to CHECKING (R27). -/
def RowRecord.identified (id : Identity) (x : RowRecord) : RowRecord :=
  { x with state := .checking, identity := some id, idFailures := 0, walk := ⟨0, .read, 0⟩ }

theorem enterChecking_nonempty {s : State} (h : 0 < checkCount s.settings.active) (r : Row) (id : Identity) :
    enterChecking r id s = evaluateRow r s (s.onRow r (RowRecord.identified id)) :=
  if_neg (Nat.ne_of_gt h)

theorem enterChecking_empty {s : State} (h : checkCount s.settings.active = 0) (r : Row) (id : Identity) :
    enterChecking r id s = enterOnline r (s.onRow r (RowRecord.identified id)) := if_pos h

theorem enterChecking_row {s : State} (h : 0 < checkCount s.settings.active) (r : Row) (id : Identity) :
    RowMoved r (RowRecord.identified id) s (enterChecking r id s) := by
  rw [enterChecking_nonempty h]
  exact (rowMoved_onRow s r _).andLeave (evaluateRow_changes r _ _).line

/-- A failed READ_ID counted, to 16 at most (R27). -/
def RowRecord.countId (x : RowRecord) : RowRecord := { x with idFailures := min 16 (x.idFailures + 1) }

/-- A failed READ_ID is counted; the 16th in a row ends the probing (R27). -/
theorem probeFails_below {r : Row} {s : State} (h : (s.row r).idFailures + 1 < 16) :
    probeFails r s = s.onRow r RowRecord.countId := by
  unfold probeFails
  exact if_neg (by rw [State.row_onRow_self]; show ¬ 16 ≤ min 16 ((s.row r).idFailures + 1); omega)

theorem probeFails_exhausted {r : Row} {s : State} (h : 16 ≤ (s.row r).idFailures + 1) : probeFails r s
    = enterRecovering r .probeExhausted (s.onRow r RowRecord.countId) := by
  unfold probeFails
  exact if_pos (by rw [State.row_onRow_self]; show 16 ≤ min 16 ((s.row r).idFailures + 1); omega)

theorem exchangeGood_readId {s : State} {x : Exchange} (hk : x.kind = .readId) (hr : (s.row x.row).state = .probing)
    (b : List Byte) : exchangeGood x b s = enterChecking x.row (parseIdentity b) s := by
  unfold exchangeGood
  rw [hk, hr]

theorem exchangeFails_readId {s : State} {x : Exchange} (hk : x.kind = .readId) (hr : (s.row x.row).state = .probing) :
    exchangeFails x s = probeFails x.row s := by
  unfold exchangeFails
  rw [hk, hr]

/-- What an event that ends an exchange changes, from what its operation changes. -/
theorem ChangesOnly.afterExchange {bs cs : List Block} {s t : State} (h : ChangesOnly bs (endExchange s) t)
    (hl : blocksIn [.line] cs = true := by rfl) (hb : blocksIn bs cs = true := by rfl)
    (he : blocksIn [.monitor, .pub, .rem, .cadence, .body] cs = true := by rfl) : ChangesOnly cs s (endWithBatch t) :=
  (((endExchange_changes s).widen hl).andThen h hb).andThen (endWithBatch_changes t) he

/-- A row enters ONLINE at the end of an exchange, after its record was moved by `f`. -/
theorem enterOnline_afterExchange (r : Row) (f : RowRecord → RowRecord) (s : State) :
    EntersOnline s (endWithBatch (enterOnline r ((endExchange s).onRow r f))) r
      ∧ RowMoved r (fun x => { f x with state := .online, score := 0, stability := some 10000 }) (endExchange s)
        (enterOnline r ((endExchange s).onRow r f)) :=
  ⟨((enterOnline_entersOnline r _).ofSource ((endExchange_changes s).andThen (changes_onRow _ r f))).endWithBatch,
    (rowMoved_onRow _ r f).andThen (enterOnline_row r _)⟩

theorem enterOnline_afterExchange_waits (r : Row) (f : RowRecord → RowRecord) {s : State} (hl : s.body.queue.length < 24)
    (hk : kindClass s.settings.active 7 = 1) :
    Waits (endWithBatch (enterOnline r ((endExchange s).onRow r f))).body ⟨.rowChange, .row r, 2, 3, 3, none⟩ :=
  waits_of_urgent ((endWithBatch_quiet _).waits
    (enterOnline_waits (r := r) (s := (endExchange s).onRow r f) hl hk))

/-- A row that is not ONLINE falls at the end of an exchange, after its record was counted by `f`: its record below the
limit of the recovery count and at it, and what else changes (R33, R35). -/
theorem enterRecovering_afterExchange (r : Row) (c : RowCause) {f : RowRecord → RowRecord} {s : State}
    (hs : (s.row r).state ≠ .online) (hf : (f (s.row r)).state = (s.row r).state)
    (hr : (f (s.row r)).recovery = (s.row r).recovery) {t : State}
    (ht : t = endWithBatch (enterRecovering r c ((endExchange s).onRow r f))) :
    t.line.exchange = none
      ∧ ((s.row r).recovery + 1 < 3 → t.row r
          = { (f (s.row r)).recover c with recovery := (s.row r).recovery + 1, tagRead := none })
      ∧ (3 ≤ (s.row r).recovery + 1 → t.row r
          = { (f (s.row r)).fail .recoveryExhausted with recovery := 3, tagRead := none })
      ∧ (∀ q, q ≠ r → t.row q = s.row q)
      ∧ ChangesOnly [.monitor, .line, .child, .cls, .pub, .rem, .cadence, .body] s t := by
  subst ht
  have hm : RowMoved r f (endExchange s) ((endExchange s).onRow r f) := rowMoved_onRow _ r f
  have hst : (((endExchange s).onRow r f).row r).state ≠ .online := by
    rw [hm.row]
    exact fun h => hs (hf.symm.trans h)
  have hrec : (((endExchange s).onRow r f).row r).recovery = (s.row r).recovery := by
    rw [hm.row]
    exact hr
  have hc := (((changes_onRow (endExchange s) r f).widen (bs := offlineBlocks)).andThen
    (enterRecovering_changes_offline c hst)).afterExchange
    (cs := [.monitor, .line, .child, .cls, .pub, .rem, .cadence, .body])
  by_cases hlim : (s.row r).recovery + 1 < 3
  · obtain ⟨h1, h2, h3⟩ := (hm.andThen (enterRecovering_row_below c (hrec ▸ hlim))).afterExchange
    refine ⟨h1, fun _ => h2.trans ?_, fun h => absurd h (Nat.not_le.mpr hlim), h3, hc⟩
    show ({ (f (s.row r)).recover c with recovery := (f (s.row r)).recovery + 1, tagRead := none } : RowRecord) = _
    rw [hr]
  · obtain ⟨h1, h2, h3⟩ := (hm.andThen (enterRecovering_row_atLimit c (hrec ▸ Nat.le_of_not_lt hlim))).afterExchange
    exact ⟨h1, fun h => absurd h hlim, fun _ => h2, h3, hc⟩

end Sys2Proof.Machine

namespace Sys2Proof.Certificates

open Sys2Proof.Machine

/-- Settles O19: the branches of `enterChecking` on a GOOD answer, and those of `probeFails` and `enterRecovering` on a
failure. -/
theorem readIdOutcomes : Obligations.ReadIdOutcomes := by
  intro s x hx hk hr
  have hr' : ((endExchange s).row x.row).state = .probing := hr
  have good : ∀ b, judgeAnswer s x b = .good → exec (.readIdAnswer b) s
      = .next (endWithBatch (enterChecking x.row (parseIdentity b) (endExchange s))) := fun b hb => by
    rw [← exchangeGood_readId hk hr', ← answerCompletes_good hx hb]
    rfl
  have fails : ∀ c, FailsExchange s x c → exec c s = .next (endWithBatch (probeFails x.row (endExchange s))) :=
    fun c hc => by rw [exec_failsExchange hx hc, exchangeFails_readId hk hr']
  refine ⟨fun b hb hn => ?_, fun b hb hn => ?_, fun c hc hn => ?_, fun c hc hn => ?_⟩
  · obtain ⟨h1, h2, h3⟩ := (enterChecking_row (s := endExchange s) hn x.row (parseIdentity b)).afterExchange
    refine ⟨_, good b hb, h1, h2, h3, ?_⟩
    rw [enterChecking_nonempty (s := endExchange s) hn]
    exact (((changes_onRow _ x.row _).widen (bs := [.line, .cls])).andThen (evaluateRow_changes x.row _ _)).afterExchange
  · obtain ⟨ho, hm⟩ := enterOnline_afterExchange x.row (RowRecord.identified (parseIdentity b)) s
    obtain ⟨h1, h2, h3⟩ := hm.afterExchange
    refine ⟨_, (good b hb).trans (by rw [enterChecking_empty (s := endExchange s) hn]), h1, ho, by rw [h2]; rfl,
      by rw [h2]; rfl, fun hl hc => enterOnline_afterExchange_waits x.row _ hl hc, h3, ?_⟩
    exact (((changes_onRow _ x.row _).widen (bs := [.line, .load, .child, .cls, .rem, .body])).andThen
      (enterOnline_changes x.row _)).afterExchange
  · rw [fails c hc, probeFails_below (s := endExchange s) hn]
    obtain ⟨h1, h2, h3⟩ := (rowMoved_onRow (endExchange s) x.row
      RowRecord.countId).afterExchange
    refine ⟨_, rfl, h1, h2.trans ?_, h3, (changes_onRow _ x.row _).afterExchange⟩
    rw [RowRecord.countId, Nat.min_eq_right (Nat.le_of_lt hn)]
  · rw [fails c hc, probeFails_exhausted (s := endExchange s) hn]
    obtain ⟨h1, hlow, hlim, h3, h4⟩ := enterRecovering_afterExchange x.row .probeExhausted (f := RowRecord.countId)
      (by rw [hr]; nofun) rfl rfl rfl
    refine ⟨_, rfl, h1, ?_, fun h => ?_, fun h => ?_, h3, h4⟩
    · obtain h | h := Nat.lt_or_ge ((s.row x.row).recovery + 1) 3
      · rw [hlow h]; rfl
      · rw [hlim h]; rfl
    · rw [hlow h]
      exact ⟨rfl, rfl, rfl, rfl, rfl⟩
    · rw [hlim h]
      exact ⟨rfl, rfl, rfl⟩

end Sys2Proof.Certificates
end

section
/-! PROOFS. The check walk (R20, R28 to R31, R33, R35). -/

namespace Sys2Proof.Machine

/-! ### A failed attempt (R30) -/

/-- The record whose walk counts `n` failed attempts, 3 at most (R30). -/
def RowRecord.attempted (n : Nat) (x : RowRecord) : RowRecord := { x with walk := { x.walk with attempts := min 3 n } }

theorem attemptFails_restarts {r : Row} {s : State} (h : (s.row r).walk.attempts + 1 < 3) : attemptFails r s
    = (s.onRow r (RowRecord.attempted ((s.row r).walk.attempts + 1))).onRow r
      (fun x => { x with walk := ⟨0, .read, x.walk.attempts⟩ }) := if_neg (Nat.not_le.mpr h)

theorem attemptFails_below {r : Row} {s : State} (h : (s.row r).walk.attempts + 1 < 3) :
    RowMoved r (fun x => { x with walk := ⟨0, .read, (s.row r).walk.attempts + 1⟩ }) s (attemptFails r s) := by
  rw [attemptFails_restarts h]
  refine ((rowMoved_onRow s r (RowRecord.attempted ((s.row r).walk.attempts + 1))).andThen
    (rowMoved_onRow _ r _)).congr ?_
  show ({ s.row r with walk := ⟨0, .read, min 3 ((s.row r).walk.attempts + 1)⟩ } : RowRecord) = _
  rw [Nat.min_eq_right (Nat.le_of_lt h)]

theorem attemptFails_exhausted {r : Row} {s : State} (h : 3 ≤ (s.row r).walk.attempts + 1) :
    attemptFails r s = enterRecovering r .checkExhausted (s.onRow r (RowRecord.attempted ((s.row r).walk.attempts + 1))) := if_pos h

/-- A failed attempt at the end of an exchange with a CHECKING row: the walk restarts, or the row falls (R30, R33, R35). -/
structure AttemptEnds (s : State) (r : Row) (t : State) : Prop where
  exchange : t.line.exchange = none
  restart : (s.row r).walk.attempts + 1 < 3 →
    t.row r = { s.row r with walk := ⟨0, .read, (s.row r).walk.attempts + 1⟩ }
  recover : 3 ≤ (s.row r).walk.attempts + 1 → (s.row r).recovery + 1 < 3 → t.row r
    = { ((s.row r).attempted ((s.row r).walk.attempts + 1)).recover .checkExhausted with recovery := (s.row r).recovery + 1, tagRead := none }
  fail : 3 ≤ (s.row r).walk.attempts + 1 → 3 ≤ (s.row r).recovery + 1 → t.row r
    = { ((s.row r).attempted ((s.row r).walk.attempts + 1)).fail .recoveryExhausted with recovery := 3, tagRead := none }
  others : ∀ q, q ≠ r → t.row q = s.row q
  changes : ChangesOnly [.monitor, .line, .child, .cls, .pub, .rem, .cadence, .body] s t

theorem attemptFails_ends {r : Row} {s : State} (hr : (s.row r).state = .checking) :
    AttemptEnds s r (endWithBatch (attemptFails r (endExchange s))) := by
  by_cases h : (s.row r).walk.attempts + 1 < 3
  · have hm := attemptFails_below (r := r) (s := endExchange s) h
    obtain ⟨h1, h2, h3⟩ := hm.afterExchange
    refine ⟨h1, fun _ => h2, fun h' => absurd h (Nat.not_lt.mpr h'), fun h' => absurd h (Nat.not_lt.mpr h'), h3, ?_⟩
    rw [attemptFails_restarts (s := endExchange s) h]
    exact ((changes_onRow (endExchange s) r _).andThen (changes_onRow _ r _)).afterExchange
  · have h' : 3 ≤ (s.row r).walk.attempts + 1 := Nat.le_of_not_lt h
    rw [attemptFails_exhausted (s := endExchange s) h']
    obtain ⟨h1, hlow, hlim, h3, h4⟩ := enterRecovering_afterExchange r .checkExhausted (f := RowRecord.attempted ((s.row r).walk.attempts + 1))
      (by rw [hr]; nofun) rfl rfl rfl
    exact ⟨h1, fun hn => absurd hn h, fun _ => hlow, fun _ => hlim, h3, h4⟩

/-! ### The outcomes of an exchange of the walk -/

theorem exchangeGood_walk {s : State} {x : Exchange} (hk : x.kind = .readReg ∨ x.kind = .writeReg)
    (hr : (s.row x.row).state = .checking) (b : List Byte) :
    exchangeGood x b s = if x.detached then s else walkStep x.row (parseRegister b) s := by
  unfold exchangeGood
  obtain hk | hk := hk <;> rw [hk, hr]

theorem exchangeFails_walk {s : State} {x : Exchange} (hk : x.kind = .readReg ∨ x.kind = .writeReg)
    (hr : (s.row x.row).state = .checking) : exchangeFails x s = if x.detached then s else attemptFails x.row s := by
  unfold exchangeFails
  obtain hk | hk := hk <;> rw [hk, hr]

/-- An exchange that a replaced table detached ends with nothing of the rows moved (R31). -/
theorem detached_ends (s : State) : (endWithBatch (endExchange s)).line = { s.line with exchange := none }
    ∧ ChangesOnly [.monitor, .line, .pub, .rem, .cadence, .body] s (endWithBatch (endExchange s)) :=
  ⟨endWithBatch_line _, (ChangesOnly.refl [.line] _).afterExchange⟩

/-- The walk alone moves at the end of an exchange. -/
theorem walkTo_ends (s : State) (r : Row) (w : Walk) :
    (endWithBatch ((endExchange s).onRow r (fun x => { x with walk := w }))).line.exchange = none
      ∧ (endWithBatch ((endExchange s).onRow r (fun x => { x with walk := w }))).row r = { s.row r with walk := w }
      ∧ (∀ q, q ≠ r → (endWithBatch ((endExchange s).onRow r (fun x => { x with walk := w }))).row q = s.row q)
      ∧ ChangesOnly [.monitor, .line, .pub, .rem, .cadence, .body] s
        (endWithBatch ((endExchange s).onRow r (fun x => { x with walk := w }))) := by
  obtain ⟨h1, h2, h3⟩ := (rowMoved_onRow (endExchange s) r (fun x => { x with walk := w })).afterExchange
  exact ⟨h1, h2, h3, (changes_onRow _ r _).afterExchange⟩

/-! ### The branches of a GOOD answer (R29) -/

theorem checkPasses_iff {g : Groups} {e : Nat} {v : Word16} :
    checkPasses g e v = true ↔ v &&& checkMask g e = checkExpected g e := by
  unfold checkPasses
  exact beq_iff_eq

theorem walkStep_passes {r : Row} {v : Word16} {s : State} (hp : (s.row r).walk.phase ≠ .write)
    (h : checkPasses s.settings.active (s.row r).walk.entry v = true) : walkStep r v s = entryPasses r s := by
  unfold walkStep
  dsimp only
  split
  · exact if_pos h
  · rename_i hw
    exact absurd hw hp
  · exact if_pos h

theorem walkStep_writes {r : Row} {v : Word16} {s : State} (hp : (s.row r).walk.phase = .read)
    (h : checkPasses s.settings.active (s.row r).walk.entry v = false)
    (hw : checkHasWrite s.settings.active (s.row r).walk.entry = true) :
    walkStep r v s = s.onRow r (fun x => { x with walk := ⟨(s.row r).walk.entry, .write, (s.row r).walk.attempts⟩ }) := by
  unfold walkStep
  dsimp only
  rw [hp, h, hw]
  rfl

theorem walkStep_rereads {r : Row} {v : Word16} {s : State} (hp : (s.row r).walk.phase = .write) :
    walkStep r v s = s.onRow r (fun x => { x with walk := ⟨(s.row r).walk.entry, .reread, (s.row r).walk.attempts⟩ }) := by
  unfold walkStep
  dsimp only
  rw [hp]

theorem walkStep_fails {r : Row} {v : Word16} {s : State} (hp : (s.row r).walk.phase ≠ .write)
    (h : checkPasses s.settings.active (s.row r).walk.entry v = false)
    (hw : (s.row r).walk.phase = .reread ∨ checkHasWrite s.settings.active (s.row r).walk.entry = false) :
    walkStep r v s = attemptFails r s := by
  unfold walkStep
  dsimp only
  rw [h]
  split
  · rename_i hr
    rw [hw.resolve_left (by rw [hr]; nofun)]
    rfl
  · rename_i hw
    exact absurd hw hp
  · rfl

/-- A row's coils elsewhere stand when it enters ONLINE. -/
theorem enterOnline_elsewhere {r : Row} (s : State) {p : Pos} (hp : p.row ≠ r) :
    (endWithBatch (enterOnline r s)).load.get p = s.load.get p ∧ (endWithBatch (enterOnline r s)).coil p = s.coil p := by
  have hm : p ∉ fittedOf s r := fun h => hp (mem_fittedOf.mp h).1
  have hc := endWithBatch_changes (enterOnline r s)
  have hl := enterOnline_load r s p
  have hk := enterOnline_coil r s p
  rw [if_neg hm] at hl hk
  unfold State.coil at *
  rw [hc.load, hc.child]
  exact ⟨hl, hk⟩

/-- The last entry passes at the end of an exchange: the row enters ONLINE (R31). -/
theorem entryPasses_last {s : State} {r : Row} (h : checkCount s.settings.active ≤ (s.row r).walk.entry + 1) :
    entryPasses r (endExchange s) = enterOnline r ((endExchange s).onRow r id) := by
  have e : (endExchange s).onRow r id = endExchange s := by
    unfold State.onRow
    rw [PerRow.modify_eq_self rfl]
  rw [e]
  exact if_neg (Nat.not_lt.mpr h)

end Sys2Proof.Machine

namespace Sys2Proof.Certificates

open Sys2Proof.Machine

/-- Settles O20: the branches of `walkStep` on a GOOD answer, and of `attemptFails` on a failed attempt. -/
theorem checkWalkMoves : Obligations.CheckWalkMoves := by
  intro s x hx hr g w passes walkTo attempt
  have hr' : ((endExchange s).row x.row).state = .checking := hr
  have attemptOf : AttemptEnds s x.row (endWithBatch (attemptFails x.row (endExchange s))) := attemptFails_ends hr
  have attemptHolds : attempt (endWithBatch (attemptFails x.row (endExchange s))) := by
    refine ⟨fun h => ⟨attemptOf.exchange, attemptOf.restart h, attemptOf.others⟩, fun h h' => ?_, fun h h' => ?_,
      attemptOf.others⟩
    · rw [attemptOf.recover h h']
      exact ⟨rfl, rfl, rfl, rfl⟩
    · rw [attemptOf.fail h h']
      exact ⟨rfl, rfl, Nat.min_eq_left h⟩
  have good : ∀ b, judgeAnswer s x b = .good → (x.kind = .readReg ∨ x.kind = .writeReg) → answerCompletes b s
      = endWithBatch (if x.detached then endExchange s else walkStep x.row (parseRegister b) (endExchange s)) :=
    fun b hb hk => by rw [answerCompletes_good hx hb, exchangeGood_walk hk hr']
  refine ⟨fun b hd hb => ⟨fun hk hp => ?_, fun hk hp => ?_⟩, fun b hd hb hk => ?_, fun c hk hc => ?_⟩
  · have ht := good b hb (.inl hk)
    rw [if_neg (by simp [hd])] at ht
    refine ⟨_, congrArg Host.Outcome.next ht, ?_⟩
    by_cases hpass : passes b
    · have hstep : walkStep x.row (parseRegister b) (endExchange s) = entryPasses x.row (endExchange s) :=
        walkStep_passes hp (checkPasses_iff.mpr hpass)
      rw [hstep]
      by_cases hn : w.entry + 1 < checkCount g
      · have e : entryPasses x.row (endExchange s) = (endExchange s).onRow x.row
            (fun y => { y with walk := ⟨w.entry + 1, .read, w.attempts⟩ }) := if_pos hn
        rw [e]
        obtain ⟨h1, h2, h3, h4⟩ := walkTo_ends s x.row ⟨w.entry + 1, .read, w.attempts⟩
        exact ⟨fun _ _ => ⟨h1, h2, h3⟩, fun _ h => absurd hn (Nat.not_lt.mpr h), fun h => absurd hpass h,
          fun h => absurd hpass h, h3, h4.widen⟩
      · rw [entryPasses_last (Nat.le_of_not_lt hn)]
        obtain ⟨ho, hm⟩ := enterOnline_afterExchange x.row id s
        obtain ⟨h1, h2, h3⟩ := hm.afterExchange
        refine ⟨fun _ h => absurd h hn, fun _ _ => ⟨ho, ?_, fun p hp => enterOnline_elsewhere _ hp,
          fun hl hc => enterOnline_afterExchange_waits x.row id hl hc⟩, fun h => absurd hpass h,
          fun h => absurd hpass h, h3, ?_⟩
        · rw [(endWithBatch_changes _).child]
          exact (enterOnline_entries x.row _).1
        · exact (((changes_onRow _ x.row _).widen (bs := [.line, .load, .child, .cls, .rem, .body])).andThen
            (enterOnline_changes x.row _)).afterExchange
    · have hfail : checkPasses g w.entry (parseRegister b) = false :=
        eq_false_of_ne_true (fun h => hpass (checkPasses_iff.mp h))
      by_cases hw : w.phase = .reread ∨ checkHasWrite g w.entry = false
      · have hstep : walkStep x.row (parseRegister b) (endExchange s) = attemptFails x.row (endExchange s) :=
          walkStep_fails hp hfail hw
        rw [hstep]
        refine ⟨fun h => absurd h hpass, fun h => absurd h hpass, fun _ hrd hwr => ?_, fun _ _ => attemptHolds,
          attemptOf.others, attemptOf.changes.widen⟩
        obtain h | h := hw
        · exact absurd (hrd.symm.trans h) nofun
        · exact absurd (hwr.symm.trans h) nofun
      · obtain ⟨hnr, hnw⟩ := not_or.mp hw
        have hread : w.phase = .read := by
          cases hph : w.phase
          · rfl
          · exact absurd hph hp
          · exact absurd hph hnr
        have hstep : walkStep x.row (parseRegister b) (endExchange s) = (endExchange s).onRow x.row
            (fun y => { y with walk := ⟨w.entry, .write, w.attempts⟩ }) :=
          walkStep_writes hread hfail (eq_true_of_ne_false hnw)
        rw [hstep]
        obtain ⟨h1, h2, h3, h4⟩ := walkTo_ends s x.row ⟨w.entry, .write, w.attempts⟩
        exact ⟨fun h => absurd h hpass, fun h => absurd h hpass, fun _ _ _ => ⟨h1, h2, h3⟩,
          fun _ h => absurd h hw, h3, h4.widen⟩
  · have ht := good b hb (.inr hk)
    have hstep : walkStep x.row (parseRegister b) (endExchange s) = (endExchange s).onRow x.row
        (fun y => { y with walk := ⟨w.entry, .reread, w.attempts⟩ }) := walkStep_rereads hp
    rw [if_neg (by simp [hd]), hstep] at ht
    obtain ⟨h1, h2, h3, h4⟩ := walkTo_ends s x.row ⟨w.entry, .reread, w.attempts⟩
    exact ⟨_, congrArg Host.Outcome.next ht, ⟨h1, h2, h3⟩, h4⟩
  · have ht := good b hb hk
    rw [if_pos hd] at ht
    obtain ⟨h1, h2⟩ := detached_ends s
    refine ⟨_, ?_, h1, h2⟩
    rw [← ht]
    split <;> rfl
  · rw [exec_failsExchange hx hc, exchangeFails_walk hk hr']
    cases hd : x.detached
    · exact ⟨_, rfl, fun _ => attemptHolds, nofun, attemptOf.changes⟩
    · obtain ⟨h1, h2⟩ := detached_ends s
      exact ⟨_, rfl, nofun, fun _ => h1, h2.widen⟩

end Sys2Proof.Certificates
end

section
/-! PROOFS. A row arrives (R11, R26, R36). -/

namespace Sys2Proof.Machine

/-- A fitted position of a row that is evaluated outside ONLINE and FAILED settles at once (R90, R94, R96). -/
theorem evaluateRow_start {r : Row} {b s : State} {p : Pos} (hp : p.row = r) (hf : posFitted s p = true)
    (ha : awake s = true) (hr : (s.row r).state = .absent ∨ (s.row r).state = .probing ∨ (s.row r).state = .checking
      ∨ (s.row r).state = .recovering) :
    ((evaluateRow r b s).cls.get p).settled = startRecord s p := by
  have hrec : tableRecord s p = startRecord s p := by
    rw [← candidate_eq_tableRecord, candidate_eq_startRecord hf]
    rw [hp]
    tauto
  unfold evaluateRow
  rw [evaluateEach_atOnce _ _ (List.mem_append_left _ (mem_fittedOf.mpr ⟨hp, hf⟩)) hf ha
    (hrec ▸ startRecord_settlesAtOnce _ _), hrec]

/-- What follows an evaluation leaves the record that R90 gives at the start. -/
theorem ChangesOnly.startRecord {bs : List Block} {s t : State} (h : ChangesOnly bs s t) (p : Pos)
    (h1 : bs.contains Block.straps = false := by rfl) (h2 : bs.contains Block.settings = false := by rfl)
    (h3 : bs.contains Block.line = false := by rfl) : startRecord t p = startRecord s p := by
  have hs := h.settings h2
  refine startRecord_congr (h.straps h1) (by rw [hs]) (by rw [hs]) ?_
  unfold State.row
  rw [h.line h3]

/-- The record of a row that arrives (R11). -/
def RowRecord.arrive (x : RowRecord) : RowRecord :=
  { x with state := .probing, rpwr := true, mating := none, settle := .running 50, powerOff := none }

/-- The state of a row that arrives with its record moved and its notice made. -/
def arrivalNoticed (r : Row) (s : State) : State :=
  notify (rowNotice r .absent .probing .senseMated) (s.onRow r RowRecord.arrive)

theorem rowArrives_eq {s : State} {r : Row} {n : Nat} (hw : Watched s r) (ha : (s.row r).state = .absent)
    (hn : (s.row r).mating = some n) : rowArrives r s = endWithBatch (forEach (fittedOf s r) (evaluateLists false)
      (publish (evaluateRow r s (arrivalNoticed r s)))) := by
  unfold rowArrives
  rw [if_pos (by simp [senseWatched_of_watched hw, ha, hn])]
  rfl

end Sys2Proof.Machine

namespace Sys2Proof.Certificates

open Sys2Proof.Machine

/-- Settles O22: the record is moved and noticed first, the row's positions settle at once, and the batch, the lists and the
event's end leave what was settled. -/
theorem rowArrives : Obligations.RowArrives := by
  intro s r n hw habs hn
  have hm : RowMoved r RowRecord.arrive s (arrivalNoticed r s) := rowMoved_onRow s r _
  have hlists : ChangesOnly [.rem, .body] (publish (evaluateRow r s (arrivalNoticed r s)))
      (forEach (fittedOf s r) (evaluateLists false) (publish (evaluateRow r s (arrivalNoticed r s)))) :=
    changesOnly_forEach (fun p t => evaluateLists_changes false p t) _ _
  have hpub := (publish_changes (evaluateRow r s (arrivalNoticed r s))).widen
    (bs := [.monitor, .pub, .rem, .cadence, .body])
  have hend := (hpub.andThen hlists).andThen (endWithBatch_changes _)
  have hafter := ((evaluateRow_changes r s (arrivalNoticed r s)).widen
    (bs := [.cls, .monitor, .pub, .rem, .cadence, .body])).andThen hend
  have hline := hm.andLeave hafter.line
  have hsettled : ∀ p, p.row = r → posFitted s p = true →
      ((evaluateRow r s (arrivalNoticed r s)).cls.get p).settled = startRecord (arrivalNoticed r s) p :=
    fun p hp hf => evaluateRow_start hp hf hw.2.2.2 (.inr (.inl (by rw [hm.row]; rfl)))
  have hlock : (forEach (fittedOf s r) (evaluateLists false)
      (publish (evaluateRow r s (arrivalNoticed r s)))).pub.locked = s.pub.locked := by
    rw [hlists.pub, publish_locked, (evaluateRow_changes r s _).pub]
    rfl
  refine ⟨_, congrArg Host.Outcome.next (rowArrives_eq hw habs hn), hline.row, fun q hq => hline.other hq,
    hline.exchange, fun p hp hf => ?_, fun hl hk => ?_, ?_⟩
  · rw [hafter.startRecord, hend.cls]
    refine ⟨hsettled p hp hf, fun hu => ?_, fun hu => ?_⟩
    · rw [endWithBatch_table (hlock.trans hu), (hpub.andThen hlists).cls]
      exact hsettled p hp hf
    · rw [endWithBatch_table_locked (hlock.trans hu), hlists.pub, publish_table_locked, (evaluateRow_changes r s _).pub]
      · rfl
      · rw [(evaluateRow_changes r s _).pub]
        exact hu
  · have hwait := notify_waits (n := rowNotice r .absent .probing .senseMated) (s := s.onRow r RowRecord.arrive)
      (noticeUrgent_of_kindClass hk) hl
    exact ((((evaluateRow_changes r s (arrivalNoticed r s)).quiet.andThen (publish_quiet _)).andThen
      (quiet_forEach (fun p t => evaluateLists_quiet false p t) _ _)).andThen (endWithBatch_quiet _)).waits hwait
  · exact (((changes_onRow s r _).widen (bs := [.monitor, .line, .cls, .pub, .rem, .cadence, .body])).andThen
      (notify_changes _ _)).andThen hafter

end Sys2Proof.Certificates
end

section
/-! PROOFS. Reset (R4, R10, R102, R168, R174). -/

namespace Sys2Proof.Machine

/-- The fitted rows by R4's table over the variant code. -/
theorem fittedRows_eq (s : State) : fittedRows s
    = if s.straps.var.toNat < 2 then 3 else if s.straps.var.toNat < 4 then 4 else 5 := by
  unfold fittedRows variantFault
  generalize s.straps.var = v
  revert v
  decide

/-- The front center seat is absent in the valid codes with VAR0 high (R4). -/
theorem centerAbsent_eq (s : State) :
    centerAbsent s = (decide (s.straps.var.toNat % 2 = 1) && decide (s.straps.var.toNat < 6)) := by
  unfold centerAbsent variantFault
  generalize s.straps.var = v
  revert v
  decide

theorem posFitted_eq_fittedByCode (s : State) (p : Pos) : posFitted s p = fittedByCode s.straps.var.toNat p := by
  unfold posFitted rowFitted fittedByCode
  rw [fittedRows_eq, centerAbsent_eq]

theorem resetRecord_eq (s : State) (p : Pos) : resetRecord s p
    = if fittedByCode s.straps.var.toNat p then .indeterminate .starting else .notFitted := by
  unfold resetRecord
  rw [posFitted_eq_fittedByCode]

theorem supplyAfterReset_below (u : Supply) :
    supplyAfterReset .supplyBelow u = if u = .normal then .dipping 1 else u := by
  cases u <;> rfl

theorem resetPart_row (cause : ResetCause) (straps : Straps) (s : State) (r : Row) : (resetPart cause straps s).row r = {
    state := if r = .r1 then .probing else .absent, rpwr := false, mating := none, settle := .stopped
    powerOff := none, idFailures := 0, walk := ⟨0, .read, 0⟩, score := 0, stability := none, recovery := 0
    cause := .none, identity := none, sequence := 0, tagCounter := 0, tagRead := none, latch := PerSeat.all none } := by
  cases r <;> rfl

theorem resetPart_table (cause : ResetCause) (straps : Straps) (s : State) (p : Pos) :
    (resetPart cause straps s).pub.table.get p
      = if fittedByCode straps.var.toNat p then .indeterminate .starting else .notFitted :=
  (PerPos.get_mapIdx _ _ p).trans (resetRecord_eq _ p)

theorem resetPart_cls (cause : ResetCause) (straps : Straps) (s : State) (p : Pos) :
    (resetPart cause straps s).cls.get p = ClassState.reset ((resetPart cause straps s).pub.table.get p) :=
  PerPos.get_mapIdx _ _ p

end Sys2Proof.Machine

namespace Sys2Proof.Certificates

open Sys2Proof.Machine

/-- Settles O5: `resetPart` gives each block by its definition; the positions go by R4's table. -/
theorem resetTakesEveryBlock : Obligations.ResetTakesEveryBlock := by
  refine ⟨fun cause straps s => ?_, fun s => ⟨fun h => ?_, fun h => ?_⟩⟩
  · refine ⟨resetPart cause straps s, rfl, rfl, rfl, rfl, ?_, rfl, rfl, rfl, resetPart_row cause straps s, rfl, rfl, rfl,
      rfl, rfl, rfl, rfl, rfl, rfl, fun h => ?_, rfl, rfl, rfl, fun p => ?_⟩
    · cases cause
      case supplyBelow => rw [← supplyAfterReset_below]; rfl
      all_goals rfl
    · show storeAfterReset s = s.settings.store
      unfold storeAfterReset
      rw [h]
    · exact ⟨resetPart_table cause straps s p, resetPart_cls cause straps s p, PerPos.get_all _ p, PerPos.get_all _ p,
        PerPos.get_all _ p, PerPos.get_all _ p⟩
  · show Host.Outcome.next (releaseReset s) = _
    unfold releaseReset
    rw [if_pos h]
    rfl
  · show Host.Outcome.next (releaseReset s) = _
    unfold releaseReset
    rw [if_neg (by simp [h])]

end Sys2Proof.Certificates
end

section
/-! PROOFS. The reading service requests (R16, R43, R70, R155, R164, R177). -/

namespace Sys2Proof.Machine

/-! ### A request is taken -/

theorem receive_listening {s : State} (h : Receiving s) (f : State → State) : receive f s = f s := by
  obtain ⟨⟨hr, ha⟩, hb⟩ := h
  unfold receive outsideReset
  simp [hr, ha, hb]

theorem Serving.receiving {s : State} (h : Serving s) : Receiving s :=
  ⟨⟨h.1.1, asleep_of_awake h.1.2⟩, h.2.1⟩

theorem restartRest_reply (s : State) : (restartRest s).body.reply = s.body.reply := by
  rw [(restartRest_changes s).body]

theorem restartRest_asleep {s : State} (h : awake s = false) : restartRest s = s := by
  unfold restartRest
  refine if_neg (fun hr => ?_)
  unfold awake at h
  rw [hr] at h
  exact absurd h (by decide)

theorem takeService_serving {s : State} (h : Serving s) (k : Byte) (l : List Byte) (f : State → State) :
    takeService k l f s = arbitrate (f (restartRest s)) := by
  unfold takeService
  rw [receive_listening h.receiving]
  dsimp only
  rw [restartRest_reply, h.2.2, (restartRest_quiet s).awake, h.1.2]
  rfl

theorem takeService_waiting {s : State} (h : Receiving s) (hr : s.body.reply.isSome = true) (k : Byte) (l : List Byte)
    (f : State → State) : takeService k l f s = restartRest s := by
  unfold takeService
  rw [receive_listening h]
  dsimp only
  rw [restartRest_reply, if_pos hr]

theorem takeService_notReady {s : State} (h : Receiving s) (hr : s.body.reply = none) (ha : awake s = false) (k : Byte)
    (l : List Byte) (f : State → State) : takeService k l f s = arbitrate (sendReply ⟨k, 8, l, 0⟩ s) := by
  unfold takeService
  rw [receive_listening h]
  dsimp only
  rw [restartRest_asleep ha, hr, ha]
  rfl

/-! ### What the arbiter leaves -/

theorem placeAny_resync (g : Groups) (b : Body) : (placeAny g b).resync = b.resync := by
  unfold placeAny
  split <;> rfl

theorem placeReply_resync (g : Groups) (b : Body) : (placeReply g b).resync = b.resync := by
  unfold placeReply
  split <;> rfl

theorem placeAny_notices (g : Groups) (b : Body) : (placeAny g b).queue.map (·.notice) = b.queue.map (·.notice) := by
  unfold placeAny
  split
  · rfl
  · rfl
  · rfl
  · rename_i hx
    exact chooseNotice_notices hx
  · rfl

/-- The arbiter leaves the waiting reply, the notices in their order and RESYNC (R159, R162). -/
theorem arbitrate_body (s : State) : (arbitrate s).body.reply = s.body.reply
    ∧ (arbitrate s).body.queue.map (·.notice) = s.body.queue.map (·.notice)
    ∧ (arbitrate s).body.resync = s.body.resync := by
  refine ⟨by rw [(arbitrate_quiet s).body], ?_⟩
  unfold arbitrate
  split
  · exact ⟨rfl, rfl⟩
  · split
    · exact ⟨placeAny_notices _ _, placeAny_resync _ _⟩
    · split
      · exact ⟨congrArg _ (placeReply_queue _ _), placeReply_resync _ _⟩
      · exact ⟨rfl, rfl⟩

/-- A request served by a reply alone. -/
theorem repliesWith_of_exec {c : Instr} {s : State} {k : Byte} {code : BitVec 4} {l : List Byte}
    (h : exec c s = .next (arbitrate (sendReply ⟨k, code, l, 0⟩ (restartRest s)))) : RepliesWith c s k code l := by
  have hb := restartRest_changes s
  have hs := sendReply_changes ⟨k, code, l, 0⟩ (restartRest s)
  have ha := arbitrate_changes (sendReply ⟨k, code, l, 0⟩ (restartRest s))
  obtain ⟨hr, hn, hy⟩ := arbitrate_body (sendReply ⟨k, code, l, 0⟩ (restartRest s))
  have hq : ∀ {α : Type} (f : Body → α), (∀ b r, f { b with reply := r } = f b) →
      f (sendReply ⟨k, code, l, 0⟩ (restartRest s)).body = f s.body := fun f hf => (hf _ _).trans (by rw [hb.body])
  refine ⟨_, h, hr, by rw [ha.monitor, hs.monitor], ?_, ?_, ?_, (hb.widen.andThen hs).andThen ha⟩
  · rw [hn]
    exact hq (fun b => b.queue.map (·.notice)) (fun _ _ => rfl)
  · rw [(arbitrate_quiet _).vehicle]
    exact hq (fun b => b.vehicle) (fun _ _ => rfl)
  · rw [hy]
    exact hq (fun b => b.resync) (fun _ _ => rfl)

/-! ### The contents (R43, R70, R176) -/

theorem entryContent_none {s : State} {index : Byte} (h : s.child.entries.length ≤ index.toNat) :
    entryContent s index = index :: List.replicate 19 0 := by
  unfold entryContent
  rw [List.getElem?_eq_none h]
  rfl

theorem entryContent_some {s : State} {index : Byte} {e : Entry} (h : s.child.entries[index.toNat]? = some e) :
    entryContent s index = entryBytes s index e := by
  unfold entryContent
  rw [h]
  unfold entryBytes
  have ho : byte (orientationCode e.orient) = match e.orient with | .rear => 0 | .forward => 1 := by
    cases e.orient <;> rfl
  have hs : byte (entryStateCode e.state) = match e.state with | .present => 1 | .provisional => 2 | .missing => 3 := by
    cases e.state <;> rfl
  have hu : byte (bit (s.coil e.pos).unknown) = if (s.coil e.pos).unknown then 1 else 0 := by
    cases (s.coil e.pos).unknown <;> rfl
  dsimp only
  rw [ho, hs, hu]
  rfl

/-- A field of a bit, three zero bits and four bits of a word, bit by bit. -/
theorem getLsbD_cellHigh (f : Bool) (c : BitVec 12) (i : Nat) :
    (BitVec.ofBool f ++ 0#3 ++ c.extractLsb' 8 4 : BitVec 8).getLsbD i
      = if i < 4 then c.getLsbD (8 + i) else (decide (i = 7) && f) := by
  rw [BitVec.getLsbD_append, BitVec.getLsbD_append]
  by_cases h4 : i < 4
  · simp [h4]
  · by_cases h7 : i < 7
    · simp [h4, Nat.ne_of_lt h7, show i - 4 < 3 by omega]
    · obtain rfl | h := Nat.eq_or_lt_of_le (Nat.le_of_not_lt h7)
      · simp
      · simp [h4, BitVec.getLsbD_ofBool, show ¬ i - 4 < 3 by omega, show ¬ i - 4 - 3 = 0 by omega, Nat.ne_of_gt h]

theorem bytesOf16_cell (c : CellReading) : bytesOf16 (c.code.setWidth 16 ||| if c.faulted then 0x8000#16 else 0#16)
    = [(BitVec.ofBool c.faulted ++ 0#3 ++ c.code.extractLsb' 8 4 : BitVec 8), c.code.extractLsb' 0 8] := by
  unfold bytesOf16
  congr 1
  · apply BitVec.eq_of_getLsbD_eq
    intro i hi
    rw [getLsbD_cellHigh]
    cases c.faulted <;> interval_cases i <;> simp
  · congr 1
    apply BitVec.eq_of_getLsbD_eq
    intro i hi
    cases c.faulted <;> interval_cases i <;> simp

theorem bytesOf16_tension (v : BitVec 10) :
    bytesOf16 (v.setWidth 16) = [(0#6 ++ v.extractLsb' 8 2 : BitVec 8), v.extractLsb' 0 8] := by
  unfold bytesOf16
  congr 1
  apply BitVec.eq_of_getLsbD_eq
  intro i hi
  rw [BitVec.getLsbD_append]
  interval_cases i <;> simp

theorem stateByte_fields (u : BuckleReading) (l r : AnchorReading) :
    byte (buckleReadingCode u + 4 * anchorCode l + 16 * anchorCode r)
      = (0#2 ++ (match r with | .isOpen => 0 | .engaged => 1 | .notFitted => 2 : BitVec 2)
        ++ (match l with | .isOpen => 0 | .engaged => 1 | .notFitted => 2 : BitVec 2)
        ++ (match u with | .isOpen => 0#2 | .latched => 1#2 | .fault => 2#2) : BitVec 8) := by
  cases u <;> cases l <;> cases r <;> decide

theorem latchBytes_eq (l : Option SeatPart) : latchBytes l = seatLatchBytes l := by
  unfold latchBytes seatLatchBytes
  cases l with
  | none => rfl
  | some part =>
    unfold seatBytes
    dsimp only
    rw [stateByte_fields, ← List.cons_append, ← List.cons_append]
    congr 1
    congr 1
    · exact congrArg (1#8 :: ·) (List.flatMap_congr (fun c _ => bytesOf16_cell c))
    · cases part.tension with
      | none => rfl
      | some v => exact bytesOf16_tension v

theorem seatLatchBytes_length (l : Option SeatPart) : (seatLatchBytes l).length = 20 := by
  obtain _ | ⟨_, tension, _, _, _⟩ := l
  · rfl
  · cases tension <;> rfl

theorem walkByte_eq (x : RowRecord) : walkByte x = if x.state = .checking then
      BitVec.ofNat 8 (32 * x.walk.entry + (match x.walk.phase with | .read => 0 | .write => 8 | .reread => 16)
        + x.walk.attempts)
    else 0 := by
  unfold walkByte
  cases x.walk.phase <;> rfl

theorem rowContent_eq (s : State) (r : Row) : rowContent s r = rowBytes s r := by
  unfold rowContent rowBytes
  dsimp only
  rw [latchBytes_eq, latchBytes_eq, latchBytes_eq, walkByte_eq]
  cases (s.row r).state <;> cases (s.row r).cause <;> cases (s.row r).identity <;> rfl

theorem rowBytes_length (s : State) (r : Row) : (rowBytes s r).length = 73 := by
  unfold rowBytes
  simp only [List.length_append, seatLatchBytes_length]
  cases (s.row r).identity <;> rfl

theorem rowOfNum_byteNum (r : Row) : rowOfNum (BitVec.ofNat 8 r.num).toNat = some r := by cases r <;> rfl

theorem rowOfNum_none {n : Nat} (h : n = 0 ∨ 5 < n) : rowOfNum n = none := by
  refine List.find?_eq_none.mpr (fun r _ hr => ?_)
  have e : r.num = n := by simpa using hr
  cases r <;> simp only [Row.num] at e <;> omega

/-- What a reply reads of the state is the same after the rest timer's restart. -/
theorem entryContent_restartRest (s : State) (index : Byte) : entryContent (restartRest s) index = entryContent s index := by
  unfold entryContent State.coil
  rw [(restartRest_changes s).child]

theorem rowContent_restartRest (s : State) (r : Row) : rowContent (restartRest s) r = rowContent s r := by
  unfold rowContent State.row
  rw [(restartRest_changes s).line]

/-! ### A request that is not served -/

/-- A request taken while a reply waits, and one taken outside RUN and REST (R155, R164). -/
theorem takeService_unserved {s : State} (h : Receiving s) (k : Byte) (l : List Byte) (f : State → State) {t : State}
    (ht : t = takeService k l f s) :
    (s.body.reply.isSome = true → t = restartRest s)
      ∧ (s.body.reply = none → awake s = false → t.body.reply = some ⟨k, 8, l, 0⟩ ∧ t.settings = s.settings
        ∧ t.child = s.child ∧ ChangesOnly [.body] s t) := by
  subst ht
  refine ⟨fun hr => takeService_waiting h hr k l f, fun hr ha => ?_⟩
  rw [takeService_notReady h hr ha]
  have hc := (sendReply_changes ⟨k, 8, l, 0⟩ s).andThen (arbitrate_changes _)
  exact ⟨(arbitrate_body _).1, hc.settings, hc.child, hc⟩

end Sys2Proof.Machine

namespace Sys2Proof.Certificates

open Sys2Proof.Machine

/-- Settles O44: each served request leaves the reply of its branch, and a request that is not served goes by
`takeService_unserved`. -/
theorem serviceReadsReply : Obligations.ServiceReadsReply := by
  refine ⟨fun s h => ⟨fun id value => ?_, fun index e hi he => ?_, fun index hi hl => ?_, fun index hi => ?_,
    fun r => ⟨?_, rowBytes_length s r⟩, fun row hrow => ?_, fun kind => ?_⟩, fun s c h hc => ?_⟩
  · refine repliesWith_of_exec ((congrArg Host.Outcome.next (takeService_serving h _ _ _)).trans ?_)
    unfold answerReadParam
    rw [(restartRest_changes s).settings]
    cases knownParam id <;> rfl
  · refine repliesWith_of_exec ((congrArg Host.Outcome.next (takeService_serving h _ _ _)).trans ?_)
    rw [answerReadEntry, if_neg (Nat.not_lt.mpr hi), entryContent_restartRest, entryContent_some he]
    rfl
  · refine repliesWith_of_exec ((congrArg Host.Outcome.next (takeService_serving h _ _ _)).trans ?_)
    rw [answerReadEntry, if_neg (Nat.not_lt.mpr hi), entryContent_restartRest, entryContent_none hl]
    rfl
  · refine repliesWith_of_exec ((congrArg Host.Outcome.next (takeService_serving h _ _ _)).trans ?_)
    rw [answerReadEntry, if_pos hi]
    rfl
  · refine repliesWith_of_exec ((congrArg Host.Outcome.next (takeService_serving h _ _ _)).trans ?_)
    rw [answerReadRow, rowOfNum_byteNum]
    dsimp only
    rw [rowContent_restartRest, rowContent_eq]
    rfl
  · refine repliesWith_of_exec ((congrArg Host.Outcome.next (takeService_serving h _ _ _)).trans ?_)
    rw [answerReadRow, rowOfNum_none hrow]
    rfl
  · exact repliesWith_of_exec (congrArg Host.Outcome.next (takeService_serving h _ _ _))
  · have done : ∀ k l f, exec c s = .next (takeService k l f s) →
        (s.body.reply.isSome = true → exec c s = .next (restartRest s))
        ∧ (s.body.reply = none → awake s = false → ∃ t, exec c s = .next t ∧ t.body.reply = some ⟨k, 8, l, 0⟩
          ∧ t.settings = s.settings ∧ t.child = s.child ∧ ChangesOnly [.body] s t) := fun k l f he => by
      obtain ⟨hw, hn⟩ := takeService_unserved h k l f rfl
      exact ⟨fun hr => he.trans (congrArg _ (hw hr)), fun hr ha => ⟨_, he, hn hr ha⟩⟩
    cases c
    case readParam id value => exact done _ _ _ rfl
    case writeParam id value => exact done _ _ _ rfl
    case clearChildList => exact done _ _ _ rfl
    case readChildEntry index => exact done _ _ _ rfl
    case readRow row => exact done _ _ _ rfl
    case unknownServiceRequest kind => exact done _ _ _ rfl
    all_goals exact hc.elim

end Sys2Proof.Certificates
end

section
/-! PROOFS. The Reminder Engine: what an evaluation of the lists gives a reminder, and that a second one on the same signals
gives the same (R117 to R129). -/

namespace Sys2Proof.Machine

/-! ### The signals -/

/-- All that the lists of a position, and its hold, read stands as in `s` (R117 to R122). -/
structure SameSignals (s t : State) (p : Pos) : Prop where
  straps : t.straps = s.straps
  active : t.settings.active = s.settings.active
  device : t.monitor.device = s.monitor.device
  ign : t.monitor.ign = s.monitor.ign
  vehicle : t.body.vehicle = s.body.vehicle
  locked : t.pub.locked = s.pub.locked
  record : t.pub.table.get p = s.pub.table.get p
  row : (t.row p.row).state = (s.row p.row).state
  cls : t.cls.get p = s.cls.get p

theorem SameSignals.refl (s : State) (p : Pos) : SameSignals s s p := ⟨rfl, rfl, rfl, rfl, rfl, rfl, rfl, rfl, rfl⟩

theorem SameSignals.trans {s t u : State} {p : Pos} (h1 : SameSignals s t p) (h2 : SameSignals t u p) :
    SameSignals s u p :=
  ⟨h2.straps.trans h1.straps, h2.active.trans h1.active, h2.device.trans h1.device, h2.ign.trans h1.ign,
    h2.vehicle.trans h1.vehicle, h2.locked.trans h1.locked, h2.record.trans h1.record, h2.row.trans h1.row,
    h2.cls.trans h1.cls⟩

/-- A change that leaves settings, rows, Classifier and Publication leaves the signals. -/
theorem ChangesOnly.signals {bs : List Block} {s t : State} (h : ChangesOnly bs s t) (q : Quiet s t) (p : Pos)
    (h1 : bs.contains Block.straps = false := by rfl) (h2 : bs.contains Block.settings = false := by rfl)
    (h3 : bs.contains Block.line = false := by rfl) (h4 : bs.contains Block.cls = false := by rfl)
    (h5 : bs.contains Block.pub = false := by rfl) : SameSignals s t p := by
  refine ⟨h.straps h1, by rw [h.settings h2], q.device, q.ign, q.vehicle, by rw [h.pub h5], by rw [h.pub h5], ?_,
    by rw [h.cls h4]⟩
  unfold State.row
  rw [h.line h3]

section
variable {s t : State} {p : Pos} (h : SameSignals s t p)
include h

theorem SameSignals.remHeld : Machine.remHeld t p = Machine.remHeld s p := by
  unfold Machine.remHeld
  rw [posFitted_congr h.straps, h.row, h.device]

theorem SameSignals.beltRequired : Machine.beltRequired t p = Machine.beltRequired s p := by
  unfold Machine.beltRequired anchored anchorsFitted
  rw [posFitted_congr h.straps, h.row, h.record, h.cls,
    sensorFlag_congr h.straps (by unfold posWords; rw [h.active])]

theorem SameSignals.buckleOpen : Machine.buckleOpen t p = Machine.buckleOpen s p := by
  unfold Machine.buckleOpen
  rw [h.cls]

theorem SameSignals.vanSignal (n : Nat) : Machine.vanSignal t n = Machine.vanSignal s n := by
  unfold Machine.vanSignal presented speedV1 speedV2
  rw [h.ign, h.vehicle, h.locked, h.active]

theorem SameSignals.listResult (l : Nat) : Machine.listResult t p l = Machine.listResult s p l := by
  have hv : termValue t p = termValue s p := funext fun w => by
    unfold termValue signal
    rw [h.beltRequired, h.buckleOpen, h.vanSignal]
  unfold Machine.listResult
  rw [hv, h.active]

theorem SameSignals.startResult : Machine.startResult t p = Machine.startResult s p := h.listResult _
theorem SameSignals.escalateResult : Machine.escalateResult t p = Machine.escalateResult s p := h.listResult _

end

/-! ### One evaluation of the lists -/

/-- The reminder that an evaluation on the state's signals makes of one that is not held. -/
def listed (s : State) (p : Pos) (r : Reminder) : Reminder :=
  ladderStep r (startResult s p) (escalateResult s p) (startDelay s p) (episodeLimit s) (audibleTime s)

theorem SameSignals.listed {s t : State} {p : Pos} (h : SameSignals s t p) (r : Reminder) :
    Machine.listed t p r = Machine.listed s p r := by
  unfold Machine.listed startDelay episodeLimit audibleTime
  rw [h.startResult, h.escalateResult, h.active]

theorem evaluateLists_held {u : Bool} {p : Pos} {s : State} (h : remHeld s p = true) : evaluateLists u p s = s := if_pos h

theorem evaluateLists_notHeld {u : Bool} {p : Pos} {s : State} (h : remHeld s p = false) : evaluateLists u p s
    = actOnResults p (chooseDelay s p u)
      (s.onRem p (fun r => { r with start := startResult s p, escalate := escalateResult s p })) := if_neg (by simp [h])

/-- The reminder in AUDIBLE, with an episode more. -/
theorem enterAudible_rem (p : Pos) (s : State) (q : Pos) : (enterAudible p s).rem.get q
    = if q = p then { s.rem.get q with
        state := .audible, audible := some (audibleTime s), episodes := (s.rem.get q).episodes + 1 }
      else s.rem.get q := by
  show (s.rem.modify p _).get q = _
  rw [PerPos.get_modify]
  split
  · rename_i h
    rw [h]
  · rfl

theorem enterVisual_rem (p : Pos) (s : State) (q : Pos) : (enterVisual p s).rem.get q
    = if q = p then
        if (s.rem.get q).escalate && decide ((s.rem.get q).episodes < episodeLimit s) then
          { s.rem.get q with
            state := .audible, delay := none, audible := some (audibleTime s), episodes := (s.rem.get q).episodes + 1 }
        else { s.rem.get q with state := .visual, delay := none }
      else s.rem.get q := by
  have hv : ∀ r, (s.onRem p (fun r => { r with state := .visual, delay := none })).rem.get r
      = if r = p then { s.rem.get r with state := .visual, delay := none } else s.rem.get r :=
    fun r => PerPos.get_modify _ _ _ _
  unfold enterVisual
  by_cases hq : q = p
  · subst hq
    simp only [if_true]
    split
    · rw [enterAudible_rem, hv]
      simp only [if_true]
      rfl
    · rw [hv, if_pos rfl]
  · simp only [if_neg hq]
    split
    · rw [enterAudible_rem, if_neg hq, hv, if_neg hq]
    · rw [hv, if_neg hq]

theorem enterWait_rem (p : Pos) (d : Nat) (s : State) (q : Pos) : (enterWait p d s).rem.get q
    = if q = p then
        if d = 0 then (enterVisual p s).rem.get q else { s.rem.get q with state := .wait, delay := some d }
      else s.rem.get q := by
  unfold enterWait
  by_cases hq : q = p
  · rw [if_pos hq]
    split
    · rfl
    · rw [State.onRem_rem, PerPos.get_modify, if_pos hq]
  · rw [if_neg hq]
    split
    · rw [enterVisual_rem, if_neg hq]
    · rw [State.onRem_rem, PerPos.get_modify, if_neg hq]

theorem remOff_rem (p : Pos) (s : State) (q : Pos) : (remOff p s).rem.get q
    = if q = p then { s.rem.get q with state := .off, delay := none, audible := none } else s.rem.get q :=
  PerPos.get_modify _ _ _ _

/-- The four things that a reminder can do on its results (R122 to R128). -/
theorem actOnResults_cases (p : Pos) (d : Nat) (s : State) : actOnResults p d s = s ∨ actOnResults p d s = remOff p s
    ∨ actOnResults p d s = enterWait p d s ∨ actOnResults p d s = enterAudible p s := by
  unfold actOnResults
  dsimp only
  repeat' split
  all_goals simp

theorem actOnResults_rem_other {p q : Pos} (h : q ≠ p) (d : Nat) (s : State) :
    (actOnResults p d s).rem.get q = s.rem.get q := by
  obtain e | e | e | e := actOnResults_cases p d s <;> rw [e]
  · rw [remOff_rem, if_neg h]
  · rw [enterWait_rem, if_neg h]
  · rw [enterAudible_rem, if_neg h]

theorem evaluateLists_rem_other {p q : Pos} (h : q ≠ p) (u : Bool) (s : State) :
    (evaluateLists u p s).rem.get q = s.rem.get q := by
  by_cases hh : remHeld s p = true
  · rw [evaluateLists_held hh]
  · rw [evaluateLists_notHeld (eq_false_of_ne_true hh), actOnResults_rem_other h]
    exact PerPos.get_modify_ne _ _ h

/-- The ladder's step by the START and ESCALATE results that stand in the record (R122 to R129). -/
theorem actOnResults_rem (p : Pos) (d : Nat) {s : State} (h : RemTimersInv (s.rem.get p)) :
    (actOnResults p d s).rem.get p = ladderStep (s.rem.get p) (s.rem.get p).start (s.rem.get p).escalate d
      (episodeLimit s) (audibleTime s) := by
  obtain ⟨hd, ha⟩ := h
  generalize hr : s.rem.get p = r at hd ha
  obtain ⟨state, delay, audible, episodes, start, escalate⟩ := r
  unfold actOnResults ladderStep
  simp only [hr]
  cases state
  case off =>
    obtain rfl : delay = none := by simpa using hd
    obtain rfl : audible = none := by simpa using ha
    cases start
    · exact hr
    · simp only [if_true, enterWait_rem, enterVisual_rem, hr]
      rfl
  case wait =>
    cases start
    · simp only [Bool.false_eq_true, if_false, remOff_rem, hr]
      rfl
    · exact hr
  case visual =>
    obtain rfl : delay = none := by simpa using hd
    obtain rfl : audible = none := by simpa using ha
    cases start
    · simp only [Bool.not_false, if_true, remOff_rem, hr]
    · simp only [Bool.not_true, Bool.false_eq_true, if_false]
      split
      · rw [enterAudible_rem, if_pos rfl, hr]
      · exact hr
  case audible =>
    cases start
    · simp only [Bool.false_eq_true, if_false, remOff_rem, hr]
      rfl
    · exact hr
  case silenced =>
    cases start
    · simp only [Bool.false_eq_true, if_false, remOff_rem, hr]
      rfl
    · exact hr

/-- An evaluation of the lists, made for no buckle change, steps the ladder by the state's signals. -/
theorem evaluateLists_rem {p : Pos} {s : State} (hh : remHeld s p = false) (h : RemTimersInv (s.rem.get p)) :
    (evaluateLists false p s).rem.get p = listed s p (s.rem.get p) := by
  have hr : (s.onRem p (fun r => { r with start := startResult s p, escalate := escalateResult s p })).rem.get p
      = { s.rem.get p with start := startResult s p, escalate := escalateResult s p } := PerPos.get_modify_self _ _ _
  rw [evaluateLists_notHeld hh, actOnResults_rem p _ (by rw [hr]; exact h), hr]
  rfl

/-! ### A second evaluation on the same signals -/

theorem ladderStep_timersInv {r : Reminder} (h : RemTimersInv r) (st es : Bool) (d l a : Nat) :
    RemTimersInv (ladderStep r st es d l a) := by
  obtain ⟨state, delay, audible, episodes, start, escalate⟩ := r
  have ho : RemTimersInv ⟨.off, none, none, episodes, st, es⟩ := ⟨by simp, by simp⟩
  have hv : RemTimersInv (if (es && decide (episodes < l)) = true then ⟨.audible, none, some a, episodes + 1, st, es⟩
      else ⟨.visual, none, none, episodes, st, es⟩) := by
    split <;> exact ⟨by simp, by simp⟩
  cases st
  · exact ho
  · cases state
    case off =>
      unfold ladderStep
      dsimp only
      rw [if_neg (by simp)]
      split
      · exact hv
      · obtain ⟨_, ha⟩ := h
        obtain rfl : audible = none := by simpa using ha
        exact ⟨by simp, by simp⟩
    case visual => exact hv
    all_goals exact h

/-- The step is done once: on the same results a second one moves nothing (R121). -/
theorem ladderStep_again (r : Reminder) (st es : Bool) (d l a : Nat) :
    ladderStep (ladderStep r st es d l a) st es d l a = ladderStep r st es d l a := by
  obtain ⟨state, delay, audible, episodes, start, escalate⟩ := r
  cases st
  · rfl
  · by_cases hv : (es && decide (episodes < l)) = true
    · cases state <;> by_cases hd : d = 0 <;> simp [ladderStep, hv, hd]
    · cases state <;> by_cases hd : d = 0 <;> simp [ladderStep, hv, hd]

theorem listed_again (s : State) (p : Pos) (r : Reminder) : listed s p (listed s p r) = listed s p r :=
  ladderStep_again _ _ _ _ _ _

theorem listed_timersInv {r : Reminder} (h : RemTimersInv r) (s : State) (p : Pos) : RemTimersInv (listed s p r) :=
  ladderStep_timersInv h _ _ _ _ _

/-! ### Evaluations of several positions -/

/-- An operation for a position that evaluates its lists or does nothing. -/
def EvaluatesLists (f : Pos → State → State) : Prop := ∀ p t, f p t = t ∨ f p t = evaluateLists false p t

theorem evaluatesLists_self : EvaluatesLists (evaluateLists false) := fun _ _ => .inr rfl

theorem evaluatesLists_afterSeatChange (b : State) : EvaluatesLists (afterSeatChange false b) := by
  intro p t
  unfold afterSeatChange
  split
  · exact .inl rfl
  · exact .inr rfl

section
variable {f : Pos → State → State} (hf : EvaluatesLists f)
include hf

theorem EvaluatesLists.signals (p q : Pos) (t : State) : SameSignals t (f p t) q := by
  obtain h | h := hf p t <;> rw [h]
  · exact SameSignals.refl t q
  · exact (evaluateLists_changes false p t).signals (evaluateLists_quiet false p t) q

theorem EvaluatesLists.forEach_signals (q : Pos) : ∀ (ps : List Pos) (t : State), SameSignals t (forEach ps f t) q
  | [], t => SameSignals.refl t q
  | p :: ps, t => (hf.signals p q t).trans (EvaluatesLists.forEach_signals q ps (f p t))

theorem EvaluatesLists.forEach_held {q : Pos} : ∀ (ps : List Pos) {t : State}, remHeld t q = true →
    (forEach ps f t).rem.get q = t.rem.get q
  | [], _, _ => rfl
  | p :: ps, t, h => by
    show (forEach ps f (f p t)).rem.get q = _
    rw [EvaluatesLists.forEach_held ps ((hf.signals p q t).remHeld.trans h)]
    obtain e | e := hf p t <;> rw [e]
    by_cases hq : q = p
    · rw [evaluateLists_held (hq ▸ h)]
    · exact evaluateLists_rem_other hq false t

/-- Of a position that is not held the reminder stands as it was or is stepped once, however many evaluations there are. -/
theorem EvaluatesLists.forEach_stepped {q : Pos} : ∀ (ps : List Pos) {t : State}, remHeld t q = false →
    RemTimersInv (t.rem.get q) → (forEach ps f t).rem.get q = t.rem.get q
      ∨ (forEach ps f t).rem.get q = listed t q (t.rem.get q)
  | [], _, _, _ => .inl rfl
  | p :: ps, t, h, hr => by
    show (forEach ps f (f p t)).rem.get q = _ ∨ (forEach ps f (f p t)).rem.get q = _
    have hs := hf.signals p q t
    have one : (f p t).rem.get q = t.rem.get q ∨ (f p t).rem.get q = listed t q (t.rem.get q) := by
      obtain e | e := hf p t <;> rw [e]
      · exact .inl rfl
      · by_cases hq : q = p
        · subst hq
          exact .inr (evaluateLists_rem h hr)
        · exact .inl (evaluateLists_rem_other hq false t)
    obtain e | e := one
    · have ih := EvaluatesLists.forEach_stepped ps (t := f p t) (hs.remHeld.trans h) (by rw [e]; exact hr)
      rw [hs.listed, e] at ih
      exact ih
    · have ih := EvaluatesLists.forEach_stepped ps (t := f p t) (hs.remHeld.trans h)
        (by rw [e]; exact listed_timersInv hr t q)
      rw [hs.listed, e, listed_again, or_self] at ih
      exact .inr ih

end

/-- Every position that is not held is stepped by an evaluation of all (R121). -/
theorem forEach_evaluateLists_rem {q : Pos} (ps : List Pos) {t : State} (hm : q ∈ ps) (h : remHeld t q = false)
    (hr : RemTimersInv (t.rem.get q)) : (forEach ps (evaluateLists false) t).rem.get q = listed t q (t.rem.get q) := by
  induction ps generalizing t with
  | nil => exact absurd hm List.not_mem_nil
  | cons p ps ih =>
    show (forEach ps (evaluateLists false) (evaluateLists false p t)).rem.get q = _
    have hs := evaluatesLists_self.signals p q t
    by_cases hq : q = p
    · subst hq
      have e := evaluateLists_rem h hr
      obtain hi | hi := evaluatesLists_self.forEach_stepped ps (t := evaluateLists false q t) (hs.remHeld.trans h)
        (by rw [e]; exact listed_timersInv hr t q)
      · rw [hi, e]
      · rw [hi, e, hs.listed, listed_again]
    · have e := evaluateLists_rem_other hq false t
      rw [ih ((List.mem_cons.mp hm).resolve_left hq) (hs.remHeld.trans h) (by rw [e]; exact hr), e, hs.listed]

/-! ### A batch, then all the lists -/

/-- A batch ends with evaluations of the lists, on the signals that it leaves and the reminders that it found. -/
theorem publishBatch_evaluates (ps : List Pos) (s : State) : ∃ t, publishBatch ps s = forEach ps (afterSeatChange false s) t
    ∧ t.rem = s.rem := by
  unfold publishBatch
  split
  · rename_i h
    rw [List.isEmpty_iff.mp h]
    exact ⟨s, rfl, rfl⟩
  · refine ⟨_, rfl, ?_⟩
    exact ((changes_onPub s _).widen (bs := [.pub, .body, .monitor]) |>.andThen
      (changesOnly_forEach (fun p t => notify_changes _ t) ps _) |>.andThen (restartRest_changes _)).rem

theorem publish_evaluates (s : State) : ∃ t ps, publish s = forEach ps (afterSeatChange false s) t ∧ t.rem = s.rem := by
  unfold publish
  split
  · exact ⟨_, [], rfl, rfl⟩
  · obtain ⟨t, h⟩ := publishBatch_evaluates (allPos.filter (unpublished s)) s
    exact ⟨t, _, h⟩

/-- A batch and then an evaluation of all lists: each reminder that is not held has stepped once, by the signals that
stand at the end (R104, R121). -/
theorem publish_evaluateAllLists_rem (s : State) (p : Pos) :
    (remHeld (evaluateAllLists (publish s)) p = true → (evaluateAllLists (publish s)).rem.get p = s.rem.get p)
    ∧ (remHeld (evaluateAllLists (publish s)) p = false → RemTimersInv (s.rem.get p) →
      (evaluateAllLists (publish s)).rem.get p = listed (evaluateAllLists (publish s)) p (s.rem.get p)) := by
  obtain ⟨u, ps, hp, hu⟩ := publish_evaluates s
  have hb := evaluatesLists_afterSeatChange s
  have h1 : SameSignals u (publish s) p := hp ▸ hb.forEach_signals p ps u
  have h2 : SameSignals (publish s) (evaluateAllLists (publish s)) p := evaluatesLists_self.forEach_signals p allPos _
  rw [h2.remHeld, h2.listed]
  refine ⟨fun h => ?_, fun h hr => ?_⟩
  · unfold evaluateAllLists
    rw [evaluatesLists_self.forEach_held allPos h, hp, hb.forEach_held ps (h1.remHeld.symm.trans h), hu]
  · have hq := h1.remHeld.symm.trans h
    have hru : RemTimersInv (u.rem.get p) := by rw [hu]; exact hr
    unfold evaluateAllLists
    obtain e | e := hb.forEach_stepped ps hq hru
    · rw [← hp, hu] at e
      rw [forEach_evaluateLists_rem allPos (mem_allPos p) h (by rw [e]; exact hr), e]
    · rw [← hp, hu, ← h1.listed] at e
      rw [forEach_evaluateLists_rem allPos (mem_allPos p) h (by rw [e]; exact listed_timersInv hr _ _), e, listed_again]

end Sys2Proof.Machine
end

section
/-! PROOFS. The end of STARTING (R10, R22, R85, R104, R121, R152, R157, R171, R173). -/

namespace Sys2Proof.Machine

/-! ### What goes live -/

theorem goLive_awake (ign : Bool) (s : State) : awake (goLive ign s) = true := by
  cases ign <;> rfl

theorem goLive_hold (ign : Bool) (s : State) : (goLive ign s).monitor.hold = decide (s.monitor.supply = .low) := rfl

theorem goLive_line (ign : Bool) (s : State) : (goLive ign s).line.timer
      = (if s.monitor.supply = .low then .suspended else .running (if ign then 1 else 8))
    ∧ (goLive ign s).line.pointer = s.line.pointer := by
  refine ⟨?_, rfl⟩
  have h : ∀ b : Bool, (b = true ↔ s.monitor.supply = .low) → (if b then SlotTimer.suspended
      else .running (if ign then 1 else 8)) = if s.monitor.supply = .low then .suspended else .running (if ign then 1 else 8) :=
    fun b hb => if_congr hb rfl rfl
  rw [← h (s.monitor.supply == .low) (by simp)]
  cases ign <;> rfl

theorem goLive_mapTimer (ign : Bool) (s : State) : (goLive ign s).body.mapTimer = some (if ign then 100 else 1000) := by
  cases ign
  · rfl
  · show (Body.ignOn { s.body with mapTimer := some 100 }).mapTimer = _
    unfold Body.ignOn
    split <;> rfl

/-- The Body Port's queue stands when the part goes live. -/
theorem goLive_queue (ign : Bool) (s : State) : (goLive ign s).body.queue = s.body.queue := by
  cases ign
  · rfl
  · show (Body.ignOn { s.body with mapTimer := some 100 }).queue = _
    unfold Body.ignOn
    split <;> rfl

theorem goLive_row (ign : Bool) (s : State) (r : Row) : (goLive ign s).row r = rebuildRow s r (s.row r) :=
  PerRow.get_mapIdx _ _ _

theorem rebuildRow_rebuilt (s : State) (r : Row) (x : RowRecord) : RebuiltRow s r (rebuildRow s r x) := by
  have h : (rowFitted s r && (r == .r1 || variantFault s || s.pins.sense.get r)) = true
      ↔ rowFitted s r = true ∧ (r = .r1 ∨ 6 ≤ s.straps.var.toNat ∨ s.pins.sense.get r = true) := by
    rw [variantFault_eq]
    simp [or_assoc]
  unfold RebuiltRow rebuildRow
  by_cases hc : rowFitted s r = true ∧ (r = .r1 ∨ 6 ≤ s.straps.var.toNat ∨ s.pins.sense.get r = true)
  · rw [if_pos hc, if_pos (h.mpr hc)]
    exact ⟨rfl, rfl, rfl⟩
  · rw [if_neg hc, if_neg (fun h' => hc (h.mp h'))]
    exact ⟨rfl, rfl⟩

/-- A rebuilt row is ABSENT or PROBING. -/
theorem RebuiltRow.state {s : State} {r : Row} {x : RowRecord} (h : RebuiltRow s r x) :
    x.state = .absent ∨ x.state = .probing := by
  unfold RebuiltRow at h
  split at h
  · exact .inr h.1
  · exact .inl h.1

/-! ### The evaluations with which STARTING and the wake settle end (R85, R104, R121) -/

theorem evaluateStart_signals (s : State) (p : Pos) :
    SameSignals (evaluateAllLists (publish (evaluateEach (allPos.filter (posFitted s)) s))) (evaluateStart s) p := by
  unfold evaluateStart
  exact ((endEvent_changes _)).signals ((takeReminders_changes _).quiet.andThen (arbitrate_quiet _)) p

theorem evaluateStart_rem (s : State) (p : Pos) :
    (remHeld (evaluateStart s) p = true → (evaluateStart s).rem.get p = s.rem.get p)
    ∧ (remHeld (evaluateStart s) p = false → RemTimersInv (s.rem.get p) →
      (evaluateStart s).rem.get p = listed (evaluateStart s) p (s.rem.get p)) := by
  have h := publish_evaluateAllLists_rem (evaluateEach (allPos.filter (posFitted s)) s) p
  have hs := evaluateStart_signals s p
  rw [(evaluateEach_changes _ s).rem] at h
  have hr : (evaluateStart s).rem
      = (evaluateAllLists (publish (evaluateEach (allPos.filter (posFitted s)) s))).rem := (endEvent_changes _).rem
  rw [hs.remHeld, hs.listed, hr]
  exact h

/-- The Classifier's state of a fitted position at the end of the evaluations. -/
theorem evaluateStart_cls {s : State} {p : Pos} (hf : posFitted s p = true) (ha : awake s = true)
    (hr : (s.row p.row).state = .absent ∨ (s.row p.row).state = .probing) : (evaluateStart s).cls.get p
      = { s.cls.get p with
          previous := some (startRecord (evaluateStart s) p), settled := startRecord (evaluateStart s) p, dwell := 0 } := by
  have hrec : tableRecord s p = startRecord s p := by
    rw [← candidate_eq_tableRecord, candidate_eq_startRecord hf]
    tauto
  rw [(evaluateStart_changes s).startRecord]
  unfold evaluateStart
  rw [(((publish_changes _).widen (bs := [.monitor, .pub, .rem, .cadence, .body])).andThen
    (evaluateAllLists_changes _) |>.andThen (endEvent_changes _)).cls]
  rw [evaluateEach_atOnce _ _ (List.mem_filter.mpr ⟨mem_allPos p, hf⟩) hf ha (hrec ▸ startRecord_settlesAtOnce _ _), hrec]

theorem evaluateStart_table {s : State} (hl : s.pub.locked = false) (p : Pos) :
    (evaluateStart s).pub.table.get p = ((evaluateStart s).cls.get p).settled := by
  have hc : (evaluateStart s).cls = (evaluateEach (allPos.filter (posFitted s)) s).cls :=
    (((publish_changes _).widen (bs := [.monitor, .pub, .rem, .cadence, .body])).andThen
      (evaluateAllLists_changes _) |>.andThen (endEvent_changes _)).cls
  have hp : (evaluateStart s).pub = (publish (evaluateEach (allPos.filter (posFitted s)) s)).pub :=
    ((evaluateAllLists_changes _).widen (bs := [.rem, .cadence, .body]) |>.andThen (endEvent_changes _)).pub
  rw [hc, hp, publish_table]
  rw [(evaluateEach_changes _ s).pub]
  exact hl

/-! ### STARTING ends -/

/-- The part with its image judged, its rows rebuilt and its timers running, before the evaluations. -/
def wentLive (a : StoreAnswer) (s : State) : State :=
  (goLive s.monitor.ign { s with settings := autoloaded s a }).onPort (fun u => { u with ready := true })

theorem wentLive_row (a : StoreAnswer) (s : State) (r : Row) : (wentLive a s).row r = rebuildRow s r (s.row r) :=
  goLive_row _ _ r

theorem autoloadEnds_eq {s : State} (h : s.monitor.device = .starting) (a : StoreAnswer) :
    autoloadEnds a s = evaluateStart (wentLive a s) := if_pos h

theorem exec_autoloadEnd {s : State} (hr : s.monitor.inReset = false) (h : s.monitor.device = .starting) (a : StoreAnswer) :
    exec (.autoloadEnd a) s = .next (evaluateStart (wentLive a s)) := by
  rw [← autoloadEnds_eq h]
  show Host.Outcome.next (outsideReset s (autoloadEnds a)) = _
  unfold outsideReset
  rw [if_neg (by simp [hr])]

end Sys2Proof.Machine

namespace Sys2Proof.Certificates

open Sys2Proof.Machine

/-- Settles O7: what goes live stands through the evaluations, which settle, publish and step the reminders once. -/
theorem startingEnds : Obligations.StartingEnds := by
  intro a s hr hd hl
  have hc := evaluateStart_changes (wentLive a s)
  have hq := evaluateStart_quiet (wentLive a s)
  have hrow : ∀ r, (evaluateStart (wentLive a s)).row r = rebuildRow s r (s.row r) := fun r => by
    unfold State.row
    rw [hc.line]
    exact wentLive_row a s r
  have hreb : ∀ r, RebuiltRow s r ((evaluateStart (wentLive a s)).row r) := fun r => hrow r ▸ rebuildRow_rebuilt s r _
  have hcls : ∀ p, posFitted s p = true → ((evaluateStart (wentLive a s)).cls.get p).settled
      = startRecord (evaluateStart (wentLive a s)) p := fun p hf => by
    have hstate : ((wentLive a s).row p.row).state = .absent ∨ ((wentLive a s).row p.row).state = .probing := by
      rw [wentLive_row]
      exact (rebuildRow_rebuilt s p.row (s.row p.row)).state
    rw [evaluateStart_cls (s := wentLive a s) hf (goLive_awake _ _) hstate]
  refine ⟨_, exec_autoloadEnd hr hd a, hq.device, by rw [hc.port]; rfl, hq.hold.trans (goLive_hold _ _), ?_, ?_,
    hq.mapTimer.trans (goLive_mapTimer _ _), hreb, fun p hf => ⟨hcls p hf, ?_⟩, fun p hh => ?_, fun p hh hi => ?_, ?_⟩
  · rw [hc.line]
    exact (goLive_line _ _).1
  · rw [hc.line]
    exact (goLive_line _ _).2
  · rw [evaluateStart_table (s := wentLive a s) hl, hcls p hf]
  · exact (evaluateStart_rem (wentLive a s) p).1 hh
  · exact (evaluateStart_rem (wentLive a s) p).2 hh hi
  · have h := autoloadEnds_changes a s
    rwa [autoloadEnds_eq hd] at h

end Sys2Proof.Certificates
end

section
/-! PROOFS. The child seat list: the entry of a tag, the entry standing at a position, and an entry that becomes MISSING
(R69, R71, R72). -/

namespace Sys2Proof.Machine

/-! ### Entries by tag and by place -/

theorem standsAt_iff {p : Pos} {e : Entry} : standsAt p e = true ↔ e.pos = p ∧ e.state ≠ .missing := by
  unfold standsAt
  simp

theorem standing_some {s : State} {p : Pos} {e : Entry} (h : standing s p = some e) :
    e ∈ s.child.entries ∧ e.pos = p ∧ e.state ≠ .missing :=
  ⟨List.mem_of_find?_eq_some h, standsAt_iff.mp (List.find?_some h)⟩

theorem standing_none {s : State} {p : Pos} (h : standing s p = none) {e : Entry} (he : e ∈ s.child.entries) :
    ¬ (e.pos = p ∧ e.state ≠ .missing) := fun hs =>
  List.find?_eq_none.mp h e he (standsAt_iff.mpr hs)

/-- A tag has one entry (R69). -/
theorem TagsInv.unique {c : ChildUnit} (h : TagsInv c) {e f : Entry} (he : e ∈ c.entries) (hf : f ∈ c.entries)
    (ht : e.tag = f.tag) : e = f := List.inj_on_of_nodup_map h he hf ht

/-- A position has one entry that stands at it (R69, R76). -/
theorem OneStanding.unique {c : ChildUnit} (h : OneStanding c) {e f : Entry} (he : e ∈ c.entries) (hf : f ∈ c.entries)
    (hse : e.state ≠ .missing) (hsf : f.state ≠ .missing) (hp : e.pos = f.pos) : e = f := by
  have me : e ∈ c.entries.filter (standsAt f.pos) := List.mem_filter.mpr ⟨he, standsAt_iff.mpr ⟨hp, hse⟩⟩
  have mf : f ∈ c.entries.filter (standsAt f.pos) := List.mem_filter.mpr ⟨hf, standsAt_iff.mpr ⟨rfl, hsf⟩⟩
  obtain ⟨x, hx⟩ : ∃ x, c.entries.filter (standsAt f.pos) = [x] :=
    List.length_eq_one_iff.mp (Nat.le_antisymm (h f.pos) (List.length_pos_of_mem me))
  rw [hx, List.mem_singleton] at me mf
  rw [me, mf]

theorem OneStanding.standing {s : State} (h : OneStanding s.child) {e : Entry} (he : e ∈ s.child.entries)
    (hs : e.state ≠ .missing) : standing s e.pos = some e := by
  cases hf : Machine.standing s e.pos with
  | none => exact absurd ⟨rfl, hs⟩ (standing_none hf he)
  | some f =>
    obtain ⟨hm, hp, hn⟩ := standing_some hf
    rw [h.unique hm he hn hs hp]

/-- A change of the entries that keeps each tag keeps the tags apart. -/
theorem TagsInv.ofMap {c d : ChildUnit} (h : TagsInv c) {f : Entry → Entry} (hf : ∀ e, (f e).tag = e.tag)
    (hd : d.entries = c.entries.map f) : TagsInv d := by
  unfold TagsInv
  rw [hd, List.map_map, show (·.tag) ∘ f = (·.tag) from funext hf]
  exact h

/-- A change of the entries that makes no other one stand keeps at most one standing at each position. -/
theorem OneStanding.ofMap {c d : ChildUnit} (h : OneStanding c) {f : Entry → Entry}
    (hf : ∀ e, (f e).state ≠ .missing → f e = e) (hd : d.entries = c.entries.map f) : OneStanding d := by
  intro p
  have hle : ∀ l : List Entry, ((l.map f).filter (standsAt p)).length ≤ (l.filter (standsAt p)).length := by
    intro l
    induction l with
    | nil => exact Nat.le_refl _
    | cons e l ih =>
      rw [List.map_cons]
      by_cases hs : standsAt p (f e) = true
      · have he : f e = e := hf e (standsAt_iff.mp hs).2
        rw [List.filter_cons_of_pos hs, List.filter_cons_of_pos (by rwa [he] at hs)]
        exact Nat.succ_le_succ ih
      · rw [List.filter_cons_of_neg hs]
        exact ih.trans (List.Sublist.length_le ((List.sublist_cons_self e l).filter _))
  rw [hd]
  exact (hle c.entries).trans (h p)

/-! ### Contests -/

theorem setContest_coil (p : Pos) (x : Option TagId) (s : State) (q : Pos) : (setContest p x s).coil q
    = if q = p then { s.coil q with contest := x } else s.coil q := by
  unfold setContest
  rw [State.coil_onCoil]

theorem setContest_steady (p : Pos) (x : Option TagId) (s : State) : Steady s (setContest p x s) := ⟨rfl, rfl, rfl, rfl⟩

theorem dropContest_steady (p : Pos) (s : State) : Steady s (dropContest p s) :=
  (dropContest_changes p s).steady (dropContest_changes p s).quiet

theorem dropContest_coil (p : Pos) (s : State) (q : Pos) : (dropContest p s).coil q
    = if q = p then { s.coil q with contest := none, urgent := (s.coil q).urgent || coilFitted s q } else s.coil q := by
  unfold dropContest
  rw [raiseUrgent_coil, setContest_coil, (setContest_steady p none s).coilFitted]
  split <;> rfl

theorem dropContest_entries (p : Pos) (s : State) : (dropContest p s).child.entries = s.child.entries
    ∧ (dropContest p s).child.tagTimers = s.child.tagTimers := raiseUrgent_entries p _

theorem mem_contestedBy {s : State} {x : TagId} {p : Pos} : p ∈ contestedBy s x ↔ (s.coil p).contest = some x := by
  unfold contestedBy
  simp

theorem contestedBy_nodup (s : State) (x : TagId) : (contestedBy s x).Nodup := allPos_nodup.filter _

/-! ### An entry becomes MISSING (R72) -/

/-- The entry of a tag, made MISSING. -/
def missTag (x : TagId) (e : Entry) : Entry := if e.tag = x then { e with state := .missing } else e

theorem missTag_tag (x : TagId) (e : Entry) : (missTag x e).tag = e.tag := by
  unfold missTag
  split <;> rfl

theorem missTag_stands {x : TagId} {e : Entry} (h : (missTag x e).state ≠ .missing) : missTag x e = e := by
  unfold missTag at *
  split at h
  · exact absurd rfl h
  · rw [if_neg ‹_›]

theorem makeMissing_entries (x : TagId) (q : Pos) (c : Nat) (s : State) :
    (makeMissing x q c s).child.entries = s.child.entries.map (missTag x)
      ∧ (makeMissing x q c s).child.tagTimers = s.child.tagTimers := by
  obtain ⟨h1, h2⟩ := forEach_entries dropContest_entries (contestedBy s x)
    (onEntry x (fun e => { e with state := .missing }) s)
  exact ⟨h1, h2⟩

theorem makeMissing_coil (x : TagId) (q : Pos) (c : Nat) (s : State) (p : Pos) : (makeMissing x q c s).coil p
    = if (s.coil p).contest = some x then
        { s.coil p with contest := none, urgent := (s.coil p).urgent || coilFitted s p }
      else s.coil p := by
  have h := forEach_get State.coil
    (upd := fun q k => { k with contest := none, urgent := k.urgent || coilFitted s q }) (K := Steady s)
    (fun p _ hk => hk.trans (dropContest_steady p _)) (fun p t q hk => by rw [dropContest_coil, hk.coilFitted])
    (contestedBy s x) (onEntry x (fun e => { e with state := .missing }) s) (contestedBy_nodup s x) ⟨rfl, rfl, rfl, rfl⟩ p
  simp only [mem_contestedBy] at h
  exact h

/-- The notice of an entry that became MISSING enters a queue with room. -/
theorem makeMissing_waits {x : TagId} {q : Pos} {c : Nat} {s : State} (hk : kindClass s.settings.active 6 = 1)
    (hl : s.body.queue.length < 24) : ∃ e ∈ (makeMissing x q c s).body.queue, e.urgent = true
      ∧ e.notice = childNotice .childSeatMissing q q.num 0 x c := by
  have hc := (onEntry_changes x (fun e => { e with state := .missing }) s).andThen
    (changesOnly_forEach dropContest_changes (contestedBy s x) _)
  exact notify_waits (noticeUrgent_of_kindClass (by rw [hc.settings]; exact hk)) (by rw [hc.body]; exact hl)

/-! ### The queue grows by one notice at a time (R161) -/

theorem dropYoungestRoutine_length_le (q : List QueueEntry) : (dropYoungestRoutine q).length ≤ q.length := by
  unfold dropYoungestRoutine
  rw [List.length_reverse]
  exact (List.length_eraseP_le).trans_eq List.length_reverse

theorem Body.enter_queue_length_le (b : Body) (u : Bool) (n : Notice) :
    (b.enter u n).queue.length ≤ b.queue.length + 1 := by
  unfold Body.enter
  split
  · simp
  · split
    · simp
    · split
      · simp
      · split
        · have h := dropYoungestRoutine_length_le b.queue
          simpa using h
        · simp

theorem notify_queue_length_le (n : Notice) (s : State) :
    (notify n s).body.queue.length ≤ s.body.queue.length + 1 := Body.enter_queue_length_le _ _ _

theorem makeMissing_queue_length_le (x : TagId) (q : Pos) (c : Nat) (s : State) :
    (makeMissing x q c s).body.queue.length ≤ s.body.queue.length + 1 := by
  have hc := (onEntry_changes x (fun e => { e with state := .missing }) s).andThen
    (changesOnly_forEach dropContest_changes (contestedBy s x) _)
  have h := notify_queue_length_le (childNotice .childSeatMissing q q.num 0 x c)
    (forEach (contestedBy s x) dropContest (onEntry x (fun e => { e with state := .missing }) s))
  rwa [hc.body] at h

/-! ### All coils get an urgent request (R63) -/

theorem raiseAllUrgent_coil (s : State) (p : Pos) :
    (raiseAllUrgent s).coil p = { s.coil p with urgent := (s.coil p).urgent || coilFitted s p } := by
  have h := forEach_get State.coil (f := raiseUrgent) (upd := fun q k => { k with urgent := k.urgent || coilFitted s q })
    (K := Steady s)
    (fun p t hk => hk.trans ((raiseUrgent_changes p t).steady (raiseUrgent_changes p t).quiet))
    (fun p t q hk => by rw [raiseUrgent_coil, hk.coilFitted]) allPos s allPos_nodup (Steady.refl s) p
  rw [if_pos (mem_allPos p)] at h
  exact h

theorem raiseAllUrgent_entries (s : State) : (raiseAllUrgent s).child.entries = s.child.entries := by
  unfold raiseAllUrgent
  exact (forEach_entries raiseUrgent_entries allPos s).1

end Sys2Proof.Machine
end

section
/-! PROOFS. The end of the wake settle (R10, R22, R82, R83, R85, R115, R121, R172, R173). -/

namespace Sys2Proof.Machine

/-! ### PROVISIONAL entries of rows found ABSENT (R82) -/

/-- The entry is PROVISIONAL at a position whose row is ABSENT. -/
def Forsaken (s : State) (e : Entry) : Prop := e.state = .provisional ∧ (s.row e.pos.row).state = .absent

/-- What the end of the wake settle does for the entry standing at a position (R82). -/
def wakeEntry (p : Pos) (t : State) : State :=
  match standing t p with
  | some e =>
    if e.state = .provisional ∧ (t.row p.row).state = .absent then makeMissing e.tag p causeRowRemoved t else t
  | none => t

theorem childWake_eq (s : State) : childWake s = raiseAllUrgent (forEach allPos wakeEntry s) := rfl

theorem wakeEntry_changes (p : Pos) (s : State) : ChangesOnly [.child, .body] s (wakeEntry p s) := by
  unfold wakeEntry
  split
  · exact changesOnly_ite (makeMissing_changes _ _ _ s) (ChangesOnly.refl _ s)
  · exact ChangesOnly.refl _ s

theorem wakeEntry_quiet (p : Pos) (s : State) : Quiet s (wakeEntry p s) := by
  unfold wakeEntry
  split
  · exact quiet_ite (makeMissing_quiet _ p _ s) (Quiet.refl s)
  · exact Quiet.refl s

/-- A forsaken entry at the position becomes MISSING. -/
theorem wakeEntry_forsaken {s : State} (h : OneStanding s.child) {e : Entry} (he : e ∈ s.child.entries)
    (hf : Forsaken s e) : wakeEntry e.pos s = makeMissing e.tag e.pos causeRowRemoved s := by
  unfold wakeEntry
  rw [h.standing he (by rw [hf.1]; nofun)]
  exact if_pos hf

/-- Where no forsaken entry stands, nothing changes. -/
theorem wakeEntry_other {s : State} {p : Pos} (h : ∀ e ∈ s.child.entries, e.pos = p → ¬ Forsaken s e) :
    wakeEntry p s = s := by
  unfold wakeEntry
  split
  · rename_i e he
    obtain ⟨hm, rfl, _⟩ := standing_some he
    exact if_neg (h e hm rfl)
  · rfl

/-- The entry as it stands once the positions given were seen to: MISSING where it is forsaken at one of them. -/
def wokenEntry (s : State) (ps : List Pos) (e : Entry) : Entry :=
  if e.pos ∈ ps ∧ e.state = .provisional ∧ (s.row e.pos.row).state = .absent then { e with state := .missing } else e

theorem wokenEntry_nil (s : State) (e : Entry) : wokenEntry s [] e = e := if_neg (fun h => List.not_mem_nil h.1)

/-- One position seen to. -/
theorem wakeEntry_entries {s : State} (ht : TagsInv s.child) (h : OneStanding s.child) (p : Pos) :
    (wakeEntry p s).child.entries = s.child.entries.map (wokenEntry s [p]) := by
  by_cases hx : ∃ e ∈ s.child.entries, e.pos = p ∧ Forsaken s e
  · obtain ⟨e, he, rfl, hf⟩ := hx
    rw [wakeEntry_forsaken h he hf, (makeMissing_entries _ _ _ s).1]
    refine List.map_congr_left (fun x hx => ?_)
    unfold missTag wokenEntry
    refine if_congr ⟨fun htag => ?_, fun ⟨hp, hxf⟩ => ?_⟩ rfl rfl
    · rw [ht.unique hx he htag]
      exact ⟨List.mem_singleton_self _, hf⟩
    · rw [h.unique hx he (by rw [hxf.1]; nofun) (by rw [hf.1]; nofun) (List.mem_singleton.mp hp)]
  · have hn : ∀ e ∈ s.child.entries, e.pos = p → ¬ Forsaken s e := fun e he hp hf => hx ⟨e, he, hp, hf⟩
    rw [wakeEntry_other hn]
    refine ((List.map_congr_left (g := id) (fun e he => ?_)).trans (List.map_id _)).symm
    exact if_neg (fun hc => hn e he (List.mem_singleton.mp hc.1) hc.2)

theorem wokenEntry_cons (s : State) (p : Pos) (ps : List Pos) (e : Entry) :
    wokenEntry s ps (wokenEntry s [p] e) = wokenEntry s (p :: ps) e := by
  by_cases hf : e.state = .provisional ∧ (s.row e.pos.row).state = .absent
  · by_cases hp : e.pos = p
    · have h1 : wokenEntry s [p] e = { e with state := .missing } := if_pos ⟨hp ▸ List.mem_singleton_self _, hf⟩
      have h2 : wokenEntry s (p :: ps) e = { e with state := .missing } := if_pos ⟨hp ▸ List.mem_cons_self, hf⟩
      rw [h1, h2]
      exact if_neg (fun h => nomatch h.2.1)
    · have h1 : wokenEntry s [p] e = e := if_neg (fun h => hp (List.mem_singleton.mp h.1))
      rw [h1]
      exact if_congr ⟨fun h => ⟨List.mem_cons_of_mem _ h.1, h.2⟩,
        fun h => ⟨(List.mem_cons.mp h.1).resolve_left hp, h.2⟩⟩ rfl rfl
  · have hn : ∀ qs, wokenEntry s qs e = e := fun qs => if_neg (fun h => hf h.2)
    rw [hn, hn, hn]

theorem wokenEntry_congr {s t : State} (h : t.line = s.line) (ps : List Pos) : wokenEntry t ps = wokenEntry s ps := by
  unfold wokenEntry State.row
  rw [h]

theorem wokenEntry_tag (s : State) (ps : List Pos) (e : Entry) : (wokenEntry s ps e).tag = e.tag := by
  unfold wokenEntry
  split <;> rfl

theorem wokenEntry_stands {s : State} {ps : List Pos} {e : Entry} (h : (wokenEntry s ps e).state ≠ .missing) :
    wokenEntry s ps e = e := by
  unfold wokenEntry at *
  split at h
  · exact absurd rfl h
  · rw [if_neg ‹_›]

/-- Several positions seen to, in turn (R82). -/
theorem forEach_wakeEntry_entries (ps : List Pos) {s : State} (ht : TagsInv s.child) (h : OneStanding s.child) :
    (forEach ps wakeEntry s).child.entries = s.child.entries.map (wokenEntry s ps) := by
  induction ps generalizing s with
  | nil => exact ((List.map_congr_left (g := id) (fun e _ => wokenEntry_nil s e)).trans (List.map_id _)).symm
  | cons p ps ih =>
    show (forEach ps wakeEntry (wakeEntry p s)).child.entries = _
    have he := wakeEntry_entries ht h p
    rw [ih (ht.ofMap (wokenEntry_tag s [p]) he) (h.ofMap (fun _ => wokenEntry_stands) he), he, List.map_map,
      wokenEntry_congr (wakeEntry_changes p s).line]
    exact List.map_congr_left (fun e _ => wokenEntry_cons s p ps e)

/-- Each forsaken entry is noticed while the queue has room for one notice a position (R82, R161). -/
theorem forEach_wakeEntry_waits (ps : List Pos) {s : State} (ht : TagsInv s.child) (h : OneStanding s.child)
    (hk : kindClass s.settings.active 6 = 1) (hl : s.body.queue.length + ps.length ≤ 24) {e : Entry}
    (he : e ∈ s.child.entries) (hf : Forsaken s e) (hp : e.pos ∈ ps) :
    ∃ x ∈ (forEach ps wakeEntry s).body.queue, x.urgent = true
      ∧ x.notice = childNotice .childSeatMissing e.pos e.pos.num 0 e.tag causeRowRemoved := by
  induction ps generalizing s with
  | nil => exact absurd hp List.not_mem_nil
  | cons p ps ih =>
    show ∃ x ∈ (forEach ps wakeEntry (wakeEntry p s)).body.queue, _
    rw [List.length_cons] at hl
    have hc := wakeEntry_changes p s
    by_cases hep : e.pos = p
    · refine (quiet_forEach wakeEntry_quiet ps _).waits ?_
      rw [← hep, wakeEntry_forsaken h he hf]
      exact makeMissing_waits hk (by omega)
    · have hent := wakeEntry_entries ht h p
      have hlen : (wakeEntry p s).body.queue.length ≤ s.body.queue.length + 1 := by
        unfold wakeEntry
        split
        · split
          · exact makeMissing_queue_length_le _ _ _ s
          · exact Nat.le_succ _
        · exact Nat.le_succ _
      refine ih (ht.ofMap (wokenEntry_tag s [p]) hent) (h.ofMap (fun _ => wokenEntry_stands) hent)
        (by rw [hc.settings]; exact hk) (by omega) ?_ ⟨hf.1, ?_⟩ ((List.mem_cons.mp hp).resolve_left hep)
      · rw [hent]
        exact List.mem_map.mpr ⟨e, he, if_neg (fun hm => hep (List.mem_singleton.mp hm.1))⟩
      · unfold State.row
        rw [hc.line]
        exact hf.2

/-! ### The wake settle ends -/

/-- The part gone live, its positions and reminders at their wake values, before the child seat list is seen to. -/
def wokeUp (s : State) : State :=
  { goLive s.pins.ignLine s with
    cls := (goLive s.pins.ignLine s).cls.mapIdx (fun _ c => c.wake)
    load := (goLive s.pins.ignLine s).load.mapIdx (fun _ l => l.leaveOnline)
    rem := PerPos.all Reminder.reset }

theorem endWakeSettle_eq {s : State} {n : Nat} (h : s.monitor.device = .sleep) (hw : s.monitor.wakeSettle = some n) :
    endWakeSettle s = evaluateStart (childWake (wokeUp s)) := by
  have hs : settling s = true := by simp [settling, h, hw]
  exact if_pos hs

theorem exec_endOfWakeSettle {s : State} {n : Nat} (hr : s.monitor.inReset = false) (h : s.monitor.device = .sleep)
    (hw : s.monitor.wakeSettle = some n) :
    exec .endOfWakeSettle s = .next (evaluateStart (childWake (wokeUp s))) := by
  rw [← endWakeSettle_eq h hw]
  show Host.Outcome.next (outsideReset s endWakeSettle) = _
  unfold outsideReset
  rw [if_neg (by simp [hr])]

/-- The rest timer that runs from its full time runs from there after a quiet event too. -/
theorem Quiet.restTimer {s t : State} (h : Quiet s t)
    (hr : s.monitor.device = .rest → s.monitor.restTimer = some (restTime s)) :
    t.monitor.restTimer = s.monitor.restTimer := by
  obtain e | e := h.monitor <;> rw [e]
  rw [restartRest_monitor]
  split
  · rename_i hd
    exact (hr hd).symm
  · rfl

theorem wokeUp_row (s : State) (r : Row) : (wokeUp s).row r = rebuildRow s r (s.row r) := goLive_row _ _ r

theorem wokeUp_changes (s : State) : ChangesOnly [.monitor, .line, .load, .cls, .rem, .cadence, .body] s (wokeUp s) := by
  intro b hb
  have h := goLive_changes s.pins.ignLine s b
  cases b
  case load | cls | rem => exact absurd (by decide) hb
  all_goals exact h (fun hm => hb (by revert hm; decide))

theorem wokeUp_restTimer (s : State) :
    (wokeUp s).monitor.restTimer = if s.pins.ignLine then none else some (restTime s) := rfl

theorem childWake_coil (s : State) (p : Pos) (h : coilFitted s p = true) : ((childWake s).coil p).urgent = true := by
  have hst : Steady s (forEach allPos wakeEntry s) :=
    (changesOnly_forEach wakeEntry_changes allPos s).steady (quiet_forEach wakeEntry_quiet allPos s)
  rw [childWake_eq, raiseAllUrgent_coil, hst.coilFitted, h]
  exact Bool.or_true _

theorem childWake_entries {s : State} (ht : TagsInv s.child) (h : OneStanding s.child) :
    (childWake s).child.entries = s.child.entries.map (wokenEntry s allPos) := by
  rw [childWake_eq, raiseAllUrgent_entries, forEach_wakeEntry_entries allPos ht h]

theorem childWake_waits {s : State} (ht : TagsInv s.child) (h : OneStanding s.child)
    (hk : kindClass s.settings.active 6 = 1) (hq : s.body.queue = []) {e : Entry} (he : e ∈ s.child.entries)
    (hf : Forsaken s e) : ∃ x ∈ (childWake s).body.queue, x.urgent = true
      ∧ x.notice = childNotice .childSeatMissing e.pos e.pos.num 0 e.tag causeRowRemoved := by
  rw [childWake_eq]
  exact (raiseAllUrgent_changes _).quiet.waits
    (forEach_wakeEntry_waits allPos ht h hk (by rw [hq]; decide) he hf (mem_allPos e.pos))

end Sys2Proof.Machine

namespace Sys2Proof.Certificates

open Sys2Proof.Machine

/-- Settles O15: the part goes live with its positions and reminders at their wake values, the list is seen to, and the
evaluations settle, publish and step the reminders once. -/
theorem wakeSettleEnds : Obligations.WakeSettleEnds := by
  intro s n hr hd hw hl hone
  have hc1 := childWake_changes (wokeUp s)
  have hc := evaluateStart_changes (childWake (wokeUp s))
  have hq := (childWake_quiet (wokeUp s)).andThen (evaluateStart_quiet (childWake (wokeUp s)))
  have hline : (evaluateStart (childWake (wokeUp s))).line = (wokeUp s).line := hc.line.trans hc1.line
  have hrow : ∀ r, (evaluateStart (childWake (wokeUp s))).row r = (wokeUp s).row r := fun r => by
    unfold State.row
    rw [hline]
  have hreb : ∀ r, RebuiltRow s r ((evaluateStart (childWake (wokeUp s))).row r) := fun r => by
    rw [hrow, wokeUp_row]
    exact rebuildRow_rebuilt s r _
  have hcls : ∀ p, posFitted s p = true → (evaluateStart (childWake (wokeUp s))).cls.get p
      = { ClassState.reset (s.cls.get p).settled with
          previous := some (startRecord (evaluateStart (childWake (wokeUp s))) p)
          settled := startRecord (evaluateStart (childWake (wokeUp s))) p } := fun p hf => by
    have hstate : ((childWake (wokeUp s)).row p.row).state = .absent
        ∨ ((childWake (wokeUp s)).row p.row).state = .probing := by
      have h := (hreb p.row).state
      unfold State.row at *
      rwa [hc.line] at h
    have hfit : posFitted (childWake (wokeUp s)) p = true := (posFitted_congr hc1.straps p).trans hf
    have ha : awake (childWake (wokeUp s)) = true := (childWake_quiet _).awake.trans (goLive_awake _ s)
    rw [evaluateStart_cls hfit ha hstate, hc1.cls]
    show ({ ((wokeUp s).cls.get p) with
      previous := _, settled := _, dwell := 0 } : ClassState) = _
    rw [show (wokeUp s).cls.get p = (s.cls.get p).wake from PerPos.get_mapIdx _ _ p]
    rfl
  have hrem : ∀ p, (childWake (wokeUp s)).rem.get p = Reminder.reset := fun p => by
    rw [hc1.rem]
    exact PerPos.get_all _ p
  refine ⟨_, exec_endOfWakeSettle hr hd hw, hq.device, hq.ign, ?_, hq.seconds, ?_, hq.hold.trans (goLive_hold _ s), ?_, ?_,
    hq.mapTimer.trans (goLive_mapTimer _ s), hreb, fun p hf => ?_, fun p hh => ?_, fun p hh => ?_, fun ht => ?_,
    fun hqe hk ht e he hp ha => ?_, fun p hf => ?_, ?_⟩
  · rw [hq.monitor_rest]
    rfl
  · refine (hq.restTimer (fun h => ?_)).trans (wokeUp_restTimer s)
    rw [wokeUp_restTimer]
    have hign : s.pins.ignLine = false := by
      cases hi : s.pins.ignLine
      · rfl
      · have h' : (if s.pins.ignLine then Device.run else .rest) = .rest := h
        rw [hi] at h'
        nomatch h'
    rw [hign]
    rfl
  · rw [hline]
    exact (goLive_line _ s).1
  · rw [hline]
    exact (goLive_line _ s).2
  · rw [evaluateStart_table (s := childWake (wokeUp s)) (by rw [hc1.pub]; exact hl), hcls p hf, hc.load, hc1.load,
      show (wokeUp s).load.get p = (s.load.get p).leaveOnline from PerPos.get_mapIdx _ _ p]
    exact ⟨rfl, rfl, rfl, rfl, rfl, rfl⟩
  · rw [(evaluateStart_rem (childWake (wokeUp s)) p).1 hh, hrem]
    rfl
  · rw [(evaluateStart_rem (childWake (wokeUp s)) p).2 hh (by rw [hrem]; exact ⟨by decide, by decide⟩), hrem]
    rfl
  · rw [hc.child, childWake_entries (s := wokeUp s) ht hone]
    refine List.map_congr_left (fun e _ => if_congr ?_ rfl rfl)
    rw [hrow]
    exact ⟨fun h => h.2, fun h => ⟨mem_allPos _, h⟩⟩
  · rw [hrow] at ha
    exact waits_of_urgent ((evaluateStart_quiet _).waits (childWake_waits (s := wokeUp s) ht hone hk
      ((goLive_queue _ s).trans hqe) he ⟨hp, ha⟩))
  · unfold State.coil
    rw [hc.child]
    exact childWake_coil (wokeUp s) p ((sensorFlag_congr rfl rfl 2).trans hf)
  · exact ((wokeUp_changes s).widen.andThen hc1).andThen hc

end Sys2Proof.Certificates
end

section
/-! PROOFS. An entry vacates its position (R73): what the chain of displacements leaves alone, and where the first entry of it
comes to stand. -/

namespace Sys2Proof.Machine

/-! ### Contests are only cleared -/

/-- From `s` to `t` each coil keeps its timers and marks, and its contest stands or clears. -/
def ContestsClear (s t : State) : Prop := ∀ p, ((t.coil p).scan = (s.coil p).scan ∧ (t.coil p).due = (s.coil p).due
  ∧ (t.coil p).faults = (s.coil p).faults ∧ (t.coil p).unknown = (s.coil p).unknown)
  ∧ ((t.coil p).contest = (s.coil p).contest ∨ (t.coil p).contest = none)

theorem ContestsClear.refl (s : State) : ContestsClear s s := fun _ => ⟨⟨rfl, rfl, rfl, rfl⟩, .inl rfl⟩

theorem ContestsClear.trans {s t u : State} (h1 : ContestsClear s t) (h2 : ContestsClear t u) : ContestsClear s u := by
  intro p
  obtain ⟨⟨a1, a2, a3, a4⟩, a5⟩ := h1 p
  obtain ⟨⟨b1, b2, b3, b4⟩, b5⟩ := h2 p
  refine ⟨⟨b1.trans a1, b2.trans a2, b3.trans a3, b4.trans a4⟩, ?_⟩
  obtain b5 | b5 := b5
  · rw [b5]
    exact a5
  · exact .inr b5

theorem ContestsClear.none {s t : State} (h : ContestsClear s t) {p : Pos} (hp : (s.coil p).contest = none) :
    (t.coil p).contest = none := (h p).2.elim (fun e => e.trans hp) id

theorem contestsClear_of_coil {s t : State} (h : ∀ p, t.coil p = s.coil p) : ContestsClear s t := fun p => by
  rw [h p]
  exact ⟨⟨rfl, rfl, rfl, rfl⟩, .inl rfl⟩

theorem raiseUrgent_contest (p : Pos) (s : State) (q : Pos) : ((raiseUrgent p s).coil q).contest = (s.coil q).contest := by
  rw [raiseUrgent_coil]
  split <;> rfl

theorem raiseUrgent_contestsClear (p : Pos) (s : State) : ContestsClear s (raiseUrgent p s) := fun q => by
  rw [raiseUrgent_coil]
  split <;> exact ⟨⟨rfl, rfl, rfl, rfl⟩, .inl rfl⟩

theorem setContest_contestsClear (p : Pos) (s : State) : ContestsClear s (setContest p none s) := fun q => by
  rw [setContest_coil]
  split
  · exact ⟨⟨rfl, rfl, rfl, rfl⟩, .inr rfl⟩
  · exact ⟨⟨rfl, rfl, rfl, rfl⟩, .inl rfl⟩

theorem makeMissing_contestsClear (x : TagId) (q : Pos) (c : Nat) (s : State) :
    ContestsClear s (makeMissing x q c s) := fun p => by
  rw [makeMissing_coil]
  split
  · exact ⟨⟨rfl, rfl, rfl, rfl⟩, .inr rfl⟩
  · exact ⟨⟨rfl, rfl, rfl, rfl⟩, .inl rfl⟩

/-! ### The steps of the chain -/

/-- The entry standing at q that is not itself on the move (R73). -/
def vacating (m : List TagId) (q : Pos) (s : State) : Option Entry :=
  s.child.entries.find? (fun e => standsAt q e && !m.contains e.tag)

theorem vacating_some {m : List TagId} {q : Pos} {s : State} {e : Entry} (h : vacating m q s = some e) :
    e ∈ s.child.entries ∧ standsAt q e = true ∧ e.tag ∉ m := by
  have hp := List.find?_some h
  simp only [Bool.and_eq_true, Bool.not_eq_true', List.contains_eq_mem, decide_eq_false_iff_not] at hp
  exact ⟨List.mem_of_find?_eq_some h, hp.1, hp.2⟩

/-- The entry of a tag, placed. -/
def placeTag (x : TagId) (p : Pos) (n : BitVec 32) (e : Entry) : Entry :=
  if e.tag = x then { e with pos := p, state := .present, confirmed := n } else e

/-- X has come to stand at p, whose place was made free before: the contest there ends, the move is noticed, and the
contests of X that remain ask for a scan at p (R73). -/
def movedTo (x : TagId) (q p : Pos) (cause : Nat) (s : State) : State :=
  if contestedBy (notify (childNotice .childSeatMoved p q.num p.num x cause) (setContest p none (placeEntry x p s))) x = []
  then notify (childNotice .childSeatMoved p q.num p.num x cause) (setContest p none (placeEntry x p s))
  else raiseUrgent p (notify (childNotice .childSeatMoved p q.num p.num x cause) (setContest p none (placeEntry x p s)))

theorem movedTo_entries (x : TagId) (q p : Pos) (cause : Nat) (s : State) :
    (movedTo x q p cause s).child.entries = s.child.entries.map (placeTag x p s.monitor.seconds) := by
  unfold movedTo
  split
  · rfl
  · exact (raiseUrgent_entries p _).1

theorem movedTo_contestsClear (x : TagId) (q p : Pos) (cause : Nat) (s : State) :
    ContestsClear s (movedTo x q p cause s) := by
  have h : ContestsClear s (notify (childNotice .childSeatMoved p q.num p.num x cause)
      (setContest p none (placeEntry x p s))) :=
    (contestsClear_of_coil (fun _ => rfl)).trans ((setContest_contestsClear p (placeEntry x p s)).trans
      (contestsClear_of_coil (fun _ => rfl)))
  unfold movedTo
  split
  · exact h
  · exact h.trans (raiseUrgent_contestsClear p _)

/-- The contest at a place elsewhere stands through the move. -/
theorem movedTo_contest (x : TagId) (q p : Pos) (cause : Nat) (s : State) (z : Pos) :
    ((movedTo x q p cause s).coil z).contest = if z = p then none else (s.coil z).contest := by
  have h : ((notify (childNotice .childSeatMoved p q.num p.num x cause)
      (setContest p none (placeEntry x p s))).coil z).contest = if z = p then none else (s.coil z).contest := by
    show ((setContest p none (placeEntry x p s)).coil z).contest = _
    rw [setContest_coil]
    split <;> rfl
  unfold movedTo
  split
  · exact h
  · exact (raiseUrgent_contest p _ z).trans h

theorem vacate_nobody {n : Nat} {m : List TagId} {q : Pos} {v : Vacating} {s : State} (h : vacating m q s = none) :
    vacate (n + 1) m q v s = s := by
  unfold vacating at h
  unfold vacate
  rw [h]

theorem vacate_stays {n : Nat} {m : List TagId} {q : Pos} {v : Vacating} {s : State} {e : Entry}
    (h : vacating m q s = some e) (hc : contestedBy s e.tag = []) (hv : v.missing = none) :
    vacate (n + 1) m q v s = s := by
  unfold vacating at h
  unfold vacate
  rw [h]
  dsimp only
  rw [hc, hv]

theorem vacate_misses {n : Nat} {m : List TagId} {q : Pos} {v : Vacating} {s : State} {e : Entry}
    (h : vacating m q s = some e) (hc : contestedBy s e.tag = []) {c : Nat} (hv : v.missing = some c) :
    vacate (n + 1) m q v s = makeMissing e.tag q c s := by
  unfold vacating at h
  unfold vacate
  rw [h]
  dsimp only
  rw [hc, hv]

theorem vacate_contested {n : Nat} {m : List TagId} {q : Pos} {v : Vacating} {s : State} {e : Entry} {p : Pos}
    {ps : List Pos} (h : vacating m q s = some e) (hc : contestedBy s e.tag = p :: ps) :
    vacate (n + 1) m q v s
      = movedTo e.tag q p v.moved (vacate n (e.tag :: m) p ⟨v.moved, some causeDisplaced⟩ s) := by
  unfold vacating at h
  conv_lhs => unfold vacate
  rw [h]
  dsimp only
  rw [hc]
  rfl

/-- The chain's steps: what every property of `vacate` is proved by. -/
theorem vacate_induct {P : Nat → List TagId → Pos → Vacating → State → State → Prop}
    (same : ∀ n m q v s, P n m q v s s)
    (missing : ∀ n m q v s e c, vacating m q s = some e → contestedBy s e.tag = [] →
      P (n + 1) m q v s (makeMissing e.tag q c s))
    (moves : ∀ n m q v s e p ps t, vacating m q s = some e → contestedBy s e.tag = p :: ps →
      P n (e.tag :: m) p ⟨v.moved, some causeDisplaced⟩ s t → P (n + 1) m q v s (movedTo e.tag q p v.moved t)) :
    ∀ n m q v s, P n m q v s (vacate n m q v s) := by
  intro n
  induction n with
  | zero => exact fun m q v s => same 0 m q v s
  | succ n ih =>
    intro m q v s
    cases hv : vacating m q s with
    | none =>
      rw [vacate_nobody hv]
      exact same _ m q v s
    | some e =>
      cases hc : contestedBy s e.tag with
      | nil =>
        cases hm : v.missing with
        | none =>
          rw [vacate_stays hv hc hm]
          exact same _ m q v s
        | some c =>
          rw [vacate_misses hv hc hm]
          exact missing n m q v s e c hv hc
      | cons p ps =>
        rw [vacate_contested hv hc]
        exact moves n m q v s e p ps _ hv hc (ih _ _ _ s)

theorem vacate_contestsClear (n : Nat) (m : List TagId) (q : Pos) (v : Vacating) (s : State) :
    ContestsClear s (vacate n m q v s) :=
  vacate_induct (P := fun _ _ _ _ s t => ContestsClear s t) (fun _ _ _ _ s => ContestsClear.refl s)
    (fun _ _ q _ s e c _ _ => makeMissing_contestsClear e.tag q c s)
    (fun _ _ q v _ e p _ t _ _ ih => ih.trans (movedTo_contestsClear e.tag q p v.moved t)) n m q v s

/-! ### Who stands aside -/

/-- The tag's entry is none of the chain's: it is on the move already, or it does not stand at the place that is vacated and
stands, where it does, at a place that is not contested. -/
def Aside (m : List TagId) (q : Pos) (s : State) (y : TagId) : Prop :=
  y ∈ m ∨ ∀ e ∈ s.child.entries, e.tag = y → e.state ≠ .missing → e.pos ≠ q ∧ (s.coil e.pos).contest = none

theorem Aside.ne {m : List TagId} {q : Pos} {s : State} {y : TagId} (h : Aside m q s y) {e : Entry}
    (he : vacating m q s = some e) : e.tag ≠ y := by
  obtain ⟨hm, hs, hn⟩ := vacating_some he
  obtain ⟨hp, hst⟩ := standsAt_iff.mp hs
  rintro rfl
  obtain h | h := h
  · exact hn h
  · exact (h e hm rfl hst).1 hp

theorem Aside.next {m : List TagId} {q p : Pos} {s : State} {y : TagId} (h : Aside m q s y) {x : TagId}
    (hp : (s.coil p).contest = some x) : Aside (x :: m) p s y := by
  obtain h | h := h
  · exact .inl (List.mem_cons_of_mem _ h)
  · refine .inr (fun e he ht hst => ?_)
    obtain ⟨_, hc⟩ := h e he ht hst
    refine ⟨?_, hc⟩
    rintro rfl
    rw [hp] at hc
    nomatch hc

theorem contestedBy_head {s : State} {x : TagId} {p : Pos} {ps : List Pos} (h : contestedBy s x = p :: ps) :
    (s.coil p).contest = some x := mem_contestedBy.mp (h ▸ List.mem_cons_self)

theorem mem_map_iff_of_fixed {f : Entry → Entry} {l : List Entry} {e : Entry} (ht : ∀ x, (f x).tag = x.tag)
    (hf : ∀ x, x.tag = e.tag → f x = x) : e ∈ l.map f ↔ e ∈ l := by
  rw [List.mem_map]
  constructor
  · rintro ⟨x, hx, rfl⟩
    rwa [hf x (ht x).symm]
  · exact fun he => ⟨e, he, hf e rfl⟩

theorem placeTag_tag (x : TagId) (p : Pos) (n : BitVec 32) (e : Entry) : (placeTag x p n e).tag = e.tag := by
  unfold placeTag
  split <;> rfl

/-- A tag that stands aside keeps its entries and the contests that name it (R73). -/
theorem vacate_aside (n : Nat) (m : List TagId) (q : Pos) (v : Vacating) (s : State) : ∀ y, Aside m q s y →
    (∀ e : Entry, e.tag = y → (e ∈ (vacate n m q v s).child.entries ↔ e ∈ s.child.entries))
      ∧ ∀ p, ((vacate n m q v s).coil p).contest = some y ↔ (s.coil p).contest = some y := by
  refine vacate_induct (P := fun _ m q _ s t => ∀ y, Aside m q s y →
    (∀ e : Entry, e.tag = y → (e ∈ t.child.entries ↔ e ∈ s.child.entries))
      ∧ ∀ p, (t.coil p).contest = some y ↔ (s.coil p).contest = some y) ?_ ?_ ?_ n m q v s
  · exact fun _ _ _ _ _ _ _ => ⟨fun _ _ => Iff.rfl, fun _ => Iff.rfl⟩
  · intro _ m q _ s e c hv _ y hy
    have hne := hy.ne hv
    refine ⟨fun f hf => ?_, fun p => ?_⟩
    · rw [(makeMissing_entries e.tag q c s).1]
      exact mem_map_iff_of_fixed (missTag_tag e.tag) (fun x hx => if_neg (fun h => hne (h.symm.trans (hx.trans hf))))
    · rw [makeMissing_coil]
      split
      · rename_i hp
        simp [hp, hne]
      · exact Iff.rfl
  · intro _ m q v s e p ps t hv hc ih y hy
    have hne := hy.ne hv
    have hp := contestedBy_head hc
    obtain ⟨ih1, ih2⟩ := ih y (hy.next hp)
    refine ⟨fun f hf => ?_, fun z => ?_⟩
    · rw [movedTo_entries, ← ih1 f hf]
      exact mem_map_iff_of_fixed (placeTag_tag e.tag p _) (fun x hx => if_neg (fun h => hne (h.symm.trans (hx.trans hf))))
    · rw [movedTo_contest, ← ih2]
      split
      · rename_i hz
        have hn : ¬ (t.coil z).contest = some y := fun h => by
          have := (ih2 z).mp h
          rw [hz, hp] at this
          exact hne (Option.some.inj this)
        simp [hn]
      · exact Iff.rfl

/-- Nothing comes to stand at a place that is not contested (R73). -/
theorem vacate_uncontested_place (n : Nat) (m : List TagId) (q : Pos) (v : Vacating) (s : State) :
    ∀ z, (s.coil z).contest = none → ∀ f ∈ (vacate n m q v s).child.entries, standsAt z f = true →
      f ∈ s.child.entries := by
  refine vacate_induct (P := fun _ _ _ _ s t => ∀ z, (s.coil z).contest = none → ∀ f ∈ t.child.entries,
    standsAt z f = true → f ∈ s.child.entries) ?_ ?_ ?_ n m q v s
  · exact fun _ _ _ _ _ _ _ _ hf _ => hf
  · intro _ _ q _ s e c _ _ z _ f hf hs
    rw [(makeMissing_entries e.tag q c s).1, List.mem_map] at hf
    obtain ⟨x, hx, rfl⟩ := hf
    rwa [missTag_stands (standsAt_iff.mp hs).2]
  · intro _ _ q v s e p ps t _ hc ih z hz f hf hs
    rw [movedTo_entries, List.mem_map] at hf
    obtain ⟨x, hx, rfl⟩ := hf
    have hzp : z ≠ p := by
      rintro rfl
      rw [contestedBy_head hc] at hz
      nomatch hz
    by_cases ht : x.tag = e.tag
    · have hpos : (placeTag e.tag p t.monitor.seconds x).pos = p := by rw [placeTag, if_pos ht]
      exact absurd ((standsAt_iff.mp hs).1.symm.trans hpos) hzp
    · have hx' : placeTag e.tag p t.monitor.seconds x = x := if_neg ht
      rw [hx'] at hs ⊢
      exact ih z hz x hx hs

end Sys2Proof.Machine
end

section
/-! PROOFS. A row is removed (R13, R36, R73, R80, R133). -/

namespace Sys2Proof.Machine

/-! ### An entry that the chain leaves, and the one it begins with -/

/-- The entry is its tag's only one and stands, where it does, at a place that is not contested. -/
structure Rests (s : State) (e : Entry) : Prop where
  mem : e ∈ s.child.entries
  sole : ∀ f ∈ s.child.entries, f.tag = e.tag → f = e
  free : e.state ≠ .missing → (s.coil e.pos).contest = none

/-- No other entry stands at the entry's place. -/
def Alone (s : State) (e : Entry) : Prop := ∀ f ∈ s.child.entries, standsAt e.pos f = true → f = e

theorem Rests.aside {s : State} {e : Entry} (h : Rests s e) {q : Pos} (hq : e.state ≠ .missing → e.pos ≠ q)
    (m : List TagId) : Aside m q s e.tag := by
  refine .inr (fun f hf ht hs => ?_)
  obtain rfl := h.sole f hf ht
  exact ⟨hq hs, h.free hs⟩

theorem Rests.vacate {s : State} {e : Entry} (h : Rests s e) {q : Pos} (hq : e.state ≠ .missing → e.pos ≠ q) (n : Nat)
    (m : List TagId) (v : Vacating) : Rests (Machine.vacate n m q v s) e := by
  obtain ⟨he, _⟩ := vacate_aside n m q v s e.tag (h.aside hq m)
  exact ⟨(he e rfl).mpr h.mem, fun f hf ht => h.sole f ((he f ht).mp hf) ht,
    fun hs => (vacate_contestsClear n m q v s).none (h.free hs)⟩

theorem Rests.contestedBy_vacate {s : State} {e : Entry} (h : Rests s e) {q : Pos}
    (hq : e.state ≠ .missing → e.pos ≠ q) (n : Nat) (m : List TagId) (v : Vacating) :
    contestedBy (Machine.vacate n m q v s) e.tag = contestedBy s e.tag := by
  obtain ⟨_, hc⟩ := vacate_aside n m q v s e.tag (h.aside hq m)
  unfold contestedBy
  refine List.filter_congr (fun p _ => ?_)
  exact Bool.eq_iff_iff.mpr (by simpa using hc p)

theorem Rests.alone_vacate {s : State} {e : Entry} (h : Rests s e) (ha : Alone s e) (hs : e.state ≠ .missing) (n : Nat)
    (m : List TagId) (q : Pos) (v : Vacating) : Alone (Machine.vacate n m q v s) e := fun f hf hst =>
  ha f (vacate_uncontested_place n m q v s e.pos (h.free hs) f hf hst) hst

theorem Rests.vacating {s : State} {e : Entry} (h : Rests s e) (ha : Alone s e) (hs : e.state ≠ .missing) :
    Machine.vacating [] e.pos s = some e := by
  cases hv : Machine.vacating [] e.pos s with
  | none =>
    unfold Machine.vacating at hv
    have hn := List.find?_eq_none.mp hv e h.mem
    simp only [standsAt_iff.mpr ⟨rfl, hs⟩, List.contains_nil, Bool.not_false, Bool.and_self, not_true_eq_false] at hn
  | some f =>
    obtain ⟨hm, hf, _⟩ := vacating_some hv
    rw [ha f hm hf]

/-- An entry whose tag contests no place becomes MISSING when it vacates its own (R73, R80). -/
theorem Rests.missing {s : State} {e : Entry} (h : Rests s e) (ha : Alone s e) (hs : e.state ≠ .missing)
    (hc : contestedBy s e.tag = []) (n moved cause : Nat) :
    Rests (Machine.vacate (n + 1) [] e.pos ⟨moved, some cause⟩ s) { e with state := .missing } := by
  rw [vacate_misses (h.vacating ha hs) hc rfl]
  have hent := (makeMissing_entries e.tag e.pos cause s).1
  have hmiss : missTag e.tag e = { e with state := .missing } := if_pos rfl
  refine ⟨?_, fun f hf ht => ?_, fun hn => absurd rfl hn⟩
  · rw [hent, List.mem_map]
    exact ⟨e, h.mem, hmiss⟩
  · rw [hent, List.mem_map] at hf
    obtain ⟨x, hx, rfl⟩ := hf
    rw [h.sole x hx ((missTag_tag _ _).symm.trans ht), hmiss]

/-- An entry that vacates its place stands afterwards at the lowest place that its tag contested, and no contest is left
there (R73). -/
theorem Rests.moved {s : State} {e : Entry} (h : Rests s e) (ha : Alone s e) (hs : e.state ≠ .missing) {p : Pos}
    {ps : List Pos} (hc : contestedBy s e.tag = p :: ps) (n : Nat) (v : Vacating) :
    Rests (Machine.vacate (n + 1) [] e.pos v s)
      { e with state := .present, pos := p, confirmed := s.monitor.seconds } := by
  rw [vacate_contested (h.vacating ha hs) hc]
  generalize hu : Machine.vacate n [e.tag] p ⟨v.moved, some causeDisplaced⟩ s = u
  obtain ⟨he, _⟩ := vacate_aside n [e.tag] p ⟨v.moved, some causeDisplaced⟩ s e.tag (.inl (List.mem_singleton_self _))
  rw [hu] at he
  have hsec : u.monitor.seconds = s.monitor.seconds := by
    rw [← hu, (vacate_changes n [e.tag] p _ s).monitor]
  have hent := movedTo_entries e.tag e.pos p v.moved u
  rw [hsec] at hent
  have hplace : placeTag e.tag p s.monitor.seconds e
      = { e with state := .present, pos := p, confirmed := s.monitor.seconds } := if_pos rfl
  refine ⟨?_, fun f hf ht => ?_, fun _ => ?_⟩
  · rw [hent, List.mem_map]
    exact ⟨e, (he e rfl).mpr h.mem, hplace⟩
  · rw [hent, List.mem_map] at hf
    obtain ⟨x, hx, rfl⟩ := hf
    have hxt : x.tag = e.tag := (placeTag_tag _ _ _ _).symm.trans ht
    rw [h.sole x ((he x hxt).mp hx) hxt, hplace]
  · rw [movedTo_contest, if_pos rfl]

/-! ### Several places vacated in turn -/

theorem Rests.vacates {v : Vacating} (l : List Pos) {s : State} {e : Entry} (h : Rests s e)
    (hl : e.state ≠ .missing → e.pos ∉ l) : Rests (forEach l (fun p => Machine.vacates p v) s) e := by
  induction l generalizing s with
  | nil => exact h
  | cons q l ih =>
    exact ih (h.vacate (fun hs hq => hl hs (hq ▸ List.mem_cons_self)) 16 [] v)
      (fun hs hm => hl hs (List.mem_cons_of_mem q hm))

/-- Where the entry of a vacated place ends when the places of a row are vacated in turn. -/
theorem Rests.vacates_row {moved cause : Nat} (l : List Pos) {s : State} {e : Entry} (hn : l.Nodup) (h : Rests s e)
    (ha : Alone s e) (hs : e.state ≠ .missing) (hm : e.pos ∈ l) :
    (contestedBy s e.tag = [] →
      Rests (forEach l (fun p => Machine.vacates p ⟨moved, some cause⟩) s) { e with state := .missing })
    ∧ ∀ p ps, contestedBy s e.tag = p :: ps → p ∉ l →
      Rests (forEach l (fun p => Machine.vacates p ⟨moved, some cause⟩) s)
        { e with state := .present, pos := p, confirmed := s.monitor.seconds } := by
  induction l generalizing s with
  | nil => exact absurd hm List.not_mem_nil
  | cons q l ih =>
    obtain ⟨hql, hln⟩ := List.nodup_cons.mp hn
    by_cases hq : e.pos = q
    · subst hq
      refine ⟨fun hc => ?_, fun p ps hc hp => ?_⟩
      · exact Rests.vacates l (h.missing ha hs hc 15 moved cause) (fun hx => absurd rfl hx)
      · exact Rests.vacates l (h.moved ha hs hc 15 ⟨moved, some cause⟩)
          (fun _ hx => hp (List.mem_cons_of_mem _ hx))
    · have hne : e.state ≠ .missing → e.pos ≠ q := fun _ => hq
      have hsec : (Machine.vacate 16 [] q ⟨moved, some cause⟩ s).monitor.seconds = s.monitor.seconds := by
        rw [(vacate_changes 16 [] q _ s).monitor]
      obtain ⟨i1, i2⟩ := ih (s := Machine.vacate 16 [] q ⟨moved, some cause⟩ s) hln (h.vacate hne 16 [] _)
        (h.alone_vacate ha hs 16 [] q _) ((List.mem_cons.mp hm).resolve_left hq)
      rw [h.contestedBy_vacate hne] at i1 i2
      rw [hsec] at i2
      exact ⟨i1, fun p ps hc hp => i2 p ps hc (fun hx => hp (List.mem_cons_of_mem _ hx))⟩

theorem vacates_contestsClear (v : Vacating) : ∀ (l : List Pos) (s : State),
    ContestsClear s (forEach l (fun p => vacates p v) s)
  | [], s => ContestsClear.refl s
  | q :: l, s => (vacate_contestsClear 16 [] q v s).trans (vacates_contestsClear v l _)

/-! ### The lowest contested place outside a row -/

theorem allPos_sorted : allPos.Pairwise (fun p q => p.num ≤ q.num) := by decide

theorem Pos.num_injective {p q : Pos} (h : p.num = q.num) : p = q := by
  have hp := posOfNum_num p
  rw [h, posOfNum_num] at hp
  exact (Option.some.inj hp).symm

/-- The head of the contested places is the lowest contest, where the contests in the row are clear (R73). -/
theorem lowestContest_head {s t : State} {r : Row} {x : TagId} {p : Pos} {ps : List Pos}
    (hc : ∀ z, (t.coil z).contest = if z.row = r then none else (s.coil z).contest) (h : contestedBy t x = p :: ps) :
    LowestContest s r x p := by
  have hmem : ∀ z, z.row ≠ r → (s.coil z).contest = some x → z ∈ contestedBy t x := fun z hz hx =>
    mem_contestedBy.mpr (by rw [hc, if_neg hz, hx])
  have hp := contestedBy_head h
  rw [hc] at hp
  split at hp
  · nomatch hp
  · rename_i hr
    refine ⟨hr, hp, fun z hz hx => ?_⟩
    have hz' := hmem z hz hx
    have hsort : (contestedBy t x).Pairwise (fun p q => p.num ≤ q.num) := allPos_sorted.filter _
    rw [h] at hz' hsort
    obtain rfl | hz' := List.mem_cons.mp hz'
    · exact Nat.le_refl _
    · exact (List.pairwise_cons.mp hsort).1 z hz'

theorem lowestContest_unique {s : State} {r : Row} {x : TagId} {p q : Pos} (hp : LowestContest s r x p)
    (hq : LowestContest s r x q) : p = q :=
  Pos.num_injective (Nat.le_antisymm (hp.2.2 q hq.1 hq.2.1) (hq.2.2 p hp.1 hp.2.1))

/-! ### The child seat consequences of a row's removal (R80) -/

/-- The row's coils left, before its places are vacated. -/
def coilsLeft (r : Row) (s : State) : State := forEach (rowPositions r) (fun p t => t.onCoil p Coil.leaveOnline) s

theorem coilsLeft_coil (r : Row) (s : State) (p : Pos) :
    (coilsLeft r s).coil p = if p.row = r then (s.coil p).leaveOnline else s.coil p := by
  have h := forEach_get State.coil (f := fun p t => t.onCoil p Coil.leaveOnline) (upd := fun _ c => c.leaveOnline)
    (K := fun _ => True) (fun _ _ _ => trivial)
    (fun p t q _ => by
      rw [State.coil_onCoil]) (rowPositions r) s (rowPositions_nodup r) trivial p
  unfold coilsLeft
  rw [h]
  exact if_congr (mem_rowPositions r p) rfl rfl

theorem coilsLeft_entries (r : Row) (s : State) : (coilsLeft r s).child.entries = s.child.entries :=
  (forEach_entries (f := fun p t => t.onCoil p Coil.leaveOnline) (fun _ _ => ⟨rfl, rfl⟩) (rowPositions r) s).1

theorem childRowLeaves_removed (r : Row) (s : State) : childRowLeaves r true s
    = forEach (rowPositions r) (fun p => vacates p ⟨causeOldRowLeft, some causeRowRemoved⟩) (coilsLeft r s) := rfl

/-- The coils of a removed row (R62, R67, R72, R80). -/
theorem childRowLeaves_coil (r : Row) (s : State) {p : Pos} (hp : p.row = r) :
    ((childRowLeaves r true s).coil p).contest = none ∧ ((childRowLeaves r true s).coil p).scan = none
      ∧ ((childRowLeaves r true s).coil p).faults = 0 := by
  have hl : (coilsLeft r s).coil p = (s.coil p).leaveOnline := by rw [coilsLeft_coil, if_pos hp]
  have hv := vacates_contestsClear ⟨causeOldRowLeft, some causeRowRemoved⟩ (rowPositions r) (coilsLeft r s)
  rw [childRowLeaves_removed]
  obtain ⟨⟨h1, _, h3, _⟩, _⟩ := hv p
  exact ⟨hv.none (by rw [hl]; rfl), h1.trans (by rw [hl]; rfl), h3.trans (by rw [hl]; rfl)⟩

/-- Where the entries that stood in a removed row end (R73, R80). -/
theorem childRowLeaves_entry {r : Row} {s : State} (ht : TagsInv s.child) (ho : OneStanding s.child) {e : Entry}
    (he : e ∈ s.child.entries) (hs : e.state ≠ .missing) (hr : e.pos.row = r) :
    ((∀ q, ¬ LowestContest s r e.tag q) → { e with state := .missing } ∈ (childRowLeaves r true s).child.entries)
    ∧ ∀ q, LowestContest s r e.tag q →
      { e with state := .present, pos := q, confirmed := s.monitor.seconds } ∈ (childRowLeaves r true s).child.entries
      ∧ ((childRowLeaves r true s).coil q).contest = none := by
  have hent := coilsLeft_entries r s
  have hcoil : ∀ z, ((coilsLeft r s).coil z).contest = if z.row = r then none else (s.coil z).contest := fun z => by
    rw [coilsLeft_coil]
    split <;> rfl
  have hrests : Rests (coilsLeft r s) e := by
    refine ⟨hent ▸ he, fun f hf htag => ht.unique (hent ▸ hf) he htag, fun _ => ?_⟩
    rw [hcoil, if_pos hr]
  have halone : Alone (coilsLeft r s) e := fun f hf hst => by
    obtain ⟨hp, hn⟩ := standsAt_iff.mp hst
    exact ho.unique (hent ▸ hf) he hn hs hp
  obtain ⟨hmiss, hmove⟩ := hrests.vacates_row (moved := causeOldRowLeft) (cause := causeRowRemoved) (rowPositions r)
    (rowPositions_nodup r) halone hs ((mem_rowPositions _ _).mpr hr)
  rw [childRowLeaves_removed]
  cases hc : contestedBy (coilsLeft r s) e.tag with
  | nil =>
    refine ⟨fun _ => (hmiss hc).mem, fun q hq => ?_⟩
    have hm : q ∈ contestedBy (coilsLeft r s) e.tag :=
      mem_contestedBy.mpr (by rw [hcoil, if_neg hq.1, hq.2.1])
    rw [hc] at hm
    exact absurd hm List.not_mem_nil
  | cons p ps =>
    have hlow := lowestContest_head hcoil hc
    refine ⟨fun hn => absurd hlow (hn p), fun q hq => ?_⟩
    rw [lowestContest_unique hq hlow]
    have hres := hmove p ps hc (fun hm => hlow.1 ((mem_rowPositions _ _).mp hm))
    have hsec : (coilsLeft r s).monitor.seconds = s.monitor.seconds := by
      rw [coilsLeft, (changesOnly_forEach (fun p t => changes_onCoil t p Coil.leaveOnline) (rowPositions r) s).monitor]
    rw [hsec] at hres
    exact ⟨hres.mem, hres.free nofun⟩

/-! ### The row's record, its positions and their reminders -/

/-- The state of a row that is removed, its record moved and its notice made. -/
def removalNoticed (r : Row) (s : State) : State :=
  notify (rowNotice r (s.row r).state .absent .senseUnmated)
    ((abandonRead r (discardExchange r s)).onRow r RowRecord.remove)

/-- The state of a removed row with its positions left, before the evaluations. -/
def positionsRemoved (r : Row) (s : State) : State :=
  forEach (fittedOf s r) removePosition (positionsLeaveOnline r true (removalNoticed r s))

theorem removeRow_eq (r : Row) (s : State) :
    removeRow r s = endWithBatch (evaluateRow r s (positionsRemoved r s)) := rfl

theorem removalNoticed_row (r : Row) (s : State) :
    RowMoved r (fun x => { x.remove with tagRead := none }) (discardExchange r s) (removalNoticed r s) :=
  (abandonRead_row r (discardExchange r s)).andThen (rowMoved_onRow _ r RowRecord.remove)

theorem removalNoticed_changes (r : Row) (s : State) : ChangesOnly [.line, .child, .body] s (removalNoticed r s) :=
  (((discardExchange_changes r s).widen.andThen (abandonRead_changes r _)).andThen (changes_onRow _ r _)).andThen
    (notify_changes _ _)

theorem removalNoticed_quiet (r : Row) (s : State) : Quiet s (removalNoticed r s) :=
  (((discardExchange_changes r s).quiet.andThen (abandonRead_changes r _).quiet).andThen
    (changes_onRow _ r _).quiet).andThen (notify_quiet _ _)

theorem abandonRead_entries (r : Row) (s : State) : (abandonRead r s).child.entries = s.child.entries := by
  unfold abandonRead
  split
  · rfl
  · exact (raiseUrgent_entries _ _).1

theorem abandonRead_contest (r : Row) (s : State) (p : Pos) : ((abandonRead r s).coil p).contest = (s.coil p).contest := by
  unfold abandonRead
  split
  · rfl
  · exact raiseUrgent_contest _ _ p

theorem positionsRemoved_changes (r : Row) (s : State) :
    ChangesOnly [.load, .child, .cls, .rem, .body] (removalNoticed r s) (positionsRemoved r s) :=
  (positionsLeaveOnline_changes r true _).widen.andThen (changesOnly_forEach removePosition_changes _ _)

theorem positionsRemoved_quiet (r : Row) (s : State) : Quiet (removalNoticed r s) (positionsRemoved r s) :=
  (positionsLeaveOnline_quiet r true _).andThen (quiet_forEach (fun p t => (removePosition_changes p t).quiet) _ _)

theorem fittedOf_removalNoticed (r : Row) (s : State) : fittedOf (removalNoticed r s) r = fittedOf s r := by
  unfold fittedOf
  rw [show posFitted (removalNoticed r s) = posFitted s from
    funext (posFitted_congr (removalNoticed_changes r s).straps)]

/-- The load state of a position that leaves ONLINE stops (R59). -/
theorem positionsLeaveOnline_load (r : Row) (b : Bool) (s : State) (p : Pos) :
    (positionsLeaveOnline r b s).load.get p
      = if p ∈ fittedOf s r then (s.load.get p).leaveOnline else s.load.get p := by
  unfold positionsLeaveOnline
  rw [(childRowLeaves_changes r b _).load]
  exact forEach_get (fun t q => t.load.get q) (upd := fun _ l => l.leaveOnline) (K := fun _ => True)
    (fun _ _ _ => trivial) (fun p t q _ => PerPos.get_modify t.load p q LoadState.leaveOnline)
    _ s (fittedOf_nodup s r) trivial p

theorem positionsRemoved_load {r : Row} {s : State} {p : Pos} (h : p ∈ fittedOf s r) :
    (positionsRemoved r s).load.get p = (s.load.get p).leaveOnline := by
  unfold positionsRemoved
  rw [(changesOnly_forEach removePosition_changes _ _).load, positionsLeaveOnline_load, fittedOf_removalNoticed, if_pos h,
    (removalNoticed_changes r s).load]

theorem positionsRemoved_cls {r : Row} {s : State} {p : Pos} (h : p ∈ fittedOf s r) :
    ∃ c : ClassState, (positionsRemoved r s).cls.get p = c.forgetBuckle.forgetAnchors := by
  have hc := forEach_get (fun t q => t.cls.get q) (f := removePosition)
    (upd := fun _ c => c.forgetBuckle.forgetAnchors) (K := fun _ => True) (fun _ _ _ => trivial)
    (fun p t q _ => PerPos.get_modify t.cls p q _) (fittedOf s r) (positionsLeaveOnline r true (removalNoticed r s))
    (fittedOf_nodup s r) trivial p
  rw [if_pos h] at hc
  exact ⟨_, hc⟩

theorem positionsRemoved_rem {r : Row} {s : State} {p : Pos} (h : p ∈ fittedOf s r) :
    (positionsRemoved r s).rem.get p = { s.rem.get p with state := .off, delay := none, audible := none } := by
  have hc := forEach_get (fun t q => t.rem.get q) (f := removePosition)
    (upd := fun _ x => { x with state := .off, delay := none, audible := none }) (K := fun _ => True) (fun _ _ _ => trivial)
    (fun p t q _ => remOff_rem p (t.onCls p (fun c => c.forgetBuckle.forgetAnchors)) q) (fittedOf s r)
    (positionsLeaveOnline r true (removalNoticed r s)) (fittedOf_nodup s r) trivial p
  rw [if_pos h] at hc
  refine hc.trans ?_
  rw [(positionsLeaveOnline_changes r true _).rem, (removalNoticed_changes r s).rem]

theorem positionsRemoved_child (r : Row) (s : State) :
    ∃ u, (positionsRemoved r s).child = (childRowLeaves r true u).child ∧ u.child = (removalNoticed r s).child
      ∧ u.monitor = s.monitor := by
  refine ⟨_, (changesOnly_forEach removePosition_changes _ _).child, ?_, ?_⟩
  · exact (changesOnly_forEach (bs := [.load, .cls]) (fun p t => (changes_onLoad t p _).widen.andThen
      (changes_onCls _ p _)) _ _).child
  · exact (changesOnly_forEach (bs := [.load, .cls]) (fun p t => (changes_onLoad t p _).widen.andThen
      (changes_onCls _ p _)) _ _).monitor.trans (removalNoticed_changes r s).monitor

/-- The reminder of a held position stands through a batch (R122). -/
theorem endWithBatch_rem_held {s : State} {p : Pos} (h : remHeld s p = true) :
    (endWithBatch s).rem.get p = s.rem.get p := by
  obtain ⟨t, ps, ht, hr⟩ := publish_evaluates s
  have hb := evaluatesLists_afterSeatChange s
  have hs := hb.forEach_signals p ps t
  have hheld : remHeld (publish s) p = remHeld s p := by
    unfold remHeld State.row
    rw [posFitted_congr (publish_changes s).straps, (publish_changes s).line, (publish_quiet s).device]
  unfold endWithBatch
  rw [(endEvent_changes _).rem, ht, hb.forEach_held ps, hr]
  rw [← ht] at hs
  rw [← hs.remHeld, hheld, h]

/-! ### The removal as a whole -/

theorem removeRow_changes_noticed (r : Row) (s : State) :
    ChangesOnly [.load, .monitor, .child, .cls, .pub, .rem, .cadence, .body] (removalNoticed r s) (removeRow r s) :=
  ((positionsRemoved_changes r s).widen.andThen (evaluateRow_changes r s _)).andThen (endWithBatch_changes _)

theorem removeRow_row (r : Row) (s : State) :
    RowMoved r (fun x => { x.remove with tagRead := none }) (discardExchange r s) (removeRow r s) :=
  (removalNoticed_row r s).andLeave (removeRow_changes_noticed r s).line

theorem positionsRemoved_absent (r : Row) (s : State) : ((positionsRemoved r s).row r).state = .absent := by
  rw [((removalNoticed_row r s).andLeave (positionsRemoved_changes r s).line).row]
  rfl

theorem positionsRemoved_posFitted (r : Row) (s : State) (p : Pos) : posFitted (positionsRemoved r s) p = posFitted s p :=
  (posFitted_congr (positionsRemoved_changes r s).straps p).trans
    (posFitted_congr (removalNoticed_changes r s).straps p)

/-- The positions of a removed row settle at NOT_INSTALLED (R90). -/
theorem removeRow_settled {r : Row} {s : State} (ha : awake s = true) {p : Pos} (hp : p.row = r)
    (hf : posFitted s p = true) :
    ((evaluateRow r s (positionsRemoved r s)).cls.get p).settled = .notInstalled := by
  rw [evaluateRow_start hp ((positionsRemoved_posFitted r s p).trans hf)
    ((positionsRemoved_quiet r s).awake.trans ((removalNoticed_quiet r s).awake.trans ha))
    (.inl (positionsRemoved_absent r s))]
  unfold startRecord
  rw [if_pos (by rw [hp]; exact positionsRemoved_absent r s)]

/-- The buckle and the anchors of a removed row's position are forgotten (R13, R68, R98). -/
theorem removeRow_forgotten {r : Row} {s : State} {p : Pos} (hm : p ∈ fittedOf s r) :
    ((evaluateRow r s (positionsRemoved r s)).cls.get p).buckle = .unknown
      ∧ ((evaluateRow r s (positionsRemoved r s)).cls.get p).left.engaged = false
      ∧ ((evaluateRow r s (positionsRemoved r s)).cls.get p).right.engaged = false := by
  obtain ⟨c, hc⟩ := positionsRemoved_cls hm
  unfold evaluateRow
  rw [evaluateEach_cls_rest, hc]
  exact ⟨rfl, rfl, rfl⟩

/-- The reminder of a removed row's position is OFF and stays so, as it is held (R122, R133). -/
theorem removeRow_rem {r : Row} {s : State} {p : Pos} (hm : p ∈ fittedOf s r) : (removeRow r s).rem.get p
    = { s.rem.get p with state := .off, delay := none, audible := none } := by
  have hev := evaluateRow_changes r s (positionsRemoved r s)
  have hheld : remHeld (evaluateRow r s (positionsRemoved r s)) p = true := by
    have h := positionsRemoved_absent r s
    unfold remHeld
    unfold State.row at h ⊢
    rw [hev.line, (mem_fittedOf.mp hm).1, h]
    simp
  rw [removeRow_eq, endWithBatch_rem_held hheld, hev.rem, positionsRemoved_rem hm]

theorem evaluateRow_removed_pub (r : Row) (s : State) : (evaluateRow r s (positionsRemoved r s)).pub = s.pub := by
  rw [(evaluateRow_changes r s _).pub, (positionsRemoved_changes r s).pub, (removalNoticed_changes r s).pub]

theorem removeRow_coil {r : Row} {s : State} {p : Pos} (hp : p.row = r) : ((removeRow r s).coil p).contest = none
    ∧ ((removeRow r s).coil p).scan = none ∧ ((removeRow r s).coil p).faults = 0 := by
  obtain ⟨v, hv, _⟩ := positionsRemoved_child r s
  have h := childRowLeaves_coil r v hp
  unfold State.coil at h ⊢
  rw [removeRow_eq, (endWithBatch_changes _).child, (evaluateRow_changes r s _).child, hv]
  exact h

/-- Where the entries of a removed row end (R73, R80). -/
theorem removeRow_entry {r : Row} {s : State} (h : ListInv s.child) {e : Entry} (he : e ∈ s.child.entries)
    (hs : e.state ≠ .missing) (hr : e.pos.row = r) :
    ((∀ q, ¬ LowestContest s r e.tag q) → { e with state := .missing } ∈ (removeRow r s).child.entries)
    ∧ ∀ q, LowestContest s r e.tag q →
      { e with state := .present, pos := q, confirmed := s.monitor.seconds } ∈ (removeRow r s).child.entries
      ∧ ((removeRow r s).coil q).contest = none := by
  obtain ⟨htags, hone, _, _⟩ := h
  obtain ⟨v, hv, hvc, hvm⟩ := positionsRemoved_child r s
  have hent : v.child.entries = s.child.entries := by
    rw [hvc]
    exact abandonRead_entries r (discardExchange r s)
  have hcontest : ∀ z, (v.coil z).contest = (s.coil z).contest := fun z => by
    unfold State.coil
    rw [hvc]
    exact abandonRead_contest r (discardExchange r s) z
  have hlow : ∀ z, LowestContest v r e.tag z ↔ LowestContest s r e.tag z := fun z => by
    unfold LowestContest
    simp only [hcontest]
  obtain ⟨h1, h2⟩ := childRowLeaves_entry (r := r) (s := v) (e := e) (by unfold TagsInv; rw [hent]; exact htags)
    (by unfold OneStanding; rw [hent]; exact hone) (hent ▸ he) hs hr
  rw [hvm] at h2
  simp only [hlow] at h1 h2
  unfold State.coil at h2 ⊢
  rw [removeRow_eq, (endWithBatch_changes _).child, (evaluateRow_changes r s _).child, hv]
  exact ⟨h1, h2⟩

/-- The row's notice enters a queue with room and stays (R36). -/
theorem removeRow_waits {r : Row} {s : State} (hq : s.body.queue.length < 24) (hk : kindClass s.settings.active 7 = 1) :
    Waits (removeRow r s).body (rowNotice r (s.row r).state .absent .senseUnmated) := by
  have hc := ((discardExchange_changes r s).widen (bs := [.line, .child])).andThen (abandonRead_changes r _)
    |>.andThen (changes_onRow _ r RowRecord.remove)
  have hnot := notify_waits (n := rowNotice r (s.row r).state .absent .senseUnmated)
    (s := (abandonRead r (discardExchange r s)).onRow r RowRecord.remove)
    (noticeUrgent_of_kindClass (by rw [hc.settings]; exact hk)) (by rw [hc.body]; exact hq)
  exact waits_of_urgent ((((positionsRemoved_quiet r s).andThen (evaluateRow_changes r s _).quiet).andThen
    (endWithBatch_quiet _)).waits hnot)

end Sys2Proof.Machine

namespace Sys2Proof.Certificates

open Sys2Proof.Machine

/-- Settles O23: the sense input's level moves, and the rest is the removal of the row from that state. -/
theorem rowIsRemoved : Obligations.RowIsRemoved := by
  intro s r hw hst
  generalize hf : (fun u : Pins => { u with sense := u.sense.modify r (fun _ => false) }) = f
  have hexec : exec (.rowRemoval r) s = .next (removeRow r (s.onPins f)) := by
    show Host.Outcome.next (senseReadsUnmated r s) = _
    unfold senseReadsUnmated
    dsimp only
    rw [senseWatched_of_watched hw, if_neg hst, hf]
    rfl
  have hafter := removeRow_changes_noticed r (s.onPins f)
  have hnoticed := removalNoticed_changes r (s.onPins f)
  have hmoved := removeRow_row r (s.onPins f)
  refine ⟨_, hexec, ?_, hmoved.row, fun q hq => hmoved.other hq, hmoved.exchange, fun p hp hfit => ?_,
    fun p hp => removeRow_coil hp, fun hl e he hs hr => removeRow_entry (s := s.onPins f) hl he hs hr,
    fun hq hk => removeRow_waits (s := s.onPins f) hq hk, ?_⟩
  · rw [hafter.pins, hnoticed.pins, ← hf]
    rfl
  · have hm : p ∈ fittedOf (s.onPins f) r := mem_fittedOf.mpr ⟨hp, hfit⟩
    have hev := evaluateRow_changes r (s.onPins f) (positionsRemoved r (s.onPins f))
    have hend := endWithBatch_changes (evaluateRow r (s.onPins f) (positionsRemoved r (s.onPins f)))
    have hsettled := removeRow_settled (s := s.onPins f) (r := r) hw.2.2.2 hp hfit
    obtain ⟨hb, hleft, hright⟩ := removeRow_forgotten hm
    rw [removeRow_rem hm, removeRow_eq, hend.cls, hend.load, hev.load, positionsRemoved_load hm]
    refine ⟨hsettled, hb, hleft, hright, rfl, rfl, rfl, rfl, rfl, fun hun => ?_, fun hlo => ?_⟩
    · rw [endWithBatch_table (by rw [evaluateRow_removed_pub]; exact hun)]
      exact hsettled
    · rw [endWithBatch_table_locked (by rw [evaluateRow_removed_pub]; exact hlo), evaluateRow_removed_pub]
      rfl
  · exact (((changes_onPins s f).widen
      (bs := [.pins, .monitor, .line, .load, .child, .cls, .pub, .rem, .cadence, .body])).andThen hnoticed).andThen hafter

end Sys2Proof.Certificates
end

section
/-! PROOFS. Autoload: the image's records, and what each group's record must hold (R165 to R167, R178). -/

namespace Sys2Proof.Machine

/-! ### The body's records (R178) -/

theorem takeWords_eq (n : Nat) {l : List Byte} (h : 2 * n ≤ l.length) : takeWords n l
    = (List.range n).map (fun i => word16 (l.getD (2 * i) 0) (l.getD (2 * i + 1) 0)) := by
  induction n generalizing l with
  | zero => rfl
  | succ n ih =>
    obtain _ | ⟨hi, _ | ⟨lo, rest⟩⟩ := l
    · simp at h
    · simp at h
      omega
    · rw [List.range_succ_eq_map, List.map_cons, List.map_map]
      show word16 hi lo :: takeWords n rest = _
      rw [ih (by simp at h; omega)]
      rfl

/-- As much fuel as the body is long is enough. -/
theorem parseRecords_fuel (n m : Nat) {l : List Byte} (hn : l.length ≤ n) (hm : l.length ≤ m) :
    parseRecords n l = parseRecords m l := by
  induction n generalizing m l with
  | zero =>
    obtain rfl : l = [] := List.length_eq_zero_iff.mp (Nat.le_zero.mp hn)
    cases m <;> rfl
  | succ n ih =>
    obtain _ | ⟨g, _ | ⟨k, rest⟩⟩ := l
    · cases m <;> rfl
    · cases m <;> rfl
    · obtain _ | m := m
      · simp at hm
      · simp only [List.length_cons] at hn hm
        unfold parseRecords
        split
        · rfl
        · rw [ih m (by rw [List.length_drop]; omega) (by rw [List.length_drop]; omega)]

theorem bodyRecords_cons (g n : Byte) (rest : List Byte) : bodyRecords (g :: n :: rest)
    = if rest.length < 2 * n.toNat then []
      else ⟨g.toNat, (List.range n.toNat).map (fun i => word16 (rest.getD (2 * i) 0) (rest.getD (2 * i + 1) 0))⟩
        :: bodyRecords (rest.drop (2 * n.toNat)) := by
  show parseRecords (rest.length + 2) (g :: n :: rest) = _
  unfold parseRecords
  refine if_ctx_congr Iff.rfl (fun _ => rfl) (fun h => ?_)
  rw [takeWords_eq n.toNat (Nat.le_of_not_lt h)]
  unfold bodyRecords
  rw [parseRecords_fuel (rest.length + 1) (rest.drop (2 * n.toNat)).length (by rw [List.length_drop]; omega)
    (Nat.le_refl _)]

/-! ### Ranges and cross-checks -/

theorem inRange_iff {lo hi v : Nat} : inRange lo hi v = true ↔ lo ≤ v ∧ v ≤ hi := by
  unfold inRange
  simp

theorem thresholdsValid_iff {a b c h : Nat} : thresholdsValid a b c h = true ↔ ThresholdsOrdered a b c h := by
  unfold thresholdsValid ThresholdsOrdered
  simp [and_assoc]

/-- The seven values of a set, from index k on, in range and in order. -/
theorem setPasses_iff (l : List Word16) (k : Nat) : SetPasses l k
    ↔ (∀ i, i < 7 → setValueInRange i (wordAt l (k + i)) = true)
      ∧ thresholdsValid (wordAt l k) (wordAt l (k + 1)) (wordAt l (k + 2)) (wordAt l (k + 3)) = true := by
  rw [thresholdsValid_iff]
  unfold SetPasses setValueInRange
  constructor
  · rintro ⟨h0, h1, h2, h3, h4, h4', h5, h5', h6, h6', ho⟩
    refine ⟨fun i hi => ?_, ho⟩
    interval_cases i <;> simp [inRange_iff, *]
  · rintro ⟨h, ho⟩
    have h0 := h 0 (by omega)
    have h1 := h 1 (by omega)
    have h2 := h 2 (by omega)
    have h3 := h 3 (by omega)
    have h4 := h 4 (by omega)
    have h5 := h 5 (by omega)
    have h6 := h 6 (by omega)
    simp [inRange_iff] at h0 h1 h2 h3 h4 h5 h6
    exact ⟨h0, h1, h2, h3, h4.1, h4.2, h5.1, h5.2, h6.1, h6.2, ho⟩

/-! ### Records of the groups (R167) -/

theorem allInRange_iff {g : Nat} {l : List Word16} {n : Nat} (hn : l.length = n) :
    allInRange g l = true ↔ ∀ i, i < n → paramInRange g i (wordAt l i) = true := by
  unfold allInRange
  rw [hn]
  simp

theorem deviceInRange_iff (l : List Word16) : ((∀ i, i < 18 → paramInRange 0 i (wordAt l i) = true)
      ∧ deviceThresholdsValid l = true) ↔ DeviceRecordPasses l := by
  unfold DeviceRecordPasses deviceThresholdsValid
  rw [setPasses_iff, setPasses_iff, Bool.and_eq_true]
  constructor
  · rintro ⟨h, hf, hr⟩
    have front : ∀ i, i < 7 → setValueInRange i (wordAt l (0 + i)) = true := fun i hi => by
      have := h i (by omega)
      rw [Nat.zero_add]
      rwa [paramInRange, if_pos rfl, deviceValueInRange, if_pos (by omega)] at this
    have rear : ∀ i, i < 7 → setValueInRange i (wordAt l (7 + i)) = true := fun i hi => by
      have := h (7 + i) (by omega)
      rwa [paramInRange, if_pos rfl, deviceValueInRange, if_neg (by omega), if_pos (by omega),
        Nat.add_sub_cancel_left] at this
    have h14 := h 14 (by omega)
    have h15 := h 15 (by omega)
    have h16 := h 16 (by omega)
    have h17 := h 17 (by omega)
    simp [paramInRange, deviceValueInRange, inRange_iff] at h14 h15 h16 h17
    exact ⟨⟨front, hf⟩, ⟨rear, hr⟩, h14.1, h14.2, h15, h16.1, h16.2, h17.1, h17.2⟩
  · rintro ⟨⟨front, hf⟩, ⟨rear, hr⟩, h14, h14', h15, h16, h16', h17, h17'⟩
    refine ⟨fun i hi => ?_, hf, hr⟩
    rw [paramInRange, if_pos rfl, deviceValueInRange]
    by_cases h6 : i ≤ 6
    · rw [if_pos h6]
      have := front i (by omega)
      rwa [Nat.zero_add] at this
    · rw [if_neg h6]
      by_cases h13 : i ≤ 13
      · rw [if_pos h13]
        have := rear (i - 7) (by omega)
        rwa [show 7 + (i - 7) = i by omega] at this
      · rw [if_neg h13]
        interval_cases i <;> simp [inRange_iff, *] at *

theorem reminderInRange_iff (l : List Word16) :
    (∀ i, i < 7 → paramInRange 16 i (wordAt l i) = true) ↔ ReminderRecordPasses l := by
  unfold ReminderRecordPasses
  constructor
  · intro h
    have h0 := h 0 (by omega)
    have h1 := h 1 (by omega)
    have h2 := h 2 (by omega)
    have h3 := h 3 (by omega)
    have h4 := h 4 (by omega)
    have h5 := h 5 (by omega)
    have h6 := h 6 (by omega)
    simp [paramInRange, reminderValueInRange, inRange_iff] at h0 h1 h2 h3 h4 h5 h6
    exact ⟨h0, h1, h2, h3, h4, h5.1, h5.2, h6.1, h6.2⟩
  · rintro ⟨h0, h1, h2, h3, h4, h5, h5', h6, h6'⟩ i hi
    interval_cases i <;> simp [paramInRange, reminderValueInRange, inRange_iff, *]

theorem scheduleInRange_iff (l : List Word16) :
    (∀ i, i < 32 → paramInRange 18 i (wordAt l i) = true) ↔ ∀ i, i < 32 → wordAt l i ≤ 5 := by
  simp [paramInRange, scheduleValueInRange]

theorem checkValueInRange_register (e v : Nat) :
    checkValueInRange (1 + 4 * e) v = true ↔ v % 256 < 64 ∧ v < 512 := by
  unfold checkValueInRange
  rw [if_neg (by omega), if_pos (by omega)]
  simp

theorem checkInRange_iff (l : List Word16) : ((∀ i, i < 33 → paramInRange 19 i (wordAt l i) = true)
    ∧ checkTableValid { Groups.builtIn with check := l } = true) ↔ CheckRecordPasses l := by
  have hv : checkTableValid { Groups.builtIn with check := l } = true
      ↔ ∀ e, e < wordAt l 0 → l.getD (3 + 4 * e) 0 &&& ~~~ l.getD (2 + 4 * e) 0 = 0 := by
    unfold checkTableValid checkCount checkExpected checkMask
    simp
  have hp : ∀ i v, paramInRange 19 i v = checkValueInRange i v := fun _ _ => rfl
  unfold CheckRecordPasses
  rw [hv]
  simp only [hp]
  constructor
  · rintro ⟨h, hval⟩
    have h0 := h 0 (by omega)
    simp [checkValueInRange] at h0
    exact ⟨h0, fun e he => (checkValueInRange_register e _).mp (h (1 + 4 * e) (by omega)), hval⟩
  · rintro ⟨h0, hreg, hval⟩
    refine ⟨fun i hi => ?_, hval⟩
    by_cases hi0 : i = 0
    · subst hi0
      simpa [checkValueInRange] using h0
    · by_cases hm : (i - 1) % 4 = 0
      · have he : i = 1 + 4 * ((i - 1) / 4) := by omega
        rw [he]
        exact (checkValueInRange_register _ _).mpr (hreg _ (by omega))
      · unfold checkValueInRange
        rw [if_neg hi0, if_neg hm]

theorem identifiersDistinct_iff (l : List Word16) : identifiersDistinct { Groups.builtIn with port := l } = true
    ↔ ∀ d, d ∈ [0, 1, 2, 3, 8, 9, 10] → wordAt l 1 ≠ wordAt l 0 + d := by
  have h : identifiers { Groups.builtIn with port := l }
      = [wordAt l 0, wordAt l 0 + 1, wordAt l 0 + 2, wordAt l 0 + 3, wordAt l 0 + 8, wordAt l 0 + 9, wordAt l 0 + 10,
        wordAt l 1] := rfl
  unfold identifiersDistinct
  rw [h, decide_eq_true_iff]
  generalize wordAt l 0 = b
  generalize wordAt l 1 = v
  simp
  omega

theorem portInRange_iff (l : List Word16) : ((∀ i, i < 3 → paramInRange 20 i (wordAt l i) = true)
    ∧ identifiersDistinct { Groups.builtIn with port := l } = true) ↔ PortRecordPasses l := by
  have hmap : ∀ v, ([1, 2, 3, 4, 5, 6, 7, 8].all (fun k => v / 2 ^ (2 * k - 2) % 4 ≤ 1
      || (v / 2 ^ (2 * k - 2) % 4 == 2 && k == 1))) = true
      ↔ ∀ k, 1 ≤ k → k ≤ 8 → v / 2 ^ (2 * k - 2) % 4 ≤ 1 ∨ (v / 2 ^ (2 * k - 2) % 4 = 2 ∧ k = 1) := by
    intro v
    rw [List.all_eq_true]
    constructor
    · intro h k h1 h8
      have := h k (by interval_cases k <;> simp)
      simpa using this
    · intro h k hk
      have hk' : 1 ≤ k ∧ k ≤ 8 := by
        simp at hk
        omega
      simpa using h k hk'.1 hk'.2
  unfold PortRecordPasses
  rw [identifiersDistinct_iff]
  constructor
  · rintro ⟨h, hd⟩
    exact ⟨by simpa [paramInRange, portValueInRange] using h 0 (by omega),
      by simpa [paramInRange, portValueInRange] using h 1 (by omega), (hmap _).mp (h 2 (by omega)), hd⟩
  · rintro ⟨h0, h1, h2, hd⟩
    refine ⟨fun i hi => ?_, hd⟩
    interval_cases i
    · simpa [paramInRange, portValueInRange] using h0
    · simpa [paramInRange, portValueInRange] using h1
    · exact (hmap _).mpr h2

end Sys2Proof.Machine
end

section
/-! PROOFS. Autoload: what each group takes of the image, and the judgement of the whole (R166 to R168, R178). -/

namespace Sys2Proof.Machine

/-! ### A group's record (R167) -/

theorem acceptedRecord_eq {g : Nat} (hg : g ≠ 17) (l : List Word16) : acceptedRecord g l
    = if l.length = paramCount g ∧ allInRange g l = true ∧ (g = 0 → deviceThresholdsValid l = true)
        ∧ (g = 19 → checkTableValid { Groups.builtIn with check := l } = true)
        ∧ (g = 20 → identifiersDistinct { Groups.builtIn with port := l } = true) then some l else none := by
  unfold acceptedRecord
  rw [if_neg hg]
  by_cases hl : l.length = paramCount g
  · rw [if_neg (by simp [hl])]
    cases ha : allInRange g l
    · simp
    · by_cases h0 : g = 0 ∧ deviceThresholdsValid l = false
      · simp [h0]
      · by_cases h19 : g = 19 ∧ checkTableValid { Groups.builtIn with check := l } = false
        · simp [h19]
        · by_cases h20 : g = 20 ∧ identifiersDistinct { Groups.builtIn with port := l } = false
          · simp [h20]
          · simp [h0, h19, h20, hl]
  · rw [if_pos hl, if_neg (fun h => hl h.1)]

/-- A group takes the record that stands for it where that passes, and its built-in values otherwise. -/
theorem takesRecord_loadGroup {g n : Nat} {passes : List Word16 → Prop} (hg : g ≠ 17) (hn : paramCount g = n)
    (hp : ∀ l : List Word16, l.length = n → ((allInRange g l = true ∧ (g = 0 → deviceThresholdsValid l = true)
        ∧ (g = 19 → checkTableValid { Groups.builtIn with check := l } = true)
        ∧ (g = 20 → identifiersDistinct { Groups.builtIn with port := l } = true)) ↔ passes l))
    (rs : List ImageRecord) (dflt : List Word16) :
    TakesRecord (loadGroup rs g dflt) dflt (recordOf rs g) n passes := by
  unfold loadGroup
  refine ⟨fun l hl hlen hpass => ?_, fun h => ?_⟩
  · rw [hl]
    dsimp only
    rw [acceptedRecord_eq hg, if_pos ⟨hlen.trans hn.symm, (hp l hlen).mpr hpass⟩]
    rfl
  · cases hr : recordOf rs g with
    | none => rfl
    | some l =>
      dsimp only
      rw [acceptedRecord_eq hg, if_neg]
      · rfl
      · rintro ⟨hlen, hall⟩
        exact h l hr (hlen.trans hn) ((hp l (hlen.trans hn)).mp hall)

theorem loadGroup_device (rs : List ImageRecord) (d : List Word16) :
    TakesRecord (loadGroup rs 0 d) d (recordOf rs 0) 18 DeviceRecordPasses :=
  takesRecord_loadGroup (n := 18) (by decide) rfl (fun l hl => by
    rw [allInRange_iff hl, ← deviceInRange_iff]
    simp) rs d

theorem loadGroup_reminder (rs : List ImageRecord) (d : List Word16) :
    TakesRecord (loadGroup rs 16 d) d (recordOf rs 16) 7 ReminderRecordPasses :=
  takesRecord_loadGroup (n := 7) (by decide) rfl (fun l hl => by
    rw [allInRange_iff hl, ← reminderInRange_iff]
    simp) rs d

theorem loadGroup_schedule (rs : List ImageRecord) (d : List Word16) :
    TakesRecord (loadGroup rs 18 d) d (recordOf rs 18) 32 (fun l => ∀ i, i < 32 → wordAt l i ≤ 5) :=
  takesRecord_loadGroup (n := 32) (by decide) rfl (fun l hl => by
    rw [allInRange_iff hl, ← scheduleInRange_iff]
    simp) rs d

theorem loadGroup_check (rs : List ImageRecord) (d : List Word16) :
    TakesRecord (loadGroup rs 19 d) d (recordOf rs 19) 33 CheckRecordPasses :=
  takesRecord_loadGroup (n := 33) (by decide) rfl (fun l hl => by
    rw [allInRange_iff hl, ← checkInRange_iff]
    simp) rs d

theorem loadGroup_port (rs : List ImageRecord) (d : List Word16) :
    TakesRecord (loadGroup rs 20 d) d (recordOf rs 20) 3 PortRecordPasses :=
  takesRecord_loadGroup (n := 3) (by decide) rfl (fun l hl => by
    rw [allInRange_iff hl, ← portInRange_iff]
    simp) rs d

/-! ### The condition lists, judged one by one (R120, R167) -/

/-- A value behind `9 * k` others, of a list of nine. -/
theorem getD_nineFrom {l : List Word16} {k i : Nat} (hi : i < 9) :
    ((l.drop (9 * k)).take 9).getD i 0 = l.getD (9 * k + i) 0 := by
  simp [List.getD_eq_getElem?_getD, hi]

theorem listValuesInRange_iff {l : List Word16} {k : Nat} :
    ((List.range 9).all (fun i => listValueInRange i (wordAt ((l.drop (9 * k)).take 9) i))) = true ↔ ListPasses l k := by
  have hw : ∀ i, i < 9 → wordAt ((l.drop (9 * k)).take 9) i = wordAt l (9 * k + i) := fun i hi => by
    unfold wordAt
    rw [getD_nineFrom hi]
  rw [List.all_eq_true]
  unfold ListPasses
  constructor
  · intro h
    refine ⟨?_, fun i h1 h8 => ?_⟩
    · have h0 := h 0 (by simp)
      rw [hw 0 (by omega)] at h0
      simpa [listValueInRange] using h0
    · have hi := h i (List.mem_range.mpr (by omega))
      rw [hw i (by omega), listValueInRange, if_neg (by omega)] at hi
      simpa using hi
  · rintro ⟨h0, h⟩ i hi
    have hi := List.mem_range.mp hi
    rw [hw i hi, listValueInRange]
    by_cases hz : i = 0
    · subst hz
      simpa using h0
    · rw [if_neg (by omega)]
      simpa using h i (by omega) (by omega)

theorem listOrDefault_getD {l : List Word16} {k i : Nat} (hi : i < 9) :
    (ListPasses l k → (listOrDefault l k).getD i 0 = l.getD (9 * k + i) 0)
    ∧ (¬ ListPasses l k → (listOrDefault l k).getD i 0 = defaultLists.getD (9 * k + i) 0) := by
  unfold listOrDefault
  dsimp only
  refine ⟨fun h => ?_, fun h => ?_⟩
  · rw [if_pos (listValuesInRange_iff.mpr h), getD_nineFrom hi]
  · rw [if_neg (fun h' => h (listValuesInRange_iff.mp h')), getD_nineFrom hi]

theorem listOrDefault_length {l : List Word16} (hl : l.length = 36) {k : Nat} (hk : k < 4) :
    (listOrDefault l k).length = 9 := by
  have hd : defaultLists.length = 36 := rfl
  unfold listOrDefault
  dsimp only
  split
  · rw [List.length_take, List.length_drop, hl]
    omega
  · rw [List.length_take, List.length_drop, hd]
    omega

/-- The four lists of nine, one behind the other. -/
theorem fourLists_getD {a b c d : List Word16} (ha : a.length = 9) (hb : b.length = 9) (hc : c.length = 9) {i : Nat}
    (hi : i < 9) : (a ++ b ++ c ++ d).getD i 0 = a.getD i 0 ∧ (a ++ b ++ c ++ d).getD (9 + i) 0 = b.getD i 0
      ∧ (a ++ b ++ c ++ d).getD (18 + i) 0 = c.getD i 0 ∧ (a ++ b ++ c ++ d).getD (27 + i) 0 = d.getD i 0 := by
  have hab : (a ++ b).length = 18 := by rw [List.length_append, ha, hb]
  have habc : (a ++ b ++ c).length = 27 := by rw [List.length_append, hab, hc]
  refine ⟨?_, ?_, ?_, ?_⟩
  · rw [List.getD_append _ _ _ _ (by omega), List.getD_append _ _ _ _ (by omega), List.getD_append _ _ _ _ (by omega)]
  · rw [List.getD_append _ _ _ _ (by omega), List.getD_append _ _ _ _ (by omega),
      List.getD_append_right _ _ _ _ (by omega), ha, Nat.add_sub_cancel_left]
  · rw [List.getD_append _ _ _ _ (by omega), List.getD_append_right _ _ _ _ (by omega), hab, Nat.add_sub_cancel_left]
  · rw [List.getD_append_right _ _ _ _ (by omega), habc, Nat.add_sub_cancel_left]

theorem loadGroup_lists {rs : List ImageRecord} {l : List Word16} (h : recordOf rs 17 = some l) (hl : l.length = 36) :
    loadGroup rs 17 defaultLists
      = listOrDefault l 0 ++ listOrDefault l 1 ++ listOrDefault l 2 ++ listOrDefault l 3 := by
  unfold loadGroup acceptedRecord
  rw [h]
  dsimp only
  rw [if_neg (by rw [hl]; decide), if_pos rfl]
  rfl

/-- Each list of a record stands where it passes, and is the built-in one where it does not. -/
theorem loadGroup_lists_getD {rs : List ImageRecord} {l : List Word16} {k i : Nat} (h : recordOf rs 17 = some l)
    (hl : l.length = 36) (hk : k < 4) (hi : i < 9) :
    (ListPasses l k → (loadGroup rs 17 defaultLists).getD (9 * k + i) 0 = l.getD (9 * k + i) 0)
    ∧ (¬ ListPasses l k → (loadGroup rs 17 defaultLists).getD (9 * k + i) 0 = defaultLists.getD (9 * k + i) 0) := by
  have hown : (loadGroup rs 17 defaultLists).getD (9 * k + i) 0 = (listOrDefault l k).getD i 0 := by
    rw [loadGroup_lists h hl]
    obtain ⟨h0, h1, h2, h3⟩ := fourLists_getD (d := listOrDefault l 3) (listOrDefault_length hl (show 0 < 4 by omega))
      (listOrDefault_length hl (show 1 < 4 by omega)) (listOrDefault_length hl (show 2 < 4 by omega)) hi
    interval_cases k
    · rwa [Nat.mul_zero, Nat.zero_add]
    · exact h1
    · exact h2
    · exact h3
  rw [hown]
  exact listOrDefault_getD hi

theorem loadGroup_lists_default {rs : List ImageRecord} (h : ∀ l, recordOf rs 17 = some l → l.length ≠ 36) :
    loadGroup rs 17 defaultLists = defaultLists := by
  unfold loadGroup
  cases hr : recordOf rs 17 with
  | none => rfl
  | some l =>
    unfold acceptedRecord
    dsimp only
    rw [if_pos (show l.length ≠ paramCount 17 from h l hr)]
    rfl

/-! ### A position's record (R14, R46, R167, R178) -/

theorem not_disregarded {i : Nat} (hi : i < 21) (l : List Word16) : disregarded l i = false := by
  unfold disregarded
  simp [show ¬ 21 ≤ i by omega, show i ≠ 25 by omega, show i ≠ 26 by omega, show i ≠ 27 by omega]

/-- An optional value is disregarded where its override bit is clear (R178). -/
theorem disregarded_optional (l : List Word16) :
    (∀ i, 21 ≤ i → i ≤ 24 → disregarded l i = !(wordAt l 20).testBit 0)
      ∧ disregarded l 25 = (!(wordAt l 20).testBit 1) ∧ disregarded l 26 = (!(wordAt l 20).testBit 2)
      ∧ disregarded l 27 = !(wordAt l 20).testBit 3 := by
  unfold disregarded
  dsimp only
  generalize (wordAt l 20).testBit = b
  refine ⟨fun i h1 h2 => ?_, ?_, ?_, ?_⟩
  · interval_cases i <;> simp
  all_goals simp

theorem paramInRange_position (p : Pos) (i v : Nat) : paramInRange p.num i v = positionValueInRange i v := by
  have h : p.num ≠ 0 ∧ p.num ≤ 15 := by
    obtain ⟨r, k⟩ := p
    cases r <;> cases k <;> decide
  unfold paramInRange
  rw [if_neg h.1, if_pos h.2]

theorem sensorsAllowed_iff (s : State) (p : Pos) (f : Nat) : sensorsAllowed s p f = true
    ↔ (posFitted s p = false → f = 0)
      ∧ (p = ⟨.r1, .s2⟩ ∨ p = ⟨.r1, .s3⟩ → f.testBit 1 = true → f.testBit 2 = true) := by
  have hr : isRestraint p = true ↔ p = ⟨.r1, .s2⟩ ∨ p = ⟨.r1, .s3⟩ := by
    obtain ⟨r, k⟩ := p
    cases r <;> cases k <;> decide
  rw [← hr]
  unfold sensorsAllowed
  cases posFitted s p <;> cases isRestraint p <;> cases f.testBit 1 <;> cases f.testBit 2 <;> simp

theorem positionRecordPasses_iff (s : State) (p : Pos) (l : List Word16) :
    positionRecordPasses s p l = true ↔ PositionRecordPasses s p l := by
  unfold positionRecordPasses PositionRecordPasses
  rw [Bool.and_eq_true, Bool.and_eq_true, sensorsAllowed_iff, List.all_eq_true, Bool.or_eq_true, thresholdsValid_iff]
  simp only [paramInRange_position, List.mem_range, Bool.or_eq_true, Bool.not_eq_true']
  obtain ⟨d0, d1, d2, d3⟩ := disregarded_optional l
  constructor
  · rintro ⟨⟨h, hth⟩, hfit, hres⟩
    have plain : ∀ i, i < 21 → positionValueInRange i (wordAt l i) = true := fun i hi =>
      (h i (by omega)).resolve_left (by rw [not_disregarded hi]; nofun)
    have h16 := plain 16 (by omega)
    have h17 := plain 17 (by omega)
    have h18 := plain 18 (by omega)
    have h19 := plain 19 (by omega)
    have h20 := plain 20 (by omega)
    have opt : ∀ i, i < 28 → ∀ b, disregarded l i = !b → b = true → positionValueInRange i (wordAt l i) = true :=
      fun i hi b hb ht => (h i hi).resolve_left (by rw [hb, ht]; nofun)
    simp [positionValueInRange, inRange_iff] at h16 h17 h18 h19 h20
    refine ⟨fun i hi => ?_, fun i h8 h15 => ?_, h16, h17, h18, h19, h20, fun ho => ?_, fun ho => ?_, fun ho => ?_,
      fun ho => ?_, hfit, hres⟩
    · simpa [positionValueInRange, if_pos hi, inRange_iff] using plain i (by omega)
    · simpa [positionValueInRange, if_neg (show ¬ i ≤ 7 by omega), if_pos h15, inRange_iff] using plain i (by omega)
    · have h21 := opt 21 (by omega) _ (d0 21 (by omega) (by omega)) ho
      have h22 := opt 22 (by omega) _ (d0 22 (by omega) (by omega)) ho
      have h23 := opt 23 (by omega) _ (d0 23 (by omega) (by omega)) ho
      have h24 := opt 24 (by omega) _ (d0 24 (by omega) (by omega)) ho
      simp [positionValueInRange, setValueInRange, inRange_iff] at h21 h22 h23 h24
      exact ⟨h21, h22, h23, h24, hth.resolve_left (by rw [ho]; nofun)⟩
    · simpa [positionValueInRange, setValueInRange, inRange_iff] using opt 25 (by omega) _ d1 ho
    · simpa [positionValueInRange, setValueInRange, inRange_iff] using opt 26 (by omega) _ d2 ho
    · simpa [positionValueInRange, setValueInRange, inRange_iff] using opt 27 (by omega) _ d3 ho
  · rintro ⟨h7, h15, h16, h17, h18, h19, h20, h0, h1, h2, h3, hfit, hres⟩
    have opt : ∀ i b, disregarded l i = !b → (b = true → positionValueInRange i (wordAt l i) = true) →
        disregarded l i = true ∨ positionValueInRange i (wordAt l i) = true := fun i b hb hv => by
      cases b
      · exact .inl hb
      · exact .inr (hv rfl)
    refine ⟨⟨fun i hi => ?_, ?_⟩, hfit, hres⟩
    · by_cases hi7 : i ≤ 7
      · exact .inr (by simpa [positionValueInRange, if_pos hi7, inRange_iff] using h7 i hi7)
      · by_cases hi15 : i ≤ 15
        · exact .inr (by simpa [positionValueInRange, if_neg hi7, if_pos hi15, inRange_iff] using h15 i (by omega) hi15)
        · by_cases hi20 : i ≤ 20
          · refine .inr ?_
            interval_cases i <;> simp [positionValueInRange, inRange_iff, *]
          · by_cases hi24 : i ≤ 24
            · refine opt i _ (d0 i (by omega) hi24) (fun ho => ?_)
              obtain ⟨h21, h22, h23, h24, _⟩ := h0 ho
              interval_cases i <;> simp [positionValueInRange, setValueInRange, inRange_iff, *]
            · obtain rfl | rfl | rfl : i = 25 ∨ i = 26 ∨ i = 27 := by omega
              · exact opt 25 _ d1 (fun ho => by simpa [positionValueInRange, setValueInRange, inRange_iff] using h1 ho)
              · exact opt 26 _ d2 (fun ho => by simpa [positionValueInRange, setValueInRange, inRange_iff] using h2 ho)
              · exact opt 27 _ d3 (fun ho => by simpa [positionValueInRange, setValueInRange, inRange_iff] using h3 ho)
    · cases b0 : (wordAt l 20).testBit 0
      · exact .inl rfl
      · exact .inr (h0 b0).2.2.2.2

/-! ### The values a position takes (R46, R167) -/

theorem defaultPosition_length (p : Pos) : (defaultPosition p).length = 28 := by
  unfold defaultPosition
  cases isFront p <;> rfl

/-- Value i of a position whose record failed. -/
theorem failedPositionWords_eq (p : Pos) {l : List Word16} (hl : l.length = 28) : failedPositionWords p l
    = (List.range 28).map (fun i => if i ≤ 18 ∨ i = 27 then (defaultPosition p).getD i 0
      else if i = 20 then l.getD 20 0 ||| 8 else l.getD i 0) := by
  have hd := defaultPosition_length p
  unfold failedPositionWords
  generalize defaultPosition p = d at hd
  refine List.ext_getElem (by simp [hl, hd]) (fun i h1 h2 => ?_)
  have hi : i < 28 := by simpa using h2
  rw [List.getElem_map, List.getElem_range]
  by_cases h19 : i < 19
  · simp [h19, hd, hl, show i ≤ 18 by omega, List.getElem?_eq_getElem (show i < d.length by omega)]
  · by_cases h21 : i < 21
    · obtain rfl | rfl : i = 19 ∨ i = 20 := by omega
      · simp [hd, hl]
      · simp [hd, hl]
    · by_cases h27 : i < 27
      · have h20 : 20 < i := by omega
        interval_cases i <;> simp [hd, hl]
      · obtain rfl : i = 27 := by omega
        simp [hd, hl]

theorem failedPositionWords_default (p : Pos) : failedPositionWords p (defaultPosition p) = (defaultPosition p).set 20 8 := by
  obtain ⟨r, k⟩ := p
  cases r <;> cases k <;> decide

end Sys2Proof.Machine
end

section
/-! PROOFS. Autoload as a whole (R166 to R168). -/

namespace Sys2Proof.Machine

/-! ### The judgement (R166) -/

theorem judgeImage_eq (s : State) (a : StoreAnswer) : judgeImage s a = match a with
    | .unacknowledged => .configFault
    | .image b =>
      if word16 (storeByte b 0) (storeByte b 1) ≠ 0xA7C5#16 then .unconfigured
      else if storeByte b 2 ≠ 1 ∨ 2032 < (word16 (storeByte b 4) (storeByte b 5)).toNat
        ∨ 6 ≤ s.straps.var.toNat ∨ (storeByte b 3).toNat ≠ s.straps.var.toNat
        ∨ crc16 (imageBody b) ≠ word16 (storeByte b 6) (storeByte b 7) then .configFault
      else .configured := by
  cases a with
  | unacknowledged => rfl
  | image b =>
    have hvar : storeByte b 3 ≠ s.straps.var.setWidth 8 ↔ (storeByte b 3).toNat ≠ s.straps.var.toNat := by
      rw [not_iff_not, ← BitVec.toNat_inj, BitVec.toNat_setWidth, Nat.mod_eq_of_lt (by omega)]
    unfold judgeImage headerSignature headerVersion headerVariant headerLength headerCrc
    rw [variantFault_eq]
    simp only [hvar, decide_eq_true_eq]
    refine if_congr Iff.rfl rfl ?_
    by_cases h1 : storeByte b 2 ≠ 1 ∨ 2032 < (word16 (storeByte b 4) (storeByte b 5)).toNat
    · rw [if_pos h1, if_pos (h1.elim .inl (fun h => .inr (.inl h)))]
    · obtain ⟨hv, hl⟩ := not_or.mp h1
      rw [if_neg h1]
      simp only [hv, hl, false_or]
      by_cases h2 : 6 ≤ s.straps.var.toNat ∨ (storeByte b 3).toNat ≠ s.straps.var.toNat
      · rw [if_pos h2, if_pos (h2.elim .inl (fun h => .inr (.inl h)))]
      · obtain ⟨hf, hm⟩ := not_or.mp h2
        rw [if_neg h2]
        simp only [hf, hm, false_or]

/-! ### The Settings Unit at the end of autoload -/

theorem autoloaded_config (s : State) (a : StoreAnswer) : (autoloaded s a).config = judgeImage s a := by
  unfold autoloaded
  dsimp only
  split <;> rfl

theorem autoloaded_write (s : State) (a : StoreAnswer) : (autoloaded s a).write = s.settings.write := by
  unfold autoloaded
  dsimp only
  split <;> rfl

theorem autoloaded_uncalibrated (s : State) (a : StoreAnswer) (p : Pos) : (autoloaded s a).uncalibrated.get p
    = (decide ((autoloaded s a).config ≠ .configured) && isRestraint p && posFitted s p) := by
  rw [autoloaded_config]
  unfold autoloaded
  dsimp only
  split
  · rename_i h
    simp [h]
  · rename_i h
    simp [h]

theorem autoloaded_builtIn {s : State} {a : StoreAnswer} (h : (autoloaded s a).config ≠ .configured) :
    (autoloaded s a).active = Groups.builtIn ∧ ∀ p, (autoloaded s a).posFault.get p = false := by
  rw [autoloaded_config] at h
  unfold autoloaded
  dsimp only
  rw [if_neg h]
  exact ⟨rfl, fun p => PerPos.get_all _ p⟩

theorem autoloaded_configured {s : State} {b : List Byte} (h : (autoloaded s (.image b)).config = .configured) :
    (autoloaded s (.image b)).active = loadGroups s b ∧ ∀ p, (autoloaded s (.image b)).posFault.get p
      = (posFitted s p && (loadPosition s (bodyRecords (imageBody b)) p).2) := by
  rw [autoloaded_config] at h
  unfold autoloaded
  dsimp only
  rw [if_pos h]
  exact ⟨rfl, fun p => PerPos.get_mapIdx _ _ p⟩

theorem builtIn_position (p : Pos) : Groups.builtIn.positions.get p = defaultPosition p := PerPos.get_mapIdx _ _ p

theorem loadGroups_position (s : State) (b : List Byte) (p : Pos) :
    (loadGroups s b).positions.get p = (loadPosition s (bodyRecords (imageBody b)) p).1 := PerPos.get_mapIdx _ _ p

/-- The values and the fault of a position by its record: none, one that passes, one that fails, one of another length
(R167). -/
theorem loadPosition_cases (s : State) (rs : List ImageRecord) (p : Pos) :
    (recordOf rs p.num = none → loadPosition s rs p = (defaultPosition p, false))
    ∧ ∀ l, recordOf rs p.num = some l →
      (l.length = 28 → PositionRecordPasses s p l → loadPosition s rs p = (l, false))
      ∧ (l.length = 28 → ¬ PositionRecordPasses s p l → loadPosition s rs p = (failedPositionWords p l, true))
      ∧ (l.length ≠ 28 → loadPosition s rs p = ((defaultPosition p).set 20 8, true)) := by
  unfold loadPosition
  refine ⟨fun h => by rw [h], fun l h => ?_⟩
  rw [h]
  dsimp only
  refine ⟨fun hl hp => ?_, fun hl hp => ?_, fun hl => ?_⟩
  · rw [if_neg (by simp [hl]), if_pos ((positionRecordPasses_iff s p l).mpr hp)]
  · rw [if_neg (by simp [hl]), if_neg (fun h' => hp ((positionRecordPasses_iff s p l).mp h'))]
  · rw [if_pos hl, failedPositionWords_default]

end Sys2Proof.Machine

namespace Sys2Proof.Certificates

open Sys2Proof.Machine

/-- Settles O6: the Settings Unit of the state that goes live is the one autoload gives, group by group. -/
theorem autoloadJudgesTheImage : Obligations.AutoloadJudgesTheImage := by
  refine ⟨fun a s hr hd => ?_, fun b => rfl, fun g n rest => ⟨rfl, rfl, bodyRecords_cons g n rest⟩⟩
  have hset : (evaluateStart (wentLive a s)).settings = autoloaded s a :=
    ((evaluateStart_changes (wentLive a s)).settings).trans rfl
  refine ⟨_, exec_autoloadEnd hr hd a, ?_⟩
  rw [hset]
  refine ⟨(autoloaded_config s a).trans (judgeImage_eq s a), autoloaded_builtIn, fun b hb hc => ?_,
    autoloaded_uncalibrated s a, autoloaded_write s a⟩
  subst hb
  obtain ⟨hactive, hfault⟩ := autoloaded_configured hc
  rw [hactive]
  refine ⟨loadGroup_device _ _, loadGroup_reminder _ _, fun l k i hl hlen hk hi => loadGroup_lists_getD hl hlen hk hi,
    fun h => loadGroup_lists_default h, loadGroup_schedule _ _, loadGroup_check _ _, loadGroup_port _ _, fun p => ?_⟩
  obtain ⟨hnone, hsome⟩ := loadPosition_cases s (bodyRecords (imageBody b)) p
  dsimp only
  rw [hfault, loadGroups_position, builtIn_position]
  refine ⟨fun h => ?_, fun l h => ?_⟩
  · rw [hnone h, Bool.and_false]
    exact ⟨rfl, rfl⟩
  · obtain ⟨hpass, hfail, hlength⟩ := hsome l h
    refine ⟨fun hl hp => ?_, fun hl hp => ?_, fun hl => ?_⟩
    · rw [hpass hl hp, Bool.and_false]
      exact ⟨rfl, rfl⟩
    · rw [hfail hl hp, Bool.and_true]
      exact ⟨rfl, failedPositionWords_eq p hl⟩
    · rw [hlength hl, Bool.and_true]
      exact ⟨rfl, rfl⟩

end Sys2Proof.Certificates
end

section
/-! PROOFS. A written value stands: which settings it moves (R165, R170, R178). -/

namespace Sys2Proof.Machine

/-! ### The value stands -/

/-- The state in which the written value stands, before its effects. -/
def valueStands (w : WriteInFlight) (s : State) : State :=
  s.onSettings (fun u =>
    { u with active := setParam u.active w.id w.value, config := .configured, write := none, store := imageAfterWrite s w })

theorem valueStands_changes (w : WriteInFlight) (s : State) : ChangesOnly [.settings] s (valueStands w s) :=
  changes_onSettings s _

/-- A write names a position's record by its group's number. -/
theorem posOfNum_eq_some {n : Nat} {p : Pos} : posOfNum n = some p ↔ n = p.num := by
  constructor
  · intro h
    have hp := List.find?_some h
    simpa using (beq_iff_eq.mp hp).symm
  · rintro rfl
    exact posOfNum_num p

theorem Pos.num_range (p : Pos) : 1 ≤ p.num ∧ p.num ≤ 15 := by
  obtain ⟨r, k⟩ := p
  cases r <;> cases k <;> decide

theorem groupWords_position (a : Groups) (p : Pos) : groupWords a p.num = a.positions.get p := by
  have hr := Pos.num_range p
  unfold groupWords
  rw [if_neg (by omega), if_neg (by omega), if_neg (by omega), if_neg (by omega), if_neg (by omega), if_neg (by omega),
    posOfNum_num]

theorem setGroup_position (a : Groups) (p : Pos) (l : List Word16) :
    setGroup a p.num l = { a with positions := a.positions.modify p (fun _ => l) } := by
  have hr := Pos.num_range p
  unfold setGroup
  rw [if_neg (by omega), if_neg (by omega), if_neg (by omega), if_neg (by omega), if_neg (by omega), if_neg (by omega),
    posOfNum_num]

theorem setGroup_position_ne {a : Groups} {g : Nat} {p : Pos} (h : g ≠ p.num) (l : List Word16) :
    (setGroup a g l).positions.get p = a.positions.get p := by
  unfold setGroup
  repeat' split
  case h_1 _ q hq =>
    exact PerPos.get_modify_ne _ _ (fun hp => h (by rw [posOfNum_eq_some.mp hq, hp]))
  all_goals rfl

/-- The words of a position's record after a write: one of them is replaced, where it is the record written. -/
theorem setParam_positions (a : Groups) (id v : Word16) (p : Pos) : (setParam a id v).positions.get p
    = if idGroup id = p.num then (a.positions.get p).set (idIndex id) v else a.positions.get p := by
  unfold setParam
  split
  · rename_i h
    rw [h, groupWords_position, setGroup_position]
    exact PerPos.get_modify_self _ _ _
  · rename_i h
    exact setGroup_position_ne h _

/-- A group other than a position's is its own. -/
theorem setParam_device (a : Groups) (id v : Word16) (h : idGroup id ≠ 0) : (setParam a id v).device = a.device := by
  unfold setParam setGroup
  rw [if_neg h]
  repeat' split
  all_goals rfl

theorem setParam_port (a : Groups) (id v : Word16) (h : idGroup id ≠ 20) : (setParam a id v).port = a.port := by
  unfold setParam setGroup
  rw [if_neg h]
  repeat' split
  all_goals rfl

theorem getD_set_ne {l : List Word16} {i j : Nat} (h : i ≠ j) (v : Word16) : (l.set i v).getD j 0 = l.getD j 0 := by
  rw [List.getD_eq_getElem?_getD, List.getD_eq_getElem?_getD, List.getElem?_set_ne h]

section
variable {w : WriteInFlight} {s : State}

theorem valueStands_word {p : Pos} {j : Nat} (h : ¬ (idGroup w.id = p.num ∧ idIndex w.id = j)) :
    (posWords (valueStands w s).settings.active p).getD j 0 = (posWords s.settings.active p).getD j 0 := by
  show ((setParam s.settings.active w.id w.value).positions.get p).getD j 0 = (s.settings.active.positions.get p).getD j 0
  rw [setParam_positions]
  split
  · rename_i hg
    exact getD_set_ne (fun hi => h ⟨hg, hi⟩) _
  · rfl

/-- A sensor flag stands unless its own word was written. -/
theorem valueStands_sensorFlag {p : Pos} (h : ¬ (idGroup w.id = p.num ∧ idIndex w.id = 19)) (n : Nat) :
    sensorFlag (valueStands w s) p n = sensorFlag s p n := by
  unfold sensorFlag wordAt
  rw [valueStands_word h]
  rfl

theorem valueStands_scanInterval (h : idGroup w.id ≠ 0) : scanInterval (valueStands w s) = scanInterval s := by
  unfold scanInterval
  rw [show (valueStands w s).settings.active.device = s.settings.active.device from setParam_device _ _ _ h]
  rfl

theorem valueStands_kindClass (h : idGroup w.id ≠ 20) (k : Nat) :
    kindClass (valueStands w s).settings.active k = kindClass s.settings.active k := by
  unfold kindClass
  rw [show (valueStands w s).settings.active.port = s.settings.active.port from setParam_port _ _ _ h]

/-- The stale limit of a position in numbers (R46, R86). -/
theorem staleLimit_eq (s : State) (p : Pos) : staleLimit s p
    = if (wordAt (posWords s.settings.active p) 20).testBit 3 then wordAt (posWords s.settings.active p) 27
      else wordAt s.settings.active.device (if p.num ≤ 3 then 6 else 13) := by
  have hf : isFront p = true ↔ p.num ≤ 3 := by
    obtain ⟨r, k⟩ := p
    cases r <;> cases k <;> decide
  unfold staleLimit valueInForce overrides groupValue
  simp only [hf]

/-- A stale limit moves by a write of the group's record, or of the position's own limit or override mask, alone. -/
theorem valueStands_staleLimit {p : Pos} (h0 : idGroup w.id ≠ 0)
    (h : ¬ (idGroup w.id = p.num ∧ (idIndex w.id = 20 ∨ idIndex w.id = 27))) :
    staleLimit (valueStands w s) p = staleLimit s p := by
  rw [staleLimit_eq, staleLimit_eq]
  unfold wordAt
  rw [valueStands_word (fun hw => h ⟨hw.1, .inl hw.2⟩), valueStands_word (fun hw => h ⟨hw.1, .inr hw.2⟩),
    show (valueStands w s).settings.active.device = s.settings.active.device from setParam_device _ _ _ h0]

end

end Sys2Proof.Machine
end

section
/-! PROOFS. The effects of a written position record: sensors, gains, validity and stale limit (R15, R58, R168, R170). -/

namespace Sys2Proof.Machine

/-! ### A position is judged by the table -/

/-- In RUN and REST the candidate kept is the record of R90's table, and it is settled where it settles at once. -/
def JudgedAt (s : State) (p : Pos) : Prop := awake s = true → Formed (s.cls.get p) (tableRecord s p)

theorem JudgedAt.congr {s t : State} {p : Pos} (h : JudgedAt s p) (hv : SameView s t p) (hc : t.cls.get p = s.cls.get p)
    (ha : awake t = awake s) : JudgedAt t p := by
  intro ht
  rw [hc, tableRecord_of_sameView hv]
  exact h (ha.symm.trans ht)

/-- What does not touch what the table reads, nor the Classifier, leaves a position judged. -/
theorem JudgedAt.leave {bs : List Block} {s t : State} {p : Pos} (h : JudgedAt s p) (hc : ChangesOnly bs s t)
    (ha : awake t = awake s) (h1 : bs.contains Block.straps = false := by rfl)
    (h2 : bs.contains Block.settings = false := by rfl) (h3 : bs.contains Block.line = false := by rfl)
    (h4 : bs.contains Block.cls = false := by rfl) (h5 : bs.contains Block.load = false := by rfl)
    (h6 : bs.contains Block.child = false := by rfl) : JudgedAt t p :=
  h.congr (hc.sameView p h1 h2 h3 h4 h5 h6) (by rw [hc.cls h4]) ha

theorem judgedAt_evaluate (f : Bool) {p : Pos} {s : State} (hf : posFitted s p = true) : JudgedAt (evaluate f p s) p := by
  intro ha
  rw [tableRecord_of_sameView (evaluate_sameView f p s p)]
  exact evaluate_formed f hf ((evaluate_awake f p s).symm.trans ha)

theorem JudgedAt.evaluate {s : State} {p : Pos} (h : JudgedAt s p) (f : Bool) (q : Pos) :
    JudgedAt (Machine.evaluate f q s) p := by
  by_cases hq : p = q
  · subst hq
    by_cases hf : posFitted s p = true
    · exact judgedAt_evaluate f hf
    · have e : Machine.evaluate f p s = s := if_neg (by simp [hf])
      rw [e]
      exact h
  · exact h.congr (evaluate_sameView f q s p) (evaluate_other f s hq) (evaluate_awake f q s)

theorem JudgedAt.evaluateEach {s : State} {p : Pos} (h : JudgedAt s p) (ps : List Pos) :
    JudgedAt (Machine.evaluateEach ps s) p := by
  induction ps generalizing s with
  | nil => exact h
  | cons q ps ih => exact ih (h.evaluate false q)

theorem judgedAt_evaluateEach {ps : List Pos} {s : State} {p : Pos} (hm : p ∈ ps) (hf : posFitted s p = true) :
    JudgedAt (evaluateEach ps s) p := by
  induction ps generalizing s with
  | nil => exact absurd hm List.not_mem_nil
  | cons q ps ih =>
    rw [evaluateEach_cons]
    obtain rfl | hm := List.mem_cons.mp hm
    · exact (judgedAt_evaluate false hf).evaluateEach ps
    · exact ih hm ((evaluate_posFitted false q s p).trans hf)

/-- The anchors of every position stand. -/
def AnchorsStand (s t : State) : Prop := ∀ p, (t.cls.get p).left = (s.cls.get p).left
  ∧ (t.cls.get p).right = (s.cls.get p).right

theorem AnchorsStand.refl (s : State) : AnchorsStand s s := fun _ => ⟨rfl, rfl⟩

theorem AnchorsStand.trans {s t u : State} (h1 : AnchorsStand s t) (h2 : AnchorsStand t u) : AnchorsStand s u :=
  fun p => ⟨(h2 p).1.trans (h1 p).1, (h2 p).2.trans (h1 p).2⟩

theorem anchorsStand_of_cls {s t : State} (h : t.cls = s.cls) : AnchorsStand s t := fun p => by
  rw [h]
  exact ⟨rfl, rfl⟩

theorem evaluateEach_anchorsStand (ps : List Pos) (s : State) : AnchorsStand s (evaluateEach ps s) := fun p => by
  rw [evaluateEach_cls_rest]
  exact ⟨rfl, rfl⟩

theorem evaluate_anchorsStand (f : Bool) (p : Pos) (s : State) : AnchorsStand s (evaluate f p s) := fun q => by
  rw [evaluate_cls_rest]
  exact ⟨rfl, rfl⟩

/-! ### A gain is written (R168) -/

/-- The position is a fitted restraint position, whose gains R168 asks for. -/
def wantsGain (s : State) (p : Pos) : Bool := isRestraint p && posFitted s p

/-- The state with the gain-written mark of a position set. -/
def gainMarked (p : Pos) (s : State) : State :=
  s.onSettings (fun u => { u with gainWritten := u.gainWritten.modify p (fun _ => true) })

theorem gainMarked_get (p : Pos) (s : State) (q : Pos) :
    (gainMarked p s).settings.gainWritten.get q = (s.settings.gainWritten.get q || decide (q = p)) := by
  show (s.settings.gainWritten.modify p (fun _ => true)).get q = _
  rw [PerPos.get_modify]
  by_cases h : q = p <;> simp [h]

theorem mem_fittedRestraints {s : State} {p : Pos} : p ∈ fittedRestraints s ↔ wantsGain s p = true := by
  unfold fittedRestraints wantsGain
  simp

/-- A gain written: nothing elsewhere, a mark alone, or with the last mark every restraint position judged calibrated. -/
theorem gainWritten_eq (p : Pos) (s : State) : gainWritten p s
    = if wantsGain s p then
        if (fittedRestraints s).all (fun q => (gainMarked p s).settings.gainWritten.get q) then
          evaluateEach (fittedRestraints s)
            ((gainMarked p s).onSettings (fun u => { u with uncalibrated := PerPos.all false }))
        else gainMarked p s
      else s := rfl

/-- The marks and conditions of the settings after a gain write; the active values and the faults stand. -/
theorem gainWritten_settings (p : Pos) (s : State) : (gainWritten p s).settings.active = s.settings.active
    ∧ (gainWritten p s).settings.posFault = s.settings.posFault
    ∧ (∀ q, (gainWritten p s).settings.gainWritten.get q
        = (s.settings.gainWritten.get q || (wantsGain s p && decide (q = p))))
    ∧ (wantsGain s p = true → (∀ q, wantsGain s q = true → (gainWritten p s).settings.gainWritten.get q = true) →
        ∀ q, (gainWritten p s).settings.uncalibrated.get q = false)
    ∧ (wantsGain s p = false ∨ (∃ q, wantsGain s q = true ∧ (gainWritten p s).settings.gainWritten.get q = false) →
        (gainWritten p s).settings.uncalibrated = s.settings.uncalibrated) := by
  rw [gainWritten_eq]
  cases hw : wantsGain s p
  · simp
  · simp only [if_true, Bool.true_and]
    by_cases ha : ((fittedRestraints s).all (fun q => (gainMarked p s).settings.gainWritten.get q)) = true
    · rw [if_pos ha, (evaluateEach_changes _ _).settings]
      refine ⟨rfl, rfl, gainMarked_get p s, fun _ _ q => PerPos.get_all _ q, fun h => ?_⟩
      obtain h | ⟨q, hq, hn⟩ := h
      · nomatch h
      · exact absurd (List.all_eq_true.mp ha q (mem_fittedRestraints.mpr hq)) (by
          rw [show (gainMarked p s).settings.gainWritten.get q = false from hn]; nofun)
    · rw [if_neg ha]
      refine ⟨rfl, rfl, gainMarked_get p s, fun _ h => ?_, fun _ => rfl⟩
      exact absurd (List.all_eq_true.mpr (fun q hq => h q (mem_fittedRestraints.mp hq))) ha

theorem gainWritten_anchorsStand (p : Pos) (s : State) : AnchorsStand s (gainWritten p s) := by
  rw [gainWritten_eq]
  split
  · split
    · exact evaluateEach_anchorsStand (fittedRestraints s) _
    · exact AnchorsStand.refl s
  · exact AnchorsStand.refl s

/-- With the last mark each fitted restraint position is judged. -/
theorem gainWritten_judgedAt {p : Pos} {s : State} (hw : wantsGain s p = true)
    (h : ∀ q, wantsGain s q = true → (gainWritten p s).settings.gainWritten.get q = true) {q : Pos}
    (hq : wantsGain s q = true) : JudgedAt (gainWritten p s) q := by
  have ha : ((fittedRestraints s).all (fun q => (gainMarked p s).settings.gainWritten.get q)) = true := by
    refine List.all_eq_true.mpr (fun z hz => ?_)
    have hz := h z (mem_fittedRestraints.mp hz)
    obtain ⟨_, _, hg, _⟩ := gainWritten_settings p s
    rw [hg, hw, Bool.true_and] at hz
    rw [gainMarked_get]
    exact hz
  rw [gainWritten_eq, if_pos hw, if_pos ha]
  exact judgedAt_evaluateEach (mem_fittedRestraints.mpr hq) (by
    have := (Bool.and_eq_true _ _ ▸ hq : isRestraint q = true ∧ posFitted s q = true).2
    exact this)

/-! ### A record is validated again (R170) -/

/-- The record of the position is faulted and passes now. -/
def healed (p : Pos) (s : State) : Bool :=
  s.settings.posFault.get p && positionRecordPasses s p (posWords s.settings.active p)

theorem revalidate_healed {p : Pos} {s : State} (h : healed p s = true) : revalidate p s
    = evaluate false p (s.onSettings (fun u => { u with posFault := u.posFault.modify p (fun _ => false) })) := if_pos h

theorem revalidate_other {p : Pos} {s : State} (h : healed p s = false) : revalidate p s = s := by
  unfold healed at h
  unfold revalidate
  rw [h]
  rfl

theorem revalidate_settings (p : Pos) (s : State) : (revalidate p s).settings
    = { s.settings with posFault := (revalidate p s).settings.posFault }
    ∧ ∀ q, (revalidate p s).settings.posFault.get q
      = if q = p ∧ positionRecordPasses s p (posWords s.settings.active p) = true then false
        else s.settings.posFault.get q := by
  by_cases h : healed p s = true
  · obtain ⟨_, hp⟩ := Bool.and_eq_true _ _ ▸ h
    rw [revalidate_healed h, (evaluate_changes false p _).settings]
    refine ⟨rfl, fun q => ?_⟩
    show (s.settings.posFault.modify p (fun _ => false)).get q = _
    rw [PerPos.get_modify]
    exact if_congr ⟨fun hq => ⟨hq, hp⟩, fun hq => hq.1⟩ rfl rfl
  · rw [revalidate_other (eq_false_of_ne_true h)]
    refine ⟨rfl, fun q => ?_⟩
    split
    · rename_i hq
      obtain ⟨rfl, hp⟩ := hq
      cases hs : s.settings.posFault.get q
      · rfl
      · exact absurd (by rw [healed, hs, hp]; rfl) h
    · rfl

theorem revalidate_anchorsStand (p : Pos) (s : State) : AnchorsStand s (revalidate p s) := by
  unfold revalidate
  split
  · exact evaluate_anchorsStand false p _
  · exact AnchorsStand.refl s

theorem revalidate_judgedAt {p : Pos} {s : State} (h : healed p s = true) (hf : posFitted s p = true) :
    JudgedAt (revalidate p s) p := by
  rw [revalidate_healed h]
  exact judgedAt_evaluate false hf

theorem JudgedAt.revalidate {s : State} {q : Pos} (h : JudgedAt s q) (hf : posFitted s q = true) (p : Pos) :
    JudgedAt (Machine.revalidate p s) q := by
  by_cases hh : healed p s = true
  · by_cases hq : q = p
    · subst hq
      exact revalidate_judgedAt hh hf
    · rw [revalidate_healed hh]
      have hj : JudgedAt (s.onSettings (fun u => { u with posFault := u.posFault.modify p (fun _ => false) })) q :=
        h.congr ⟨rfl, rfl, PerPos.get_modify_ne _ _ hq, rfl, rfl, rfl, rfl, rfl⟩ rfl rfl
      exact hj.evaluate false p
  · rw [revalidate_other (eq_false_of_ne_true hh)]
    exact h

/-! ### A stale limit is written (R58) -/

theorem staleAfterWrite_past {p : Pos} {s : State} (h : pastLimit s p = true) :
    staleAfterWrite p s = evaluate false p (s.onLoad p LoadState.becomeStale) := if_pos h

theorem staleAfterWrite_other {p : Pos} {s : State} (h : pastLimit s p = false) : staleAfterWrite p s = s :=
  if_neg (by simp [h])

theorem pastLimit_iff {s : State} {p : Pos} : pastLimit s p = true ↔ posFitted s p = true
    ∧ (s.load.get p).ageMode = .running ∧ (s.load.get p).stale = false ∧ staleLimit s p < (s.load.get p).age := by
  unfold pastLimit
  simp [and_assoc]

theorem staleAfterWrite_load (p : Pos) (s : State) (q : Pos) : (staleAfterWrite p s).load.get q
    = if q = p then if pastLimit s q then (s.load.get q).becomeStale else s.load.get q else s.load.get q := by
  by_cases h : pastLimit s p = true
  · rw [staleAfterWrite_past h, (evaluate_changes false p _).load]
    show (s.load.modify p LoadState.becomeStale).get q = _
    rw [PerPos.get_modify]
    refine if_ctx_congr Iff.rfl (fun hq => ?_) (fun _ => rfl)
    rw [hq, if_pos h]
  · rw [staleAfterWrite_other (eq_false_of_ne_true h)]
    split
    · rename_i hq
      rw [hq, if_neg h]
    · rfl

theorem staleAfterWrite_anchorsStand (p : Pos) (s : State) : AnchorsStand s (staleAfterWrite p s) := by
  unfold staleAfterWrite
  split
  · exact evaluate_anchorsStand false p _
  · exact AnchorsStand.refl s

theorem staleAfterWrite_judgedAt {p : Pos} {s : State} (h : pastLimit s p = true) : JudgedAt (staleAfterWrite p s) p := by
  rw [staleAfterWrite_past h]
  exact judgedAt_evaluate false (pastLimit_iff.mp h).1

theorem JudgedAt.staleAfterWrite {s : State} {q : Pos} (h : JudgedAt s q) (p : Pos) :
    JudgedAt (Machine.staleAfterWrite p s) q := by
  by_cases hp : pastLimit s p = true
  · by_cases hq : q = p
    · subst hq
      exact staleAfterWrite_judgedAt hp
    · rw [staleAfterWrite_past hp]
      have hj : JudgedAt (s.onLoad p LoadState.becomeStale) q :=
        h.congr ⟨rfl, rfl, rfl, rfl, rfl, rfl, congrArg LoadState.view (PerPos.get_modify_ne _ _ hq), rfl⟩ rfl rfl
      exact hj.evaluate false p
  · rw [staleAfterWrite_other (eq_false_of_ne_true hp)]
    exact h

/-- The positions given, made stale where they are past their limits. -/
def madeStale (ps : List Pos) (s : State) : State := forEach ps staleAfterWrite s

theorem madeStale_changes (ps : List Pos) (s : State) : ChangesOnly [.load, .cls] s (madeStale ps s) :=
  changesOnly_forEach staleAfterWrite_changes ps s

theorem pastLimit_congr {s t : State} {p : Pos} (h1 : t.straps = s.straps) (h2 : t.settings = s.settings)
    (h3 : t.load.get p = s.load.get p) : pastLimit t p = pastLimit s p := by
  unfold pastLimit staleLimit
  rw [posFitted_congr h1, h2, h3]

theorem JudgedAt.madeStale {s : State} {q : Pos} (h : JudgedAt s q) (ps : List Pos) :
    JudgedAt (Machine.madeStale ps s) q := by
  induction ps generalizing s with
  | nil => exact h
  | cons p ps ih => exact ih (h.staleAfterWrite p)

theorem madeStale_anchorsStand (ps : List Pos) (s : State) : AnchorsStand s (madeStale ps s) := by
  induction ps generalizing s with
  | nil => exact AnchorsStand.refl s
  | cons p ps ih => exact (staleAfterWrite_anchorsStand p s).trans (ih _)

/-- Each position given that is past its limit becomes stale and is judged; the load states of the others stand. -/
theorem madeStale_load {ps : List Pos} (hn : ps.Nodup) (s : State) (q : Pos) :
    (q ∈ ps → pastLimit s q = true →
      (madeStale ps s).load.get q = (s.load.get q).becomeStale ∧ JudgedAt (madeStale ps s) q)
    ∧ (¬ (q ∈ ps ∧ pastLimit s q = true) → (madeStale ps s).load.get q = s.load.get q) := by
  induction ps generalizing s with
  | nil => exact ⟨fun h => absurd h List.not_mem_nil, fun _ => rfl⟩
  | cons p ps ih =>
    obtain ⟨hp, hps⟩ := List.nodup_cons.mp hn
    have hc := staleAfterWrite_changes p s
    obtain ⟨i1, i2⟩ := ih hps (staleAfterWrite p s)
    have e : madeStale (p :: ps) s = madeStale ps (staleAfterWrite p s) := rfl
    rw [e]
    by_cases hq : q = p
    · subst hq
      have hl := staleAfterWrite_load q s q
      rw [if_pos rfl] at hl
      have hrest := i2 (fun h => hp h.1)
      rw [hl] at hrest
      refine ⟨fun _ hpast => ?_, fun hn => ?_⟩
      · rw [if_pos hpast] at hrest
        exact ⟨hrest, (staleAfterWrite_judgedAt hpast).madeStale ps⟩
      · rw [hrest, if_neg (fun h => hn ⟨List.mem_cons_self, h⟩)]
    · have hl : (staleAfterWrite p s).load.get q = s.load.get q := by rw [staleAfterWrite_load, if_neg hq]
      rw [pastLimit_congr hc.straps hc.settings hl, hl] at i1 i2
      have hm : q ∈ p :: ps ↔ q ∈ ps := by simp [hq]
      rw [hm]
      exact ⟨i1, i2⟩

end Sys2Proof.Machine
end

section
/-! PROOFS. A changed fitted-sensor flag: the anchors, the tag coil, the entry that stood there (R15, R63, R68, R72). -/

namespace Sys2Proof.Machine

/-! ### The queue grows by one notice for an evaluation of the lists -/

theorem enterVisual_queue_length_le (p : Pos) (s : State) :
    (enterVisual p s).body.queue.length ≤ s.body.queue.length + 1 := by
  unfold enterVisual
  dsimp only
  split
  · exact notify_queue_length_le _ _
  · exact Nat.le_succ _

theorem enterWait_queue_length_le (p : Pos) (d : Nat) (s : State) :
    (enterWait p d s).body.queue.length ≤ s.body.queue.length + 1 := by
  unfold enterWait
  split
  · exact enterVisual_queue_length_le p s
  · exact Nat.le_succ _

theorem actOnResults_queue_length_le (p : Pos) (d : Nat) (s : State) :
    (actOnResults p d s).body.queue.length ≤ s.body.queue.length + 1 := by
  obtain e | e | e | e := actOnResults_cases p d s <;> rw [e]
  · exact Nat.le_succ _
  · exact Nat.le_succ _
  · exact enterWait_queue_length_le p d s
  · exact notify_queue_length_le _ _

theorem afterSeatChange_queue_length_le (u : Bool) (b : State) (p : Pos) (s : State) :
    (afterSeatChange u b p s).body.queue.length ≤ s.body.queue.length + 1 := by
  unfold afterSeatChange evaluateLists
  split
  · exact Nat.le_succ _
  · split
    · exact Nat.le_succ _
    · exact actOnResults_queue_length_le p _ _

/-! ### The anchors are forgotten (R15, R68) -/

/-- The anchors flag of a position changed from set to clear, as far as it did (R15). -/
def anchorsCleared (b : State) (p : Pos) (s : State) : State :=
  if anchorsFitted b p && !anchorsFitted s p then
    evaluate false p (afterSeatChange false b p (s.onCls p ClassState.forgetAnchors))
  else s

theorem anchorsCleared_set {b : State} {p : Pos} {s : State} (h : (anchorsFitted b p && !anchorsFitted s p) = true) :
    anchorsCleared b p s = evaluate false p (afterSeatChange false b p (s.onCls p ClassState.forgetAnchors)) := if_pos h

theorem anchorsCleared_not {b : State} {p : Pos} {s : State} (h : (anchorsFitted b p && !anchorsFitted s p) = false) :
    anchorsCleared b p s = s := by
  unfold anchorsCleared
  rw [h]
  rfl

theorem anchorsCleared_changes (b : State) (p : Pos) (s : State) :
    ChangesOnly [.cls, .rem, .body] s (anchorsCleared b p s) :=
  changesOnly_ite (((changes_onCls s p _).widen.andThen (afterSeatChange_changes false b p _)).andThen
    (evaluate_changes false p _)) (ChangesOnly.refl _ s)

theorem anchorsCleared_quiet (b : State) (p : Pos) (s : State) : Quiet s (anchorsCleared b p s) :=
  quiet_ite (((changes_onCls s p _).quiet.andThen (afterSeatChange_quiet false b p _)).andThen
    (evaluate_changes false p _).quiet) (Quiet.refl s)

theorem anchorsCleared_queue_length_le (b : State) (p : Pos) (s : State) :
    (anchorsCleared b p s).body.queue.length ≤ s.body.queue.length + 1 := by
  unfold anchorsCleared
  split
  · rw [(evaluate_changes false p _).body]
    exact afterSeatChange_queue_length_le false b p _
  · exact Nat.le_succ _

/-- The anchors of the position are forgotten where its flag was cleared; all others stand. -/
theorem anchorsCleared_anchors (b : State) (p : Pos) (s : State) (q : Pos) :
    ((anchorsCleared b p s).cls.get q).left
      = (if q = p ∧ (anchorsFitted b p && !anchorsFitted s p) = true then ⟨false, none⟩ else (s.cls.get q).left)
    ∧ ((anchorsCleared b p s).cls.get q).right
      = (if q = p ∧ (anchorsFitted b p && !anchorsFitted s p) = true then ⟨false, none⟩ else (s.cls.get q).right) := by
  by_cases h : (anchorsFitted b p && !anchorsFitted s p) = true
  · obtain ⟨hl, hr⟩ := evaluate_anchorsStand false p (afterSeatChange false b p (s.onCls p ClassState.forgetAnchors)) q
    have hc : (afterSeatChange false b p (s.onCls p ClassState.forgetAnchors)).cls.get q
        = if q = p then (s.cls.get q).forgetAnchors else s.cls.get q := by
      rw [(afterSeatChange_changes false b p _).cls]
      exact PerPos.get_modify _ _ _ _
    rw [anchorsCleared_set h, hl, hr, hc]
    by_cases hq : q = p
    · rw [if_pos hq, if_pos ⟨hq, h⟩, if_pos ⟨hq, h⟩]
      exact ⟨rfl, rfl⟩
    · rw [if_neg hq, if_neg (fun h => hq h.1), if_neg (fun h => hq h.1)]
      exact ⟨rfl, rfl⟩
  · rw [anchorsCleared_not (eq_false_of_ne_true h), if_neg (fun hc => h hc.2), if_neg (fun hc => h hc.2)]
    exact ⟨rfl, rfl⟩

theorem posFitted_of_sensorFlag {s : State} {p : Pos} {n : Nat} (h : sensorFlag s p n = true) : posFitted s p = true :=
  (Bool.and_eq_true _ _ ▸ h : posFitted s p = true ∧ _).1

theorem anchorsCleared_judgedAt {b : State} {p : Pos} {s : State} (hst : s.straps = b.straps)
    (h : (anchorsFitted b p && !anchorsFitted s p) = true) : JudgedAt (anchorsCleared b p s) p := by
  rw [anchorsCleared_set h]
  refine judgedAt_evaluate false ?_
  rw [posFitted_congr ((afterSeatChange_changes false b p (s.onCls p ClassState.forgetAnchors)).straps.trans hst)]
  exact posFitted_of_sensorFlag (Bool.and_eq_true _ _ ▸ h : anchorsFitted b p = true ∧ _).1

/-! ### The tag coil is removed (R15, R72) -/

/-- The record of a row whose read in flight at a seat will be discarded (R15). -/
def RowRecord.discardAt (k : Seat) (x : RowRecord) : RowRecord :=
  { x with tagRead := x.tagRead.map (fun t => if t.seat = k then { t with discard := true } else t) }

/-- The coil whose flag is cleared (R15). -/
def Coil.removed (c : Coil) : Coil := { c with scan := none, due := none, urgent := false, contest := none, unknown := false }

/-- The entry standing at a position whose coil is removed, made MISSING (R15). -/
def standingMissed (p : Pos) (s : State) : State :=
  match standing s p with
  | some e => makeMissing e.tag p causeCoilRemoved s
  | none => s

theorem standingMissed_some {p : Pos} {s : State} {e : Entry} (h : standing s p = some e) :
    standingMissed p s = makeMissing e.tag p causeCoilRemoved s := by
  unfold standingMissed
  rw [h]

theorem standingMissed_none {p : Pos} {s : State} (h : standing s p = none) : standingMissed p s = s := by
  unfold standingMissed
  rw [h]

theorem coilRemoved_eq (p : Pos) (s : State) :
    coilRemoved p s = ((standingMissed p s).onCoil p Coil.removed).onRow p.row (RowRecord.discardAt p.seat) := rfl

theorem standingMissed_changes (p : Pos) (s : State) : ChangesOnly [.child, .body] s (standingMissed p s) := by
  unfold standingMissed
  split
  · exact makeMissing_changes _ _ _ s
  · exact ChangesOnly.refl _ s

theorem standingMissed_quiet (p : Pos) (s : State) : Quiet s (standingMissed p s) := by
  unfold standingMissed
  split
  · exact makeMissing_quiet _ p _ s
  · exact Quiet.refl s

theorem coilRemoved_quiet (p : Pos) (s : State) : Quiet s (coilRemoved p s) := by
  rw [coilRemoved_eq]
  exact ((standingMissed_quiet p s).andThen (changes_onCoil _ p _).quiet).andThen (changes_onRow _ p.row _).quiet

theorem coilRemoved_row (p : Pos) (s : State) : RowMoved p.row (RowRecord.discardAt p.seat) s (coilRemoved p s) := by
  have h : RowMoved p.row (RowRecord.discardAt p.seat) (standingMissed p s) (coilRemoved p s) := rfl
  unfold RowMoved at *
  rw [h, (standingMissed_changes p s).line]

theorem coilRemoved_coil (p : Pos) (s : State) (q : Pos) : (coilRemoved p s).coil q
    = if q = p then ((standingMissed p s).coil p).removed else (standingMissed p s).coil q := by
  rw [coilRemoved_eq]
  show ((standingMissed p s).onCoil p Coil.removed).coil q = _
  rw [State.coil_onCoil]
  exact if_ctx_congr Iff.rfl (fun hq => by rw [hq]) (fun _ => rfl)

/-- What a removed coil keeps is its FAULT count alone. -/
theorem coilRemoved_coil_self (p : Pos) (s : State) : (coilRemoved p s).coil p = (s.coil p).removed := by
  rw [coilRemoved_coil, if_pos rfl]
  cases h : standing s p with
  | none => rw [standingMissed_none h]
  | some e =>
    rw [standingMissed_some h, makeMissing_coil]
    split <;> rfl

theorem coilRemoved_coil_other {p q : Pos} (hq : q ≠ p) (s : State) :
    (standing s p = none → (coilRemoved p s).coil q = s.coil q)
    ∧ ∀ e, standing s p = some e → (coilRemoved p s).coil q
      = if (s.coil q).contest = some e.tag then
          { s.coil q with contest := none, urgent := (s.coil q).urgent || coilFitted s q }
        else s.coil q := by
  rw [coilRemoved_coil, if_neg hq]
  exact ⟨fun h => by rw [standingMissed_none h], fun e h => by rw [standingMissed_some h, makeMissing_coil]⟩

/-- The entry that stood at the position is MISSING, and no other has changed. -/
theorem coilRemoved_entries {p : Pos} {s : State} (ht : TagsInv s.child) (ho : OneStanding s.child) :
    (coilRemoved p s).child.entries
      = s.child.entries.map (fun e => if standsAt p e then { e with state := .missing } else e) := by
  show (standingMissed p s).child.entries = _
  cases h : standing s p with
  | none =>
    rw [standingMissed_none h]
    refine ((List.map_congr_left (g := id) (fun e he => ?_)).trans (List.map_id _)).symm
    exact if_neg (fun hs => standing_none h he (standsAt_iff.mp hs))
  | some e =>
    obtain ⟨he, hp, hs⟩ := standing_some h
    rw [standingMissed_some h, (makeMissing_entries _ _ _ s).1]
    refine List.map_congr_left (fun f hf => if_congr ⟨fun htag => ?_, fun hst => ?_⟩ rfl rfl)
    · rw [ht.unique hf he htag]
      exact standsAt_iff.mpr ⟨hp, hs⟩
    · obtain ⟨hfp, hfs⟩ := standsAt_iff.mp hst
      rw [ho.unique hf he hfs hs (hfp.trans hp.symm)]

theorem coilRemoved_waits {p : Pos} {s : State} {e : Entry} (h : standing s p = some e)
    (hk : kindClass s.settings.active 6 = 1) (hl : s.body.queue.length < 24) :
    ∃ x ∈ (coilRemoved p s).body.queue, x.urgent = true
      ∧ x.notice = childNotice .childSeatMissing p p.num 0 e.tag causeCoilRemoved := by
  show ∃ x ∈ (standingMissed p s).body.queue, _
  rw [standingMissed_some h]
  exact makeMissing_waits hk hl

/-! ### The tag coil is added (R15, R62, R63) -/

theorem coilAdded_coil {p : Pos} {s : State} (hf : coilFitted s p = true) (q : Pos) : (coilAdded p s).coil q
    = if q = p then
        if (s.row p.row).state = .online then
          { s.coil q with scan := some (scanInterval s), due := none, urgent := true }
        else { s.coil q with urgent := true }
      else s.coil q := by
  unfold coilAdded
  dsimp only
  rw [raiseUrgent_coil]
  by_cases hon : (s.row p.row).state = .online
  · rw [if_pos hon, if_pos hon]
    have hc : coilFitted (s.onCoil p (fun c => { c with scan := some (scanInterval s), due := none })) p = true := hf
    by_cases hq : q = p
    · subst hq
      rw [if_pos rfl, if_pos rfl, hc, State.coil_onCoil, if_pos rfl, Bool.or_true]
    · rw [if_neg hq, if_neg hq, State.coil_onCoil, if_neg hq]
  · rw [if_neg hon, if_neg hon]
    by_cases hq : q = p
    · subst hq
      rw [if_pos rfl, if_pos rfl, hf, Bool.or_true]
    · rw [if_neg hq, if_neg hq]

theorem coilAdded_entries (p : Pos) (s : State) : (coilAdded p s).child.entries = s.child.entries := by
  unfold coilAdded
  dsimp only
  rw [(raiseUrgent_entries p _).1]
  split <;> rfl

theorem evidence_raiseUrgent (p q : Pos) (s : State) : evidence (raiseUrgent p s) q = evidence s q := by
  unfold evidence standing
  rw [(raiseUrgent_entries p s).1, raiseUrgent_coil]
  split <;> rfl

/-- An added coil shows the Classifier nothing new. -/
theorem coilAdded_evidence (p : Pos) (s : State) (q : Pos) : evidence (coilAdded p s) q = evidence s q := by
  unfold coilAdded
  dsimp only
  rw [evidence_raiseUrgent]
  split
  · unfold evidence standing
    rw [State.coil_onCoil]
    split <;> rfl
  · rfl

/-! ### The sensors of a position -/

theorem sensorsChanged_removed {b : State} {p : Pos} {s : State} (h1 : coilFitted b p = true)
    (h2 : coilFitted s p = false) : sensorsChanged b p s
      = evaluateEvidence (anchorsCleared b p s) (coilRemoved p (anchorsCleared b p s)) := by
  unfold sensorsChanged
  rw [h1, h2]
  rfl

theorem sensorsChanged_added {b : State} {p : Pos} {s : State} (h1 : coilFitted b p = false)
    (h2 : coilFitted s p = true) : sensorsChanged b p s = coilAdded p (anchorsCleared b p s) := by
  unfold sensorsChanged
  rw [h1, h2]
  rfl

theorem sensorsChanged_same {b : State} {p : Pos} {s : State} (h : coilFitted s p = coilFitted b p) :
    sensorsChanged b p s = anchorsCleared b p s := by
  unfold sensorsChanged
  rw [h]
  cases coilFitted b p <;> rfl

theorem sensorsChanged_cases (b : State) (p : Pos) (s : State) :
    (coilFitted b p = true ∧ coilFitted s p = false) ∨ (coilFitted b p = false ∧ coilFitted s p = true)
      ∨ coilFitted s p = coilFitted b p := by
  cases coilFitted b p <;> cases coilFitted s p <;> simp

/-- The coil's change leaves the anchors as they then stand. -/
theorem sensorsChanged_anchorsStand (b : State) (p : Pos) (s : State) :
    AnchorsStand (anchorsCleared b p s) (sensorsChanged b p s) := by
  obtain ⟨h1, h2⟩ | ⟨h1, h2⟩ | h1 := sensorsChanged_cases b p s
  · rw [sensorsChanged_removed h1 h2]
    exact (anchorsStand_of_cls (coilRemoved_changes p _).cls).trans (evaluateEach_anchorsStand _ _)
  · rw [sensorsChanged_added h1 h2]
    exact anchorsStand_of_cls (coilAdded_changes p _).cls
  · rw [sensorsChanged_same h1]
    exact AnchorsStand.refl _

/-- A position seen by the Classifier as it was, or else evaluated, stays judged (R71, R94). -/
theorem JudgedAt.evaluateEvidence {s t : State} {p : Pos} (h : JudgedAt s p) (hf : posFitted s p = true)
    (hst : t.straps = s.straps) (hset : t.settings = s.settings) (hrow : (t.row p.row).state = (s.row p.row).state)
    (hload : t.load = s.load) (hcls : t.cls = s.cls) (ha : awake t = awake s) :
    JudgedAt (Machine.evaluateEvidence s t) p := by
  by_cases he : evidence t p = evidence s p
  · have hv : SameView s t p :=
      ⟨hst, by rw [hset], by rw [hset], by rw [hset], hrow, by rw [hcls], by rw [hload], he⟩
    exact (h.congr hv (by rw [hcls]) ha).evaluateEach _
  · exact judgedAt_evaluateEach (by simp [evidenceChanges, Ne.symm he]) ((posFitted_congr hst p).trans hf)

theorem judgedAt_evaluateEvidence {s t : State} {p : Pos} (hf : posFitted t p = true) (he : evidence s p ≠ evidence t p) :
    JudgedAt (evaluateEvidence s t) p := judgedAt_evaluateEach (by simp [evidenceChanges, he]) hf

theorem coilRemoved_rowState (p : Pos) (s : State) (r : Row) : ((coilRemoved p s).row r).state = (s.row r).state := by
  have hm := coilRemoved_row p s
  by_cases hr : r = p.row
  · rw [hr, hm.row]
    rfl
  · rw [hm.other hr]

/-- A position whose anchors flag was cleared is judged when its sensors have changed. -/
theorem sensorsChanged_judgedAt {b : State} {p : Pos} {s : State} (hst : s.straps = b.straps)
    (h : (anchorsFitted b p && !anchorsFitted s p) = true) : JudgedAt (sensorsChanged b p s) p := by
  have hj := anchorsCleared_judgedAt hst h
  have hc := anchorsCleared_changes b p s
  have hf : posFitted (anchorsCleared b p s) p = true := by
    rw [posFitted_congr (hc.straps.trans hst)]
    exact posFitted_of_sensorFlag (Bool.and_eq_true _ _ ▸ h : anchorsFitted b p = true ∧ _).1
  obtain ⟨h1, h2⟩ | ⟨h1, h2⟩ | h1 := sensorsChanged_cases b p s
  · rw [sensorsChanged_removed h1 h2]
    have hr := coilRemoved_changes p (anchorsCleared b p s)
    exact hj.evaluateEvidence hf hr.straps hr.settings (coilRemoved_rowState p _ p.row) hr.load hr.cls
      (coilRemoved_quiet p _).awake
  · rw [sensorsChanged_added h1 h2]
    have ha := coilAdded_changes p (anchorsCleared b p s)
    refine hj.congr ⟨ha.straps, by rw [ha.settings], by rw [ha.settings], by rw [ha.settings], ?_, by rw [ha.cls],
      by rw [ha.load], coilAdded_evidence p _ p⟩ (by rw [ha.cls]) ha.quiet.awake
    unfold State.row
    rw [ha.line]
  · rw [sensorsChanged_same h1]
    exact hj

end Sys2Proof.Machine
end

section
/-! PROOFS. What a completed write does to the sensors of the positions, up to the end of the event (R15, R63, R68, R72). -/

namespace Sys2Proof.Machine

/-! ### What follows the change of a sensor flag -/

/-- What follows in the event leaves the rows, the child seat unit, the active values and the anchors. -/
structure Follows (s t : State) : Prop where
  straps : t.straps = s.straps
  active : t.settings.active = s.settings.active
  line : t.line = s.line
  child : t.child = s.child
  awake : awake t = awake s
  anchors : AnchorsStand s t
  urgent : UrgentKept s.body.queue t.body.queue

/-- A fitted position that is judged stays judged. -/
def KeepsJudged (s t : State) : Prop := ∀ p, posFitted s p = true → JudgedAt s p → JudgedAt t p

theorem Follows.trans {s t u : State} (h1 : Follows s t) (h2 : Follows t u) : Follows s u :=
  ⟨h2.straps.trans h1.straps, h2.active.trans h1.active, h2.line.trans h1.line, h2.child.trans h1.child,
    h2.awake.trans h1.awake, h1.anchors.trans h2.anchors, h1.urgent.trans h2.urgent⟩

theorem KeepsJudged.trans {s t u : State} (h1 : KeepsJudged s t) (h2 : KeepsJudged t u) (hs : t.straps = s.straps) :
    KeepsJudged s u := fun p hf hj => h2 p ((posFitted_congr hs p).trans hf) (h1 p hf hj)

section
variable {s t : State} (h : Follows s t)
include h

theorem Follows.row (r : Row) : t.row r = s.row r := by
  unfold State.row
  rw [h.line]

theorem Follows.coil (p : Pos) : t.coil p = s.coil p := by
  unfold State.coil
  rw [h.child]

theorem Follows.sensorFlag (p : Pos) (n : Nat) : sensorFlag t p n = sensorFlag s p n :=
  sensorFlag_congr h.straps (by rw [h.active]) n

theorem Follows.evidence (p : Pos) : evidence t p = evidence s p :=
  evidence_congr (by rw [h.child]) (h.coil p)

end

/-! ### What a written value does to the sensors -/

/-- From `s` to `t` a value is written that may change the sensor flags of one position: what that does to the anchors, to
the tag coils, to the child seat list and to the rows (R15, R63, R68, R72). -/
structure SensorsAct (s t : State) : Prop where
  anchors : ∀ p, (t.cls.get p).left
        = (if (anchorsFitted s p && !anchorsFitted t p) = true then ⟨false, none⟩ else (s.cls.get p).left)
      ∧ (t.cls.get p).right
        = (if (anchorsFitted s p && !anchorsFitted t p) = true then ⟨false, none⟩ else (s.cls.get p).right)
      ∧ ((anchorsFitted s p && !anchorsFitted t p) = true → JudgedAt t p)
  removed : ∀ p, coilFitted s p = true → coilFitted t p = false → t.coil p = (s.coil p).removed
      ∧ (t.row p.row).tagRead = ((s.row p.row).discardAt p.seat).tagRead
      ∧ (∀ r, r ≠ p.row → (t.row r).tagRead = (s.row r).tagRead)
      ∧ (evidence s p ≠ evidence t p → JudgedAt t p)
      ∧ (ListInv s.child →
        t.child.entries = s.child.entries.map (fun e => if standsAt p e then { e with state := .missing } else e)
        ∧ (standing s p = none → ∀ q, q ≠ p → t.coil q = s.coil q)
        ∧ ∀ e, standing s p = some e →
          (∀ q, q ≠ p → t.coil q = (if (s.coil q).contest = some e.tag then
            { s.coil q with contest := none, urgent := (s.coil q).urgent || coilFitted s q } else s.coil q))
          ∧ (s.body.queue.length ≤ 22 → kindClass s.settings.active 6 = 1 →
            Waits t.body (childNotice .childSeatMissing p p.num 0 e.tag causeCoilRemoved)))
  added : ∀ p, coilFitted s p = false → coilFitted t p = true →
      t.coil p = (if (s.row p.row).state = .online then
        { s.coil p with scan := some (scanInterval s), due := none, urgent := true } else { s.coil p with urgent := true })
      ∧ (∀ q, q ≠ p → t.coil q = s.coil q) ∧ t.child.entries = s.child.entries
  same : (∀ p, coilFitted t p = coilFitted s p) → t.child = s.child ∧ ∀ r, (t.row r).tagRead = (s.row r).tagRead
  timer : t.line.timer = s.line.timer
  pointer : t.line.pointer = s.line.pointer
  exchange : t.line.exchange = s.line.exchange
  rows : ∀ r, t.row r = { s.row r with tagRead := (t.row r).tagRead }

/-- No flag has changed: nothing moves. -/
theorem sensorsAct_of_same {s x t : State} (hx : ChangesOnly [.settings] s x) (hf : ∀ p n, sensorFlag x p n = sensorFlag s p n)
    (h : Follows x t) : SensorsAct s t := by
  have hflag : ∀ p n, sensorFlag t p n = sensorFlag s p n := fun p n => (h.sensorFlag p n).trans (hf p n)
  have hcoil : ∀ p, coilFitted t p = coilFitted s p := fun p => hflag p 2
  have hline : t.line = s.line := h.line.trans hx.line
  have hchild : t.child = s.child := h.child.trans hx.child
  have hrow : ∀ r, t.row r = s.row r := fun r => by unfold State.row; rw [hline]
  have hanchors : ∀ p, (anchorsFitted s p && !anchorsFitted t p) = false := fun p => by
    rw [show anchorsFitted t p = anchorsFitted s p from hflag p 1]
    cases anchorsFitted s p <;> rfl
  refine ⟨fun p => ?_, fun p h1 h2 => ?_, fun p h1 h2 => ?_, fun _ => ⟨hchild, fun r => by rw [hrow]⟩, by rw [hline],
    by rw [hline], by rw [hline], fun r => by rw [hrow]⟩
  · obtain ⟨hl, hr⟩ := h.anchors p
    rw [hanchors p, hl, hr, hx.cls]
    exact ⟨rfl, rfl, nofun⟩
  · rw [hcoil p, h1] at h2
    nomatch h2
  · rw [hcoil p, h1] at h2
    nomatch h2

theorem anchorsCleared_coil (b : State) (p : Pos) (s : State) (q : Pos) : (anchorsCleared b p s).coil q = s.coil q := by
  unfold State.coil
  rw [(anchorsCleared_changes b p s).child]

theorem anchorsCleared_standing (b : State) (p : Pos) (s : State) (q : Pos) :
    standing (anchorsCleared b p s) q = standing s q := by
  unfold standing
  rw [(anchorsCleared_changes b p s).child]

theorem anchorsCleared_row (b : State) (p : Pos) (s : State) (r : Row) : (anchorsCleared b p s).row r = s.row r := by
  unfold State.row
  rw [(anchorsCleared_changes b p s).line]

theorem anchorsCleared_sensorFlag (b : State) (p : Pos) (s : State) (q : Pos) (n : Nat) :
    sensorFlag (anchorsCleared b p s) q n = sensorFlag s q n :=
  have hc := anchorsCleared_changes b p s
  sensorFlag_congr hc.straps (by rw [hc.settings]) n

theorem anchorsCleared_evidence (b : State) (p : Pos) (s : State) (q : Pos) :
    evidence (anchorsCleared b p s) q = evidence s q :=
  evidence_congr (by rw [(anchorsCleared_changes b p s).child]) (anchorsCleared_coil b p s q)

/-- Of the rows a removed coil marks the read in flight there, and no other change touches them (R15). -/
theorem sensorsChanged_row {b : State} {p : Pos} {s : State} (h1 : coilFitted b p = true) (h2 : coilFitted s p = false) :
    RowMoved p.row (RowRecord.discardAt p.seat) s (sensorsChanged b p s) := by
  have ha : RowMoved p.row id s (anchorsCleared b p s) := by
    unfold RowMoved
    rw [(anchorsCleared_changes b p s).line, PerRow.modify_eq_self rfl]
  rw [sensorsChanged_removed h1 h2]
  exact (ha.andThen (coilRemoved_row p _)).andLeave (evaluateEvidence_changes _ _).line

theorem sensorsChanged_line {b : State} {p : Pos} {s : State} (h : ¬ (coilFitted b p = true ∧ coilFitted s p = false)) :
    (sensorsChanged b p s).line = s.line := by
  obtain h1 | ⟨h1, h2⟩ | h1 := sensorsChanged_cases b p s
  · exact absurd h1 h
  · rw [sensorsChanged_added h1 h2, (coilAdded_changes p _).line, (anchorsCleared_changes b p s).line]
  · rw [sensorsChanged_same h1, (anchorsCleared_changes b p s).line]

/-- The line and its rows stand but for the tag reads. -/
theorem sensorsChanged_rows (b : State) (p : Pos) (s : State) : (sensorsChanged b p s).line.timer = s.line.timer
    ∧ (sensorsChanged b p s).line.pointer = s.line.pointer ∧ (sensorsChanged b p s).line.exchange = s.line.exchange
    ∧ ∀ r, (sensorsChanged b p s).row r = { s.row r with tagRead := ((sensorsChanged b p s).row r).tagRead } := by
  by_cases h : coilFitted b p = true ∧ coilFitted s p = false
  · have hm := sensorsChanged_row h.1 h.2
    refine ⟨hm.timer, hm.pointer, hm.exchange, fun r => ?_⟩
    by_cases hr : r = p.row
    · rw [hr, hm.row]
      rfl
    · rw [hm.other hr]
  · have e := sensorsChanged_line h
    unfold State.row
    rw [e]
    exact ⟨rfl, rfl, rfl, fun _ => rfl⟩

section
variable {w : WriteInFlight} {s t : State} {p : Pos} (hg : idGroup w.id = p.num)
  (h : Follows (sensorsChanged s p (valueStands w s)) t)

include h in
theorem sensorFlag_after (q : Pos) (n : Nat) : sensorFlag t q n = sensorFlag (valueStands w s) q n :=
  (h.sensorFlag q n).trans (sensorFlag_congr (sensorsChanged_changes s p _).straps
    (by rw [(sensorsChanged_changes s p _).settings]) n)

include hg in
/-- A write of a position's sensor word moves the flags of no other position. -/
theorem sensorFlag_elsewhere {q : Pos} (hq : q ≠ p) (n : Nat) : sensorFlag (valueStands w s) q n = sensorFlag s q n :=
  valueStands_sensorFlag (fun hc => hq (Pos.num_injective (hc.1.symm.trans hg))) n

include hg h in
theorem eq_of_flag_changed {q : Pos} {n : Nat} {a b : Bool} (h1 : sensorFlag s q n = a) (h2 : sensorFlag t q n = b)
    (hab : a ≠ b) : q = p :=
  Classical.byContradiction (fun hq => hab (h1.symm.trans ((sensorFlag_elsewhere hg hq n).symm.trans
    ((sensorFlag_after h q n).symm.trans h2))))

include hg h in
theorem anchors_after (hk : KeepsJudged (sensorsChanged s p (valueStands w s)) t) (q : Pos) :
    (t.cls.get q).left
        = (if (anchorsFitted s q && !anchorsFitted t q) = true then ⟨false, none⟩ else (s.cls.get q).left)
      ∧ (t.cls.get q).right
        = (if (anchorsFitted s q && !anchorsFitted t q) = true then ⟨false, none⟩ else (s.cls.get q).right)
      ∧ ((anchorsFitted s q && !anchorsFitted t q) = true → JudgedAt t q) := by
  obtain ⟨hl, hr⟩ := (sensorsChanged_anchorsStand s p (valueStands w s)).trans h.anchors q
  obtain ⟨al, ar⟩ := anchorsCleared_anchors s p (valueStands w s) q
  have hflag : anchorsFitted t q = anchorsFitted (valueStands w s) q := sensorFlag_after h q 1
  have hiff : (q = p ∧ (anchorsFitted s p && !anchorsFitted (valueStands w s) p) = true)
      ↔ (anchorsFitted s q && !anchorsFitted t q) = true := by
    rw [hflag]
    refine ⟨fun hc => by rw [hc.1]; exact hc.2, fun hc => ?_⟩
    obtain ⟨h1, h2⟩ := Bool.and_eq_true _ _ ▸ hc
    have hq := eq_of_flag_changed hg h h1 (hflag.trans (by simpa using h2)) (by decide)
    exact ⟨hq, by rwa [hq] at hc⟩
  refine ⟨hl.trans (al.trans (if_congr hiff rfl rfl)), hr.trans (ar.trans (if_congr hiff rfl rfl)), fun hc => ?_⟩
  obtain ⟨rfl, hc⟩ := hiff.mpr hc
  refine hk q ?_ (sensorsChanged_judgedAt rfl hc)
  rw [posFitted_congr (sensorsChanged_changes s q (valueStands w s)).straps]
  exact posFitted_of_sensorFlag (s := s) (Bool.and_eq_true _ _ ▸ hc : anchorsFitted s q = true ∧ _).1

include hg h in
theorem removed_after (hk : KeepsJudged (sensorsChanged s p (valueStands w s)) t) (h1 : coilFitted s p = true)
    (h2 : coilFitted t p = false) : t.coil p = (s.coil p).removed
      ∧ (t.row p.row).tagRead = ((s.row p.row).discardAt p.seat).tagRead
      ∧ (∀ r, r ≠ p.row → (t.row r).tagRead = (s.row r).tagRead)
      ∧ (evidence s p ≠ evidence t p → JudgedAt t p)
      ∧ (ListInv s.child →
        t.child.entries = s.child.entries.map (fun e => if standsAt p e then { e with state := .missing } else e)
        ∧ (standing s p = none → ∀ q, q ≠ p → t.coil q = s.coil q)
        ∧ ∀ e, standing s p = some e →
          (∀ q, q ≠ p → t.coil q = (if (s.coil q).contest = some e.tag then
            { s.coil q with contest := none, urgent := (s.coil q).urgent || coilFitted s q } else s.coil q))
          ∧ (s.body.queue.length ≤ 22 → kindClass s.settings.active 6 = 1 →
            Waits t.body (childNotice .childSeatMissing p p.num 0 e.tag causeCoilRemoved))) := by
  have h2' : coilFitted (valueStands w s) p = false := (sensorFlag_after h p 2).symm.trans h2
  have hx := sensorsChanged_removed h1 h2'
  have hm := sensorsChanged_row h1 h2'
  have hev := evaluateEvidence_changes (anchorsCleared s p (valueStands w s)) (coilRemoved p (anchorsCleared s p (valueStands w s)))
  have hac := anchorsCleared_changes s p (valueStands w s)
  have hchild : t.child = (coilRemoved p (anchorsCleared s p (valueStands w s))).child := by rw [h.child, hx, hev.child]
  have hcoil : ∀ q, t.coil q = (coilRemoved p (anchorsCleared s p (valueStands w s))).coil q := fun q => by
    unfold State.coil
    rw [hchild]
  have hstand : standing (anchorsCleared s p (valueStands w s)) p = standing s p := anchorsCleared_standing s p _ p
  refine ⟨?_, ?_, fun r hr => ?_, fun he => ?_, fun hinv => ⟨?_, fun hn q hq => ?_, fun e hs => ⟨fun q hq => ?_, fun hl hc => ?_⟩⟩⟩
  · rw [hcoil, coilRemoved_coil_self, anchorsCleared_coil]
    rfl
  · rw [h.row, hm.row]
    rfl
  · rw [h.row, hm.other hr]
    rfl
  · have hfit : posFitted (coilRemoved p (anchorsCleared s p (valueStands w s))) p = true := by
      rw [posFitted_congr ((coilRemoved_changes p _).straps.trans hac.straps)]
      exact posFitted_of_sensorFlag (s := s) h1
    have hevt : evidence t p = evidence (coilRemoved p (anchorsCleared s p (valueStands w s))) p :=
      evidence_congr (by rw [hchild]) (hcoil p)
    refine hk p ?_ (hx ▸ judgedAt_evaluateEvidence hfit ?_)
    · rw [hx, posFitted_congr hev.straps]
      exact hfit
    · rw [anchorsCleared_evidence, ← hevt]
      exact he
  · have he : (anchorsCleared s p (valueStands w s)).child = s.child := hac.child
    rw [hchild, coilRemoved_entries (by rw [he]; exact hinv.1) (by rw [he]; exact hinv.2.1), he]
  · rw [hcoil, (coilRemoved_coil_other hq _).1 (hstand.trans hn), anchorsCleared_coil]
    rfl
  · rw [hcoil, (coilRemoved_coil_other hq _).2 e (hstand.trans hs), anchorsCleared_coil,
      show coilFitted (anchorsCleared s p (valueStands w s)) q = coilFitted s q from
        (anchorsCleared_sensorFlag s p _ q 2).trans (sensorFlag_elsewhere hg hq 2)]
    rfl
  · have hq := anchorsCleared_queue_length_le s p (valueStands w s)
    have hkc : kindClass (anchorsCleared s p (valueStands w s)).settings.active 6 = 1 := by
      have hr := Pos.num_range p
      rw [hac.settings, valueStands_kindClass (by omega)]
      exact hc
    have hlen : (anchorsCleared s p (valueStands w s)).body.queue.length < 24 := by
      have : (valueStands w s).body.queue.length = s.body.queue.length := rfl
      omega
    obtain ⟨x, hx1, hx2, hx3⟩ := hev.quiet.waits (coilRemoved_waits (hstand.trans hs) hkc hlen)
    rw [← hx] at hx1
    obtain ⟨y, hy, _, hy3⟩ := h.urgent x hx1 hx2
    exact ⟨y, hy, hy3.trans hx3⟩

include hg h in
theorem added_after (h1 : coilFitted s p = false) (h2 : coilFitted t p = true) :
    t.coil p = (if (s.row p.row).state = .online then
        { s.coil p with scan := some (scanInterval s), due := none, urgent := true } else { s.coil p with urgent := true })
      ∧ (∀ q, q ≠ p → t.coil q = s.coil q) ∧ t.child.entries = s.child.entries := by
  have h2' : coilFitted (valueStands w s) p = true := (sensorFlag_after h p 2).symm.trans h2
  have hx := sensorsChanged_added h1 h2'
  have hac := anchorsCleared_changes s p (valueStands w s)
  have hcoil : ∀ q, t.coil q = (coilAdded p (anchorsCleared s p (valueStands w s))).coil q := fun q => by rw [h.coil, hx]
  have hf : coilFitted (anchorsCleared s p (valueStands w s)) p = true := (anchorsCleared_sensorFlag s p _ p 2).trans h2'
  have hscan : scanInterval (anchorsCleared s p (valueStands w s)) = scanInterval s := by
    have hr := Pos.num_range p
    rw [← valueStands_scanInterval (w := w) (s := s) (by omega)]
    unfold scanInterval
    rw [hac.settings, (anchorsCleared_quiet s p _).device]
  refine ⟨?_, fun q hq => ?_, ?_⟩
  · rw [hcoil, coilAdded_coil hf, if_pos rfl, anchorsCleared_row, anchorsCleared_coil, hscan]
    rfl
  · rw [hcoil, coilAdded_coil hf, if_neg hq, anchorsCleared_coil]
    rfl
  · rw [h.child, hx, coilAdded_entries, hac.child]
    rfl

/-- A position's sensor word is written. -/
theorem sensorsAct_of_written (hg : idGroup w.id = p.num) (h : Follows (sensorsChanged s p (valueStands w s)) t)
    (hk : KeepsJudged (sensorsChanged s p (valueStands w s)) t) : SensorsAct s t := by
  obtain ⟨htimer, hpointer, hexchange, hrows⟩ := sensorsChanged_rows s p (valueStands w s)
  refine ⟨anchors_after hg h hk, fun q h1 h2 => ?_, fun q h1 h2 => ?_, fun hc => ?_, by rw [h.line]; exact htimer,
    by rw [h.line]; exact hpointer, by rw [h.line]; exact hexchange, fun r => by rw [h.row]; exact hrows r⟩
  · have hq := eq_of_flag_changed hg h h1 h2 (by decide)
    subst hq
    exact removed_after hg h hk h1 h2
  · have hq := eq_of_flag_changed hg h h1 h2 (by decide)
    subst hq
    exact added_after hg h h1 h2
  · have hp : coilFitted (valueStands w s) p = coilFitted s p := (sensorFlag_after h p 2).symm.trans (hc p)
    have hac := anchorsCleared_changes s p (valueStands w s)
    refine ⟨?_, fun r => ?_⟩
    · rw [h.child, sensorsChanged_same hp, hac.child]
      rfl
    · rw [h.row, sensorsChanged_same hp, anchorsCleared_row]
      rfl

end

end Sys2Proof.Machine
end

section
/-! PROOFS. What a completed write does to the marks and conditions of the settings and to the load states, up to the end of
the event (R56, R58, R168, R170). -/

namespace Sys2Proof.Machine

/-! ### What leaves the sensors' part alone -/

/-- Evaluations, and changes of the load states and of the settings beyond the active values. -/
theorem follows_of_evaluations {s t : State} (h : ChangesOnly [.load, .cls, .settings] s t)
    (ha : t.settings.active = s.settings.active) (hc : AnchorsStand s t) : Follows s t :=
  ⟨h.straps, ha, h.line, h.child, by unfold awake; rw [h.monitor], hc, by rw [h.body]; exact UrgentKept.refl _⟩

/-- The blocks that the batch of an event and its end can change. -/
def closingBlocks : List Block := [.monitor, .pub, .rem, .cadence, .body]

theorem follows_of_closing {s t : State} (h : ChangesOnly closingBlocks s t) (ha : awake t = awake s)
    (hu : UrgentKept s.body.queue t.body.queue) : Follows s t :=
  ⟨h.straps, by rw [h.settings], h.line, h.child, ha, anchorsStand_of_cls h.cls, hu⟩

theorem keepsJudged_of_closing {s t : State} (h : ChangesOnly closingBlocks s t) (ha : awake t = awake s) :
    KeepsJudged s t := fun _ _ hj => hj.leave h ha

theorem gainWritten_follows (p : Pos) (s : State) : Follows s (gainWritten p s) :=
  follows_of_evaluations (gainWritten_changes p s).widen (gainWritten_settings p s).1 (gainWritten_anchorsStand p s)

theorem revalidate_follows (p : Pos) (s : State) : Follows s (revalidate p s) :=
  follows_of_evaluations (revalidate_changes p s).widen (by rw [(revalidate_settings p s).1]) (revalidate_anchorsStand p s)

theorem madeStale_follows (ps : List Pos) (s : State) : Follows s (madeStale ps s) :=
  follows_of_evaluations (madeStale_changes ps s).widen (by rw [(madeStale_changes ps s).settings])
    (madeStale_anchorsStand ps s)

theorem revalidate_keepsJudged (p : Pos) (s : State) : KeepsJudged s (revalidate p s) := fun _ hf hj => hj.revalidate hf p

theorem madeStale_keepsJudged (ps : List Pos) (s : State) : KeepsJudged s (madeStale ps s) := fun _ _ hj => hj.madeStale ps

/-! ### Gains (R168) -/

/-- The fitted restraint positions, by their numbers (R3, R168). -/
theorem wantsGain_eq (s : State) (p : Pos) : wantsGain s p = (posFitted s p && (decide (p.num = 2) || decide (p.num = 3))) := by
  have h : isRestraint p = (decide (p.num = 2) || decide (p.num = 3)) := by
    obtain ⟨r, k⟩ := p
    cases r <;> cases k <;> rfl
  unfold wantsGain
  rw [h, Bool.and_comm]

theorem wantsGain_congr {s t : State} (h : t.straps = s.straps) (p : Pos) : wantsGain t p = wantsGain s p := by
  unfold wantsGain
  rw [posFitted_congr h]

/-- A gain of the position, a fitted restraint position, is what is written. -/
def gainOf (s : State) (g i : Nat) (p : Pos) : Bool := wantsGain s p && decide (g = p.num ∧ 8 ≤ i ∧ i ≤ 15)

/-- From `s` to `t` value `i` of group `g` is written: what that does to the gain-written marks and to UNCALIBRATED. -/
structure GainsAct (s t : State) (g i : Nat) : Prop where
  marks : ∀ q, t.settings.gainWritten.get q = (s.settings.gainWritten.get q || gainOf s g i q)
  calibrated : (∃ p, gainOf s g i p = true) → (∀ q, wantsGain s q = true → t.settings.gainWritten.get q = true) →
    ∀ q, t.settings.uncalibrated.get q = false ∧ (wantsGain s q = true → JudgedAt t q)
  uncalibrated : (∀ p, gainOf s g i p = false) ∨ (∃ q, wantsGain s q = true ∧ t.settings.gainWritten.get q = false) →
    t.settings.uncalibrated = s.settings.uncalibrated

theorem gainsAct_of_same {s t : State} {g i : Nat} (h : ∀ p, gainOf s g i p = false)
    (hw : t.settings.gainWritten = s.settings.gainWritten) (hu : t.settings.uncalibrated = s.settings.uncalibrated) :
    GainsAct s t g i := by
  refine ⟨fun q => by rw [hw, h, Bool.or_false], fun ⟨p, hp⟩ => ?_, fun _ => hu⟩
  rw [h p] at hp
  nomatch hp

theorem gainsAct_of_written {s x t : State} {p : Pos} {i : Nat} (hx : x.straps = s.straps)
    (hxw : x.settings.gainWritten = s.settings.gainWritten) (hxu : x.settings.uncalibrated = s.settings.uncalibrated)
    (hi : 8 ≤ i ∧ i ≤ 15) (hw : t.settings.gainWritten = (gainWritten p x).settings.gainWritten)
    (hu : t.settings.uncalibrated = (gainWritten p x).settings.uncalibrated) (hk : KeepsJudged (gainWritten p x) t) :
    GainsAct s t p.num i := by
  obtain ⟨_, _, hmarks, hcal, hun⟩ := gainWritten_settings p x
  have hwants : ∀ q, wantsGain x q = wantsGain s q := wantsGain_congr hx
  have hof : ∀ q, gainOf s p.num i q = (wantsGain x p && decide (q = p)) := fun q => by
    unfold gainOf
    by_cases hq : q = p
    · subst hq
      rw [hwants]
      simp [hi]
    · have hn : p.num ≠ q.num := fun hn => hq (Pos.num_injective hn).symm
      simp [hq, hn]
  simp only [hwants] at hcal hun
  refine ⟨fun q => by rw [hw, hmarks, hof, hxw], fun ⟨q, hq⟩ hall z => ?_, fun h => ?_⟩
  · have hp : wantsGain s p = true := by
      rw [hof, Bool.and_eq_true] at hq
      exact (hwants p).symm.trans hq.1
    have hall' : ∀ q, wantsGain s q = true → (gainWritten p x).settings.gainWritten.get q = true := fun q hq => by
      rw [← hw]
      exact hall q hq
    refine ⟨by rw [hu]; exact hcal hp hall' z, fun hz => hk z ?_ (gainWritten_judgedAt ((hwants p).trans hp)
      (fun q hq => hall' q ((hwants q).symm.trans hq)) ((hwants z).trans hz))⟩
    rw [posFitted_congr ((gainWritten_changes p x).straps.trans hx)]
    exact (Bool.and_eq_true _ _ ▸ hz : isRestraint z = true ∧ posFitted s z = true).2
  · rw [hu, hun, hxu]
    obtain h | ⟨q, hq, hn⟩ := h
    · have hp := h p
      rw [hof, decide_eq_true rfl, Bool.and_true, hwants] at hp
      exact .inl hp
    · exact .inr ⟨q, hq, by rw [← hw]; exact hn⟩

/-! ### The validity of a position's record (R170) -/

/-- From `s` to `t` a value of group `g` is written: what that does to POSITION_CONFIG_FAULT. -/
def FaultsAct (s t : State) (g : Nat) : Prop := ∀ p,
  (g = p.num → PositionRecordPasses s p (t.settings.active.positions.get p) → t.settings.posFault.get p = false
    ∧ (s.settings.posFault.get p = true → posFitted s p = true → JudgedAt t p))
  ∧ (g ≠ p.num ∨ ¬ PositionRecordPasses s p (t.settings.active.positions.get p) →
    t.settings.posFault.get p = s.settings.posFault.get p)

theorem faultsAct_of_same {s t : State} {g : Nat} (h : ∀ p : Pos, g ≠ p.num)
    (hf : t.settings.posFault = s.settings.posFault) : FaultsAct s t g :=
  fun p => ⟨fun hg => absurd hg (h p), fun _ => by rw [hf]⟩

theorem positionRecordPasses_congr {s t : State} (h : t.straps = s.straps) (p : Pos) (l : List Word16) :
    PositionRecordPasses t p l ↔ PositionRecordPasses s p l := by
  unfold PositionRecordPasses
  rw [posFitted_congr h]

theorem faultsAct_of_written {s x t : State} {p : Pos} (hx : x.straps = s.straps)
    (hxf : x.settings.posFault = s.settings.posFault) (ht : t.settings = (revalidate p x).settings)
    (hk : KeepsJudged (revalidate p x) t) : FaultsAct s t p.num := by
  obtain ⟨hset, hfault⟩ := revalidate_settings p x
  have hact : t.settings.active = x.settings.active := by rw [ht, hset]
  have hpass : ∀ l, positionRecordPasses x p l = true ↔ PositionRecordPasses s p l := fun l =>
    (positionRecordPasses_iff x p l).trans (positionRecordPasses_congr hx p l)
  intro q
  rw [ht, hfault, ← ht, hact]
  refine ⟨fun hg hp => ?_, fun hn => ?_⟩
  · obtain rfl := Pos.num_injective hg
    have hp' := (hpass _).mpr hp
    refine ⟨if_pos ⟨rfl, hp'⟩, fun hs hf => hk p ?_ (revalidate_judgedAt ?_ ((posFitted_congr hx p).trans hf))⟩
    · rw [posFitted_congr ((revalidate_changes p x).straps.trans hx)]
      exact hf
    · unfold healed
      rw [hxf, hs]
      exact hp'
  · rw [if_neg, hxf]
    rintro ⟨rfl, hp⟩
    obtain hn | hn := hn
    · exact hn rfl
    · exact hn ((hpass _).mp hp)

/-! ### Stale limits (R56, R58) -/

/-- The position's running age is past its stale limit, which the write from `s` to `t` has changed. -/
def Overdue (s t : State) (p : Pos) : Prop := posFitted s p = true ∧ (s.load.get p).ageMode = .running
  ∧ (s.load.get p).stale = false ∧ staleLimit t p ≠ staleLimit s p ∧ staleLimit t p < (s.load.get p).age

/-- From `s` to `t` a value is written: what that does to the load states. -/
def LoadsAct (s t : State) : Prop := ∀ p,
  (Overdue s t p → t.load.get p = (s.load.get p).becomeStale ∧ JudgedAt t p)
  ∧ (¬ Overdue s t p → t.load.get p = s.load.get p)

theorem staleLimit_congr {s t : State} (h : t.settings.active = s.settings.active) (p : Pos) :
    staleLimit t p = staleLimit s p := by
  unfold staleLimit
  rw [h]

theorem staleTargets_nodup (s t : State) : (staleTargets s t).Nodup := allPos_nodup.filter _

theorem mem_staleTargets {s t : State} {p : Pos} : p ∈ staleTargets s t ↔ staleLimit t p ≠ staleLimit s p := by
  unfold staleTargets
  simp [ne_comm]

theorem loadsAct_of_madeStale {s x t : State} (hx : x.straps = s.straps) (hxl : x.load = s.load)
    (ht : t.load = (madeStale (staleTargets s x) x).load) (ha : t.settings.active = x.settings.active)
    (hk : KeepsJudged (madeStale (staleTargets s x) x) t) : LoadsAct s t := by
  intro p
  have hover : Overdue s t p ↔ p ∈ staleTargets s x ∧ pastLimit x p = true := by
    rw [pastLimit_iff, mem_staleTargets, posFitted_congr hx, hxl]
    unfold Overdue
    rw [staleLimit_congr ha]
    tauto
  obtain ⟨h1, h2⟩ := madeStale_load (staleTargets_nodup s x) x p
  rw [hover, ht]
  rw [hxl] at h1 h2
  refine ⟨fun h => ⟨(h1 h.1 h.2).1, hk p ?_ (h1 h.1 h.2).2⟩, h2⟩
  rw [posFitted_congr (madeStale_changes _ x).straps]
  exact (pastLimit_iff.mp h.2).1

theorem madeStale_none {s x : State} (h : ∀ p, staleLimit x p = staleLimit s p) : madeStale (staleTargets s x) x = x := by
  have e : staleTargets s x = [] := List.eq_nil_iff_forall_not_mem.mpr (fun p hp => mem_staleTargets.mp hp (h p))
  rw [e]
  rfl

/-! ### A position's record is written -/

theorem positionEffects_sensors (b : State) (p : Pos) (s : State) :
    positionEffects b p 19 s = revalidate p (sensorsChanged b p s) := rfl

theorem positionEffects_gain (b : State) (p : Pos) {i : Nat} (h : 8 ≤ i ∧ i ≤ 15) (s : State) :
    positionEffects b p i s = revalidate p (gainWritten p s) := by
  unfold positionEffects
  rw [if_neg (by omega)]
  exact congrArg (revalidate p) (if_pos h)

theorem positionEffects_other (b : State) (p : Pos) {i : Nat} (h1 : i ≠ 19) (h2 : ¬ (8 ≤ i ∧ i ≤ 15)) (s : State) :
    positionEffects b p i s = revalidate p s := by
  unfold positionEffects
  rw [if_neg h1]
  exact congrArg (revalidate p) (if_neg h2)

/-- What the write of a value does to sensors, gains, validity and load states, where no check table is written. -/
structure RecordActs (s t : State) (g i : Nat) : Prop where
  sensors : SensorsAct s t
  gains : GainsAct s t g i
  faults : FaultsAct s t g
  loads : LoadsAct s t

theorem gainOf_eq_false {s : State} {g i : Nat} (h : (∀ p : Pos, g ≠ p.num) ∨ ¬ (8 ≤ i ∧ i ≤ 15)) (p : Pos) :
    gainOf s g i p = false := by
  unfold gainOf
  rw [decide_eq_false, Bool.and_false]
  rintro ⟨hg, hi⟩
  exact h.elim (fun h => h p hg) (fun h => h hi)

/-- A value outside the positions' records and the check table is written. -/
theorem recordActs_elsewhere {w : WriteInFlight} {s t : State} {i : Nat} (hg : ∀ p : Pos, idGroup w.id ≠ p.num)
    (hc : ChangesOnly closingBlocks (madeStale (staleTargets s (valueStands w s)) (valueStands w s)) t)
    (ha : awake t = awake (madeStale (staleTargets s (valueStands w s)) (valueStands w s)))
    (hu : UrgentKept (madeStale (staleTargets s (valueStands w s)) (valueStands w s)).body.queue t.body.queue) :
    RecordActs s t (idGroup w.id) i := by
  have hm := madeStale_changes (staleTargets s (valueStands w s)) (valueStands w s)
  have hset : t.settings = (valueStands w s).settings := hc.settings.trans hm.settings
  refine ⟨?_, gainsAct_of_same (gainOf_eq_false (.inl hg)) (by rw [hset]; rfl) (by rw [hset]; rfl),
    faultsAct_of_same hg (by rw [hset]; rfl), ?_⟩
  · exact sensorsAct_of_same (valueStands_changes w s) (fun p n => valueStands_sensorFlag (fun h => hg p h.1) n)
      ((madeStale_follows _ _).trans (follows_of_closing hc ha hu))
  · exact loadsAct_of_madeStale (x := valueStands w s) rfl rfl hc.load (by rw [hset]) (keepsJudged_of_closing hc ha)

/-- A value of a position's record is written, which is validated again after what the value itself does. -/
theorem recordActs_validated {s x t : State} {p : Pos} {i : Nat} (hx : x.straps = s.straps) (hxl : x.load = s.load)
    (hxf : x.settings.posFault = s.settings.posFault)
    (hc : ChangesOnly closingBlocks (madeStale (staleTargets s (revalidate p x)) (revalidate p x)) t)
    (ha : awake t = awake (madeStale (staleTargets s (revalidate p x)) (revalidate p x)))
    (hu : UrgentKept (madeStale (staleTargets s (revalidate p x)) (revalidate p x)).body.queue t.body.queue)
    (hact : Follows x t → KeepsJudged x t → t.settings = { x.settings with posFault := t.settings.posFault } →
      SensorsAct s t ∧ GainsAct s t p.num i) : RecordActs s t p.num i := by
  have hr := revalidate_changes p x
  have hm := madeStale_changes (staleTargets s (revalidate p x)) (revalidate p x)
  have hset : t.settings = (revalidate p x).settings := hc.settings.trans hm.settings
  have hf : Follows (revalidate p x) t := (madeStale_follows _ _).trans (follows_of_closing hc ha hu)
  have hk : KeepsJudged (revalidate p x) t :=
    (madeStale_keepsJudged _ _).trans (keepsJudged_of_closing hc ha) hm.straps
  obtain ⟨hs, hg⟩ := hact ((revalidate_follows p x).trans hf) ((revalidate_keepsJudged p x).trans hk hr.straps)
    (by rw [hset]; exact (revalidate_settings p x).1)
  exact ⟨hs, hg, faultsAct_of_written hx hxf hset hk, loadsAct_of_madeStale (hr.straps.trans hx) (hr.load.trans hxl) hc.load
    (by rw [hset]) (keepsJudged_of_closing hc ha)⟩

/-- A value of a position's record is written. -/
theorem recordActs_position {w : WriteInFlight} {s e t : State} {p : Pos} (hg : idGroup w.id = p.num)
    (he : e = positionEffects s p (idIndex w.id) (valueStands w s))
    (hc : ChangesOnly closingBlocks (madeStale (staleTargets s e) e) t)
    (ha : awake t = awake (madeStale (staleTargets s e) e))
    (hu : UrgentKept (madeStale (staleTargets s e) e).body.queue t.body.queue) :
    RecordActs s t p.num (idIndex w.id) := by
  have hflags : idIndex w.id ≠ 19 → ∀ q n, sensorFlag (valueStands w s) q n = sensorFlag s q n :=
    fun hi q n => valueStands_sensorFlag (fun h => hi h.2) n
  by_cases h19 : idIndex w.id = 19
  · rw [h19, positionEffects_sensors] at he
    subst he
    have hx := sensorsChanged_changes s p (valueStands w s)
    refine recordActs_validated hx.straps hx.load (by rw [hx.settings]; rfl) hc ha hu (fun hf hk hset => ⟨?_, ?_⟩)
    · exact sensorsAct_of_written hg hf hk
    · rw [hx.settings] at hset
      exact gainsAct_of_same (gainOf_eq_false (.inr (by omega))) (by rw [hset]; rfl) (by rw [hset]; rfl)
  · by_cases hi : 8 ≤ idIndex w.id ∧ idIndex w.id ≤ 15
    · rw [positionEffects_gain s p hi] at he
      subst he
      have hx := gainWritten_changes p (valueStands w s)
      refine recordActs_validated hx.straps hx.load (gainWritten_settings p _).2.1 hc ha hu (fun hf hk hset => ⟨?_, ?_⟩)
      · exact sensorsAct_of_same (valueStands_changes w s) (hflags h19) ((gainWritten_follows p _).trans hf)
      · exact gainsAct_of_written (x := valueStands w s) rfl rfl rfl hi (by rw [hset]) (by rw [hset]) hk
    · rw [positionEffects_other s p h19 hi] at he
      subst he
      refine recordActs_validated (x := valueStands w s) rfl rfl rfl hc ha hu (fun hf _ hset => ⟨?_, ?_⟩)
      · exact sensorsAct_of_same (valueStands_changes w s) (hflags h19) hf
      · exact gainsAct_of_same (gainOf_eq_false (.inr hi)) (by rw [hset]; rfl) (by rw [hset]; rfl)

end Sys2Proof.Machine
end

section
/-! PROOFS. A new check table: the walks of the CHECKING rows restart, or with an empty table the rows enter ONLINE (R12, R30,
R31, R36). -/

namespace Sys2Proof.Machine

/-! ### An entry to ONLINE among other changes -/

/-- The load state, the coil and the Classifier's state of a position stand. -/
def PlaceStands (p : Pos) (s t : State) : Prop :=
  t.load.get p = s.load.get p ∧ t.coil p = s.coil p ∧ t.cls.get p = s.cls.get p

theorem PlaceStands.refl (p : Pos) (s : State) : PlaceStands p s s := ⟨rfl, rfl, rfl⟩

theorem PlaceStands.trans {p : Pos} {s t u : State} (h1 : PlaceStands p s t) (h2 : PlaceStands p t u) : PlaceStands p s u := by
  obtain ⟨a1, b1, c1⟩ := h1
  obtain ⟨a2, b2, c2⟩ := h2
  exact ⟨a2.trans a1, b2.trans b1, c2.trans c1⟩

theorem ChangesOnly.placeStands {bs : List Block} {s t : State} (h : ChangesOnly bs s t) (p : Pos)
    (h1 : bs.contains Block.load = false := by rfl) (h2 : bs.contains Block.child = false := by rfl)
    (h3 : bs.contains Block.cls = false := by rfl) : PlaceStands p s t := by
  unfold PlaceStands State.coil
  rw [h.load h1, h.child h2, h.cls h3]
  exact ⟨rfl, rfl, rfl⟩

/-- What precedes the entry left the row's positions, and what an entry reads elsewhere. -/
theorem EntersOnline.ofAlike {s u t : State} {r : Row} (h : EntersOnline u t r) (hs : u.straps = s.straps)
    (hm : u.monitor.hold = s.monitor.hold) (ha : awake u = awake s) (hc : ∀ p, coilFitted u p = coilFitted s p)
    (hi : scanInterval u = scanInterval s) (hp : ∀ p, p.row = r → PlaceStands p s u) : EntersOnline s t r := by
  obtain ⟨h1, h2, h3, h4⟩ := h
  refine ⟨h1, h2, h3, fun p hr hf => ?_⟩
  obtain ⟨el, ec, ek⟩ := hp p hr
  have h5 := h4 p hr ((posFitted_congr hs p).trans hf)
  rwa [el, ec, ek, hm, ha, hc, hi] at h5

/-- What follows the entry left the row and its positions. -/
theorem EntersOnline.andStand {s t u : State} {r : Row} (h : EntersOnline s t r) (hs : Steady t u) (hr : u.row r = t.row r)
    (hp : ∀ p, p.row = r → PlaceStands p t u) : EntersOnline s u r := by
  obtain ⟨h1, h2, h3, h4⟩ := h
  refine ⟨by rw [hr]; exact h1, by rw [hr]; exact h2, by rw [hr]; exact h3, fun p hpr hf => ?_⟩
  obtain ⟨el, ec, ek⟩ := hp p hpr
  rw [el, ec, ek, show startRecord u p = startRecord t p from
    startRecord_congr hs.1 (by rw [hs.2.1]) (by rw [hs.2.1]) (by rw [hpr, hr])]
  exact h4 p hpr hf

/-! ### One row -/

/-- The record of a CHECKING row by the new table: its walk restarts with its attempts kept, and with an empty table the row
is ONLINE (R30, R31). -/
def RowRecord.recheck (n : Nat) (x : RowRecord) : RowRecord :=
  if n = 0 then { x with walk := ⟨0, .read, x.walk.attempts⟩, state := .online, score := 0, stability := some 10000 }
  else { x with walk := ⟨0, .read, x.walk.attempts⟩ }

/-- The state in which the walk of a row has restarted. -/
def walkRestarted (r : Row) (s : State) : State := s.onRow r (fun x => { x with walk := ⟨0, .read, x.walk.attempts⟩ })

/-- A CHECKING row takes the new table. -/
def rechecked (r : Row) (s : State) : State :=
  if checkCount s.settings.active = 0 then enterOnline r (walkRestarted r s) else walkRestarted r s

theorem rechecked_empty {s : State} (h : checkCount s.settings.active = 0) (r : Row) :
    rechecked r s = enterOnline r (walkRestarted r s) := if_pos h

theorem rechecked_entries {s : State} (h : checkCount s.settings.active ≠ 0) (r : Row) :
    rechecked r s = walkRestarted r s := if_neg h

theorem walkRestarted_changes (r : Row) (s : State) : ChangesOnly [.line] s (walkRestarted r s) := changes_onRow s r _

theorem rechecked_quiet (r : Row) (s : State) : Quiet s (rechecked r s) :=
  quiet_ite ((walkRestarted_changes r s).quiet.andThen (enterOnline_quiet r _)) (walkRestarted_changes r s).quiet

theorem rechecked_changes (r : Row) (s : State) : ChangesOnly [.line, .load, .child, .cls, .rem, .body] s (rechecked r s) :=
  changesOnly_ite ((walkRestarted_changes r s).widen.andThen (enterOnline_changes r _)) (walkRestarted_changes r s).widen

theorem rechecked_steady (r : Row) (s : State) : Steady s (rechecked r s) :=
  (rechecked_changes r s).steady (rechecked_quiet r s)

theorem rechecked_row (r : Row) (s : State) :
    RowMoved r (RowRecord.recheck (checkCount s.settings.active)) s (rechecked r s) := by
  have hw : RowMoved r (fun x => { x with walk := ⟨0, .read, x.walk.attempts⟩ }) s (walkRestarted r s) := rowMoved_onRow s r _
  by_cases h : checkCount s.settings.active = 0
  · rw [rechecked_empty h]
    exact (hw.andThen (enterOnline_row r _)).congr (if_pos h).symm
  · rw [rechecked_entries h]
    exact hw.congr (if_neg h).symm

theorem rechecked_placeStands {r : Row} {p : Pos} (hp : p.row ≠ r) (s : State) : PlaceStands p s (rechecked r s) := by
  have hw := (walkRestarted_changes r s).placeStands p
  by_cases h : checkCount s.settings.active = 0
  · have hm : p ∉ fittedOf (walkRestarted r s) r := fun hm => hp (mem_fittedOf.mp hm).1
    rw [rechecked_empty h]
    refine hw.trans ⟨?_, ?_, ?_⟩
    · rw [enterOnline_load, if_neg hm]
    · rw [enterOnline_coil, if_neg hm]
    · rw [enterOnline_cls, if_neg hm]
  · rw [rechecked_entries h]
    exact hw

theorem rechecked_childEntries (r : Row) (s : State) : (rechecked r s).child.entries = s.child.entries
    ∧ (rechecked r s).child.tagTimers = s.child.tagTimers := by
  unfold rechecked
  split
  · exact enterOnline_entries r _
  · exact ⟨rfl, rfl⟩

theorem rechecked_entersOnline {s : State} (h : checkCount s.settings.active = 0) (r : Row) :
    EntersOnline s (rechecked r s) r := by
  rw [rechecked_empty h]
  exact (enterOnline_entersOnline r _).ofSource (walkRestarted_changes r s)

theorem rechecked_waits {s : State} {r : Row} (h : checkCount s.settings.active = 0) (hl : s.body.queue.length < 24)
    (hk : kindClass s.settings.active 7 = 1) :
    ∃ e ∈ (rechecked r s).body.queue, e.urgent = true ∧ e.notice = ⟨.rowChange, .row r, 2, 3, 3, none⟩ := by
  rw [rechecked_empty h]
  exact enterOnline_waits (s := walkRestarted r s) hl hk

/-! ### The queue of the notices -/

theorem forEach_queue_length_le {α : Type} {f : α → State → State} {n : Nat}
    (h : ∀ a s, (f a s).body.queue.length ≤ s.body.queue.length + n) :
    ∀ (l : List α) (s : State), (forEach l f s).body.queue.length ≤ s.body.queue.length + n * l.length
  | [], s => Nat.le_refl _
  | a :: l, s => by
    have h1 := forEach_queue_length_le h l (f a s)
    have h2 := h a s
    rw [List.length_cons, Nat.mul_succ]
    exact h1.trans (by omega)

theorem preparePosition_queue_length_le (p : Pos) (s : State) :
    (preparePosition p s).body.queue.length ≤ s.body.queue.length + 1 := by
  have h := afterSeatChange_queue_length_le false s p (childEnterOnline p
    ((s.onLoad p (fun l => l.enterOnline s.monitor.hold)).onCls p ClassState.enterOnline))
  rwa [(childEnterOnline_changes p _).body] at h

/-- An entry to ONLINE makes at most four notices: the row's, and one for each of its positions. -/
theorem enterOnline_queue_length_le (r : Row) (s : State) :
    (enterOnline r s).body.queue.length ≤ s.body.queue.length + 4 := by
  have h1 := forEach_queue_length_le preparePosition_queue_length_le (fittedOf s r) (onlineNoticed r s)
  have h2 : (fittedOf s r).length ≤ 3 := List.length_filter_le _ (rowPositions r)
  have h3 : (onlineNoticed r s).body.queue.length ≤ s.body.queue.length + 1 := notify_queue_length_le _ _
  rw [enterOnline_eq, (evaluateRow_changes r s _).body]
  exact h1.trans (by omega)

theorem rechecked_queue_length_le (r : Row) (s : State) :
    (rechecked r s).body.queue.length ≤ s.body.queue.length + 4 := by
  unfold rechecked
  split
  · exact enterOnline_queue_length_le r (walkRestarted r s)
  · exact Nat.le_add_right _ 4

/-! ### The rows in CHECKING -/

theorem recheckAll_steady (l : List Row) (s : State) : Steady s (forEach l rechecked s) :=
  (changesOnly_forEach rechecked_changes l s).steady (quiet_forEach rechecked_quiet l s)

/-- Each row given takes the new table; the rest of the line stands. -/
theorem recheckAll_line {l : List Row} (hn : l.Nodup) (s : State) :
    (forEach l rechecked s).line.timer = s.line.timer ∧ (forEach l rechecked s).line.pointer = s.line.pointer
    ∧ (forEach l rechecked s).line.exchange = s.line.exchange
    ∧ ∀ r, (forEach l rechecked s).row r
      = if r ∈ l then (s.row r).recheck (checkCount s.settings.active) else s.row r := by
  induction l generalizing s with
  | nil => exact ⟨rfl, rfl, rfl, fun r => (if_neg List.not_mem_nil).symm⟩
  | cons q l ih =>
    obtain ⟨hq, hl⟩ := List.nodup_cons.mp hn
    have hm := rechecked_row q s
    obtain ⟨h1, h2, h3, h4⟩ := ih hl (rechecked q s)
    rw [(rechecked_steady q s).2.1] at h4
    refine ⟨h1.trans hm.timer, h2.trans hm.pointer, h3.trans hm.exchange, fun r => (h4 r).trans ?_⟩
    by_cases hr : r = q
    · subst hr
      rw [if_neg hq, if_pos List.mem_cons_self, hm.row]
    · rw [hm.other hr]
      simp [hr]

theorem recheckAll_placeStands {p : Pos} : ∀ {l : List Row} (_ : p.row ∉ l) (s : State),
    PlaceStands p s (forEach l rechecked s)
  | [], _, s => PlaceStands.refl p s
  | q :: l, h, s => by
    rw [List.mem_cons, not_or] at h
    exact (rechecked_placeStands h.1 s).trans (recheckAll_placeStands h.2 (rechecked q s))

theorem recheckAll_changes {s : State} (l : List Row) (h : checkCount s.settings.active ≠ 0) :
    ChangesOnly [.line] s (forEach l rechecked s) := by
  induction l generalizing s with
  | nil => exact ChangesOnly.refl _ s
  | cons q l ih =>
    have hw := walkRestarted_changes q s
    have hs : checkCount (walkRestarted q s).settings.active ≠ 0 := h
    show ChangesOnly [.line] s (forEach l rechecked (rechecked q s))
    rw [rechecked_entries h]
    exact hw.andThen (ih hs)

/-- With an empty table each row given enters ONLINE. -/
theorem recheckAll_entersOnline {l : List Row} (hn : l.Nodup) {s : State} (h : checkCount s.settings.active = 0) {r : Row}
    (hr : r ∈ l) : EntersOnline s (forEach l rechecked s) r := by
  induction l generalizing s with
  | nil => exact absurd hr List.not_mem_nil
  | cons q l ih =>
    obtain ⟨hq, hl⟩ := List.nodup_cons.mp hn
    have hst := rechecked_steady q s
    show EntersOnline s (forEach l rechecked (rechecked q s)) r
    obtain rfl | hr := List.mem_cons.mp hr
    · obtain ⟨_, _, _, hrow⟩ := recheckAll_line hl (rechecked r s)
      exact (rechecked_entersOnline h r).andStand (recheckAll_steady l _) ((hrow r).trans (if_neg hq))
        (fun p hp => recheckAll_placeStands (by rwa [hp]) _)
    · have hne : r ≠ q := fun he => hq (he ▸ hr)
      exact (ih hl (s := rechecked q s) (by rw [hst.2.1]; exact h) hr).ofAlike hst.1 hst.2.2.2 hst.awake hst.coilFitted
        hst.scanInterval (fun p hp => rechecked_placeStands (by rwa [hp]) s)

/-- The notice of each row given enters a queue with room for them all (R36). -/
theorem recheckAll_waits {l : List Row} {s : State} (h : checkCount s.settings.active = 0)
    (hk : kindClass s.settings.active 7 = 1) (hq : s.body.queue.length + 4 * l.length ≤ 27) {r : Row} (hr : r ∈ l) :
    ∃ e ∈ (forEach l rechecked s).body.queue, e.urgent = true ∧ e.notice = ⟨.rowChange, .row r, 2, 3, 3, none⟩ := by
  induction l generalizing s with
  | nil => exact absurd hr List.not_mem_nil
  | cons q l ih =>
    rw [List.length_cons] at hq
    show ∃ e ∈ (forEach l rechecked (rechecked q s)).body.queue, _
    obtain rfl | hr := List.mem_cons.mp hr
    · exact (quiet_forEach rechecked_quiet l _).waits (rechecked_waits h (by omega) hk)
    · have hst := rechecked_steady q s
      have hlen := rechecked_queue_length_le q s
      exact ih (by rw [hst.2.1]; exact h) (by rw [hst.2.1]; exact hk) (by omega) hr

/-! ### The new table -/

/-- The rows in CHECKING. -/
def checkingRows (s : State) : List Row := allRows.filter (fun r => (s.row r).state == .checking)

theorem mem_checkingRows {s : State} {r : Row} : r ∈ checkingRows s ↔ (s.row r).state = .checking := by
  unfold checkingRows
  rw [List.mem_filter, beq_iff_eq]
  exact ⟨fun h => h.2, fun h => ⟨mem_allRows r, h⟩⟩

theorem checkingRows_nodup (s : State) : (checkingRows s).Nodup := allRows_nodup.filter _

theorem checkingRows_length_le (s : State) : (checkingRows s).length ≤ 5 := List.length_filter_le _ allRows

/-- The exchange of a CHECKING row is detached from its walk (R30). -/
def walksDetached (s : State) : State :=
  s.onLine (fun l => { l with exchange := l.exchange.map (fun x =>
    if (checkingRows s).contains x.row then { x with detached := true } else x) })

theorem walksDetached_changes (s : State) : ChangesOnly [.line] s (walksDetached s) := changes_onLine s _

theorem walksDetached_exchange (s : State) : (walksDetached s).line.exchange = s.line.exchange.map (fun x =>
    if (s.row x.row).state = .checking then { x with detached := true } else x) := by
  refine congrArg (Option.map · s.line.exchange) (funext fun x => if_congr ?_ rfl rfl)
  rw [List.contains_iff_mem, mem_checkingRows]

theorem checkTableReplaced_eq (s : State) :
    checkTableReplaced s = forEach (checkingRows s) rechecked (walksDetached s) := rfl

/-- From `s` to `t` a check table is written: what that does to the rows and their positions (R12, R30, R31, R36). -/
structure TableActs (s t : State) : Prop where
  entries : t.child.entries = s.child.entries
  tagTimers : t.child.tagTimers = s.child.tagTimers
  timer : t.line.timer = s.line.timer
  pointer : t.line.pointer = s.line.pointer
  exchange : t.line.exchange = s.line.exchange.map (fun x =>
    if (s.row x.row).state = .checking then { x with detached := true } else x)
  row : ∀ r, t.row r
    = if (s.row r).state = .checking then (s.row r).recheck (checkCount t.settings.active) else s.row r
  places : ∀ r, ¬ ((s.row r).state = .checking ∧ checkCount t.settings.active = 0) →
    ∀ p, p.row = r → PlaceStands p s t
  enters : ∀ r, (s.row r).state = .checking → checkCount t.settings.active = 0 → EntersOnline s t r
    ∧ (s.body.queue.length ≤ 7 → kindClass s.settings.active 7 = 1 → Waits t.body ⟨.rowChange, .row r, 2, 3, 3, none⟩)

/-- A read in flight stands through a new check table. -/
theorem TableActs.tagRead {s t : State} (h : TableActs s t) (r : Row) : (t.row r).tagRead = (s.row r).tagRead := by
  rw [h.row]
  unfold RowRecord.recheck
  repeat' split
  all_goals rfl

theorem tableActs_of_written {w : WriteInFlight} {s t : State} (hg : idGroup w.id = 19)
    (hc : ChangesOnly closingBlocks (checkTableReplaced (valueStands w s)) t)
    (ha : awake t = awake (checkTableReplaced (valueStands w s)))
    (hu : UrgentKept (checkTableReplaced (valueStands w s)).body.queue t.body.queue) : TableActs s t := by
  have hf := follows_of_closing hc ha hu
  rw [checkTableReplaced_eq] at hc hu hf
  generalize hx : walksDetached (valueStands w s) = x at hc hu hf
  generalize hl : checkingRows (valueStands w s) = l at hc hu hf
  have hxs : ChangesOnly [.line, .settings] s x :=
    hx ▸ (valueStands_changes w s).widen.andThen (walksDetached_changes _)
  have hsx : Steady (valueStands w s) x := hx ▸ ⟨rfl, rfl, rfl, rfl⟩
  have hst := recheckAll_steady l x
  have hmem : ∀ r, r ∈ l ↔ (s.row r).state = .checking := fun r => hl ▸ mem_checkingRows
  have hnodup : l.Nodup := hl ▸ checkingRows_nodup _
  have hcount : checkCount t.settings.active = checkCount x.settings.active := by rw [hc.settings, hst.2.1]
  have hxrow : ∀ r, x.row r = s.row r := fun r => hx ▸ rfl
  have hxp : ∀ p, PlaceStands p s x := fun p => hxs.placeStands p
  have htp : ∀ p, PlaceStands p (forEach l rechecked x) t := fun p => hc.placeStands p
  obtain ⟨h1, h2, h3, h4⟩ := recheckAll_line hnodup x
  obtain ⟨e1, e2⟩ := forEach_entries rechecked_childEntries l x
  refine ⟨?_, ?_, ?_, ?_, ?_, fun r => ?_, fun r hr p hp => ?_, fun r hr hn => ⟨?_, fun hq hk => ?_⟩⟩
  · rw [hc.child, e1, hxs.child]
  · rw [hc.child, e2, hxs.child]
  · rw [hc.line, h1, ← hx]
    rfl
  · rw [hc.line, h2, ← hx]
    rfl
  · rw [hc.line, h3, ← hx]
    exact walksDetached_exchange (valueStands w s)
  · rw [hf.row, h4, hcount, hxrow]
    exact if_congr (hmem r) rfl rfl
  · refine (hxp p).trans (PlaceStands.trans ?_ (htp p))
    by_cases hm : r ∈ l
    · exact (recheckAll_changes l (fun h0 => hr ⟨(hmem r).mp hm, hcount.trans h0⟩)).placeStands p
    · exact recheckAll_placeStands (by rwa [hp]) x
  · have he := recheckAll_entersOnline hnodup (hcount.symm.trans hn) ((hmem r).mpr hr)
    have hcoil : ∀ p, coilFitted x p = coilFitted s p := fun p => (hsx.coilFitted p).trans (valueStands_sensorFlag
      (fun h => by have := Pos.num_range p; omega) 2)
    have hscan : scanInterval x = scanInterval s := hsx.scanInterval.trans (valueStands_scanInterval (by omega))
    exact (he.ofAlike hxs.straps (by rw [hxs.monitor]) (by unfold awake; rw [hxs.monitor]) hcoil hscan
      (fun p _ => hxp p)).andLeave hc.line.symm hc.load.symm hc.cls.symm hc.child.symm hc.straps.symm hc.settings.symm
  · have hlen : x.body.queue.length + 4 * l.length ≤ 27 := by
      have h5 : l.length ≤ 5 := hl ▸ checkingRows_length_le _
      rw [hxs.body]
      omega
    have hkx : kindClass x.settings.active 7 = 1 := by
      rw [hsx.2.1, valueStands_kindClass (by omega)]
      exact hk
    obtain ⟨y, hy, hyu, hyn⟩ := recheckAll_waits (hcount.symm.trans hn) hkx hlen ((hmem r).mpr hr)
    obtain ⟨z, hz, _, hzn⟩ := hu y hy hyu
    exact ⟨z, hz, hzn.trans hyn⟩

end Sys2Proof.Machine
end

section
/-! PROOFS. The results of the lists stand as the signals give them, through the batch and to the end of the event (R104,
R121). -/

namespace Sys2Proof.Machine

/-! ### The ladder keeps the results -/

/-- The results of the lists that each reminder holds stand. -/
def ResultsKept (s t : State) : Prop :=
  ∀ q, (t.rem.get q).start = (s.rem.get q).start ∧ (t.rem.get q).escalate = (s.rem.get q).escalate

theorem ResultsKept.refl (s : State) : ResultsKept s s := fun _ => ⟨rfl, rfl⟩

theorem enterAudible_resultsKept (p : Pos) (s : State) : ResultsKept s (enterAudible p s) := fun q => by
  rw [enterAudible_rem]
  split <;> exact ⟨rfl, rfl⟩

theorem enterVisual_resultsKept (p : Pos) (s : State) : ResultsKept s (enterVisual p s) := fun q => by
  rw [enterVisual_rem]
  repeat' split
  all_goals exact ⟨rfl, rfl⟩

theorem enterWait_resultsKept (p : Pos) (d : Nat) (s : State) : ResultsKept s (enterWait p d s) := fun q => by
  rw [enterWait_rem]
  repeat' split
  · exact enterVisual_resultsKept p s q
  · exact ⟨rfl, rfl⟩
  · exact ⟨rfl, rfl⟩

theorem remOff_resultsKept (p : Pos) (s : State) : ResultsKept s (remOff p s) := fun q => by
  rw [remOff_rem]
  split <;> exact ⟨rfl, rfl⟩

theorem actOnResults_resultsKept (p : Pos) (d : Nat) (s : State) : ResultsKept s (actOnResults p d s) := by
  obtain e | e | e | e := actOnResults_cases p d s <;> rw [e]
  · exact ResultsKept.refl s
  · exact remOff_resultsKept p s
  · exact enterWait_resultsKept p d s
  · exact enterAudible_resultsKept p s

/-! ### The results are those of the signals -/

/-- The reminder of a position that is not held holds the results that the signals give. -/
def ResultsStand (s : State) (p : Pos) : Prop := remHeld s p = false →
  (s.rem.get p).start = startResult s p ∧ (s.rem.get p).escalate = escalateResult s p

theorem ResultsStand.congr {s t : State} {p : Pos} (h : ResultsStand s p) (hs : SameSignals s t p)
    (hr : t.rem.get p = s.rem.get p) : ResultsStand t p := by
  unfold ResultsStand at *
  rw [hs.remHeld, hs.startResult, hs.escalateResult, hr]
  exact h

theorem evaluateLists_signals (p q : Pos) (s : State) : SameSignals s (evaluateLists false p s) q :=
  (evaluateLists_changes false p s).signals (evaluateLists_quiet false p s) q

theorem resultsStand_evaluateLists (p : Pos) (s : State) : ResultsStand (evaluateLists false p s) p := by
  intro hh
  have hs := evaluateLists_signals p p s
  have h := hs.remHeld.symm.trans hh
  rw [hs.startResult, hs.escalateResult, evaluateLists_notHeld h]
  obtain ⟨h1, h2⟩ := actOnResults_resultsKept p (chooseDelay s p false)
    (s.onRem p (fun r => { r with start := startResult s p, escalate := escalateResult s p })) p
  rw [h1, h2]
  show ((s.rem.modify p _).get p).start = _ ∧ ((s.rem.modify p _).get p).escalate = _
  rw [PerPos.get_modify_self]
  exact ⟨rfl, rfl⟩

theorem ResultsStand.evaluateLists {s : State} {p : Pos} (h : ResultsStand s p) (q : Pos) :
    ResultsStand (Machine.evaluateLists false q s) p := by
  by_cases hq : p = q
  · subst hq
    exact resultsStand_evaluateLists p s
  · exact h.congr (evaluateLists_signals q p s) (evaluateLists_rem_other hq false s)

theorem ResultsStand.forEach {f : Pos → State → State} (hf : EvaluatesLists f) {p : Pos} :
    ∀ (ps : List Pos) {s : State}, ResultsStand s p → ResultsStand (Machine.forEach ps f s) p
  | [], _, h => h
  | q :: ps, s, h => by
    refine ResultsStand.forEach hf ps (s := f q s) ?_
    obtain e | e := hf q s <;> rw [e]
    · exact h
    · exact h.evaluateLists q

/-- An evaluation of all lists gives every position its results (R121). -/
theorem resultsStand_evaluateAllLists (p : Pos) (s : State) : ResultsStand (evaluateAllLists s) p := by
  have h : ∀ (ps : List Pos) (s : State), p ∈ ps → ResultsStand (Machine.forEach ps (evaluateLists false) s) p := by
    intro ps
    induction ps with
    | nil => exact fun _ hm => absurd hm List.not_mem_nil
    | cons q ps ih =>
      intro s hm
      obtain rfl | hm := List.mem_cons.mp hm
      · exact (resultsStand_evaluateLists p s).forEach evaluatesLists_self ps
      · exact ih _ hm
  exact h allPos s (mem_allPos p)

/-! ### The results stand through a batch -/

/-- A batch taken, before the Reminder Engine takes the changed records (R104). -/
def batchTaken (ps : List Pos) (s : State) : State :=
  restartRest (forEach ps (fun p t => notify (classNotice p (s.pub.table.get p) (s.cls.get p).settled) t)
    (s.onPub (fun u => { u with
      table := u.table.mapIdx (fun p r => if ps.contains p then (s.cls.get p).settled else r)
      epoch := u.epoch + 1 })))

theorem publishBatch_eq {ps : List Pos} (h : ps.isEmpty = false) (s : State) :
    publishBatch ps s = forEach ps (afterSeatChange false s) (batchTaken ps s) := if_neg (by simp [h])

theorem batchTaken_changes (ps : List Pos) (s : State) : ChangesOnly [.monitor, .pub, .body] s (batchTaken ps s) :=
  ((changes_onPub s _).widen.andThen (changesOnly_forEach (fun p t => notify_changes _ t) ps _)).andThen
    (restartRest_changes _)

theorem batchTaken_quiet (ps : List Pos) (s : State) : Quiet s (batchTaken ps s) :=
  ((changes_onPub s _).quiet.andThen (quiet_forEach (fun p t => notify_quiet _ t) ps _)).andThen (restartRest_quiet _)

theorem batchTaken_pub (ps : List Pos) (s : State) : (batchTaken ps s).pub = { s.pub with
    table := s.pub.table.mapIdx (fun p r => if ps.contains p then (s.cls.get p).settled else r)
    epoch := s.pub.epoch + 1 } := by
  unfold batchTaken
  rw [(restartRest_changes _).pub, (changesOnly_forEach (fun p t => notify_changes _ t) ps _).pub]
  rfl

/-- What lists read of a position, its BELT_REQUIRED aside, stands through a batch. -/
theorem batchTaken_results {s : State} {p : Pos} (ps : List Pos) (hb : beltRequired s p = beltRequired (batchTaken ps s) p)
    (l : Nat) : listResult (batchTaken ps s) p l = listResult s p l := by
  have hc := batchTaken_changes ps s
  have hq := batchTaken_quiet ps s
  have hv : ∀ n, vanSignal (batchTaken ps s) n = vanSignal s n := fun n => by
    unfold vanSignal presented speedV1 speedV2
    rw [hq.ign, hq.vehicle, hc.settings, batchTaken_pub]
  have ho : buckleOpen (batchTaken ps s) p = buckleOpen s p := by
    unfold buckleOpen
    rw [hc.cls]
  have ht : termValue (batchTaken ps s) p = termValue s p := funext fun w => by
    unfold termValue signal
    rw [← hb, ho, hv]
  unfold listResult
  rw [ht, hc.settings]

theorem batchTaken_remHeld (ps : List Pos) (s : State) (p : Pos) : remHeld (batchTaken ps s) p = remHeld s p := by
  have hc := batchTaken_changes ps s
  unfold remHeld State.row
  rw [posFitted_congr hc.straps, hc.line, (batchTaken_quiet ps s).device]

/-- The results of a position whose BELT_REQUIRED the batch leaves stand when it is taken. -/
theorem ResultsStand.batchTaken {s : State} {p : Pos} (h : ResultsStand s p) {ps : List Pos}
    (hb : beltRequired s p = beltRequired (batchTaken ps s) p) : ResultsStand (Machine.batchTaken ps s) p := by
  unfold ResultsStand startResult escalateResult at *
  rw [batchTaken_remHeld, batchTaken_results ps hb, batchTaken_results ps hb, (batchTaken_changes ps s).rem]
  exact h

/-- A position outside the batch keeps its BELT_REQUIRED. -/
theorem batchTaken_beltRequired {s : State} {p : Pos} {ps : List Pos} (h : p ∉ ps) :
    beltRequired s p = beltRequired (batchTaken ps s) p := by
  have hc := batchTaken_changes ps s
  refine (SameSignals.beltRequired ⟨hc.straps, by rw [hc.settings], (batchTaken_quiet ps s).device,
    (batchTaken_quiet ps s).ign, (batchTaken_quiet ps s).vehicle, by rw [batchTaken_pub], ?_, ?_, by rw [hc.cls]⟩).symm
  · rw [batchTaken_pub]
    show (s.pub.table.mapIdx _).get p = _
    rw [PerPos.get_mapIdx, if_neg (by simpa using h)]
  · unfold State.row
    rw [hc.line]

/-- The evaluations after a batch give each of its positions whose signals moved its results anew (R121). -/
theorem resultsStand_afterSeatChanges {b s : State} {p : Pos} (ps : List Pos)
    (h : ResultsStand s p ∨ (p ∈ ps ∧ beltRequired b p ≠ beltRequired s p)) :
    ResultsStand (forEach ps (afterSeatChange false b) s) p := by
  have hf := evaluatesLists_afterSeatChange b
  induction ps generalizing s with
  | nil => exact h.elim id (fun hm => absurd hm.1 List.not_mem_nil)
  | cons q ps ih =>
    obtain h | ⟨hm, hb⟩ := h
    · exact h.forEach hf (q :: ps)
    · refine ih (s := afterSeatChange false b q s) ?_
      by_cases hq : p = q
      · subst hq
        left
        unfold afterSeatChange
        rw [if_neg (fun hc => hb hc.1)]
        exact resultsStand_evaluateLists p s
      · rw [← (hf.signals q p s).beltRequired] at hb
        exact .inr ⟨(List.mem_cons.mp hm).resolve_left hq, hb⟩

theorem ResultsStand.publish {s : State} {p : Pos} (h : ResultsStand s p) : ResultsStand (Machine.publish s) p := by
  unfold Machine.publish
  split
  · exact h.congr ⟨rfl, rfl, rfl, rfl, rfl, rfl, rfl, rfl, rfl⟩ rfl
  · by_cases he : (allPos.filter (unpublished s)).isEmpty = true
    · unfold publishBatch
      rw [if_pos he]
      exact h
    · rw [publishBatch_eq (eq_false_of_ne_true he)]
      refine resultsStand_afterSeatChanges _ ?_
      by_cases hb : beltRequired s p = beltRequired (Machine.batchTaken (allPos.filter (unpublished s)) s) p
      · exact .inl (h.batchTaken hb)
      · exact .inr ⟨Classical.byContradiction (fun hm => hb (batchTaken_beltRequired hm)), hb⟩

/-! ### The end of a completed write -/

/-- The end of a completed write: the batch, the reply, the Cadence Generator and the arbiter (R104, R164, R170). -/
def writeClosed (r : Reply) (s : State) : State := endEvent (sendWriteReply r (publish s))

theorem writeClosed_changes (r : Reply) (s : State) : ChangesOnly closingBlocks s (writeClosed r s) :=
  ((publish_changes s).widen.andThen (sendWriteReply_changes r _)).andThen (endEvent_changes _)

theorem sendWriteReply_queue (r : Reply) (s : State) : (sendWriteReply r s).body.queue = s.body.queue := by
  unfold sendWriteReply
  show (if s.body.reply.isSome = true then { s.body with heldReply := some r } else { s.body with reply := some r }).queue = _
  split <;> rfl

theorem sendWriteReply_vehicle (r : Reply) (s : State) : (sendWriteReply r s).body.vehicle = s.body.vehicle := by
  unfold sendWriteReply
  show (if s.body.reply.isSome = true then { s.body with heldReply := some r } else { s.body with reply := some r }).vehicle
    = _
  split <;> rfl

theorem writeClosed_awake (r : Reply) (s : State) : awake (writeClosed r s) = awake s := by
  unfold writeClosed
  rw [(endEvent_quiet _).awake]
  unfold awake
  rw [(sendWriteReply_changes r _).monitor, (publish_quiet s).device]

theorem writeClosed_urgentKept (r : Reply) (s : State) : UrgentKept s.body.queue (writeClosed r s).body.queue := by
  refine (publish_quiet s).urgent.trans ?_
  rw [← sendWriteReply_queue r (publish s)]
  exact (endEvent_quiet _).urgent

theorem writeClosed_table {s : State} (r : Reply) (hl : s.pub.locked = false) (p : Pos) :
    (writeClosed r s).pub.table.get p = ((writeClosed r s).cls.get p).settled := by
  rw [(writeClosed_changes r s).cls]
  unfold writeClosed
  rw [(endEvent_changes _).pub, (sendWriteReply_changes r _).pub]
  exact publish_table hl p

theorem ResultsStand.writeClosed {s : State} {p : Pos} (h : ResultsStand s p) (r : Reply) :
    ResultsStand (Machine.writeClosed r s) p := by
  have hr := sendWriteReply_changes r (Machine.publish s)
  have he := endEvent_changes (sendWriteReply r (Machine.publish s))
  have h1 : SameSignals (Machine.publish s) (sendWriteReply r (Machine.publish s)) p :=
    ⟨hr.straps, by rw [hr.settings], by rw [hr.monitor], by rw [hr.monitor], sendWriteReply_vehicle r _, by rw [hr.pub],
      by rw [hr.pub], by unfold State.row; rw [hr.line], by rw [hr.cls]⟩
  exact (h.publish.congr h1 (by rw [hr.rem])).congr (he.signals (endEvent_quiet _) p)
    (congrArg (PerPos.get · p) he.rem)

end Sys2Proof.Machine
end

section
/-! PROOFS. A completed write, by the group it names (R15, R30, R58, R121, R168, R170). -/

namespace Sys2Proof.Machine

/-! ### The effects by group -/

theorem posOfNum_none {g : Nat} (h : ∀ p : Pos, g ≠ p.num) : posOfNum g = none := by
  cases hp : posOfNum g with
  | none => rfl
  | some p => exact absurd (posOfNum_eq_some.mp hp) (h p)

theorem tableEffects_none {g i : Nat} (h1 : g ≠ 19) (h2 : ¬ (g = 17 ∨ (g = 16 ∧ i ≤ 1))) (s : State) :
    tableEffects g i s = s := by
  unfold tableEffects
  rw [if_neg h1, if_neg h2]

theorem tableEffects_lists {g i : Nat} (h : g = 17 ∨ (g = 16 ∧ i ≤ 1)) (s : State) :
    tableEffects g i s = evaluateAllLists s := by
  have hn : g ≠ 19 := by omega
  unfold tableEffects
  rw [if_neg hn, if_pos h]

theorem tableEffects_check (i : Nat) (s : State) : tableEffects 19 i s = checkTableReplaced s := by
  unfold tableEffects
  rw [if_pos rfl, if_neg (by omega)]

theorem writeEffects_position (b : State) (p : Pos) (i : Nat) (s : State) : writeEffects b p.num i s
    = madeStale (staleTargets b (positionEffects b p i s)) (positionEffects b p i s) := by
  have hr := Pos.num_range p
  unfold writeEffects
  rw [posOfNum_num, tableEffects_none (by omega) (by omega)]
  rfl

theorem writeEffects_elsewhere (b : State) {g : Nat} (h : ∀ p : Pos, g ≠ p.num) (i : Nat) (s : State) :
    writeEffects b g i s = tableEffects g i (madeStale (staleTargets b s) s) := by
  unfold writeEffects
  rw [posOfNum_none h]
  rfl

theorem writeEffects_check {w : WriteInFlight} (hg : idGroup w.id = 19) (i : Nat) (s : State) :
    writeEffects s 19 i (valueStands w s) = checkTableReplaced (valueStands w s) := by
  have hn : ∀ p : Pos, 19 ≠ p.num := fun p => by have := Pos.num_range p; omega
  rw [writeEffects_elsewhere s hn, tableEffects_check, madeStale_none]
  exact fun p => valueStands_staleLimit (by omega) (fun h => hn p (hg.symm.trans h.1))

/-! ### The completion -/

/-- The reply to a completed write (R170). -/
def writeReply (w : WriteInFlight) : Reply := ⟨kindWriteParam, replyOk, bytesOf16 w.id ++ bytesOf16 w.value, 0⟩

theorem exec_writeSucceeds {s : State} {w : WriteInFlight} (h : s.settings.write = some w) :
    exec (.writeCompletion .readBackAsWritten) s
      = .next (writeClosed (writeReply w) (writeEffects s (idGroup w.id) (idIndex w.id) (valueStands w s))) := by
  show Host.Outcome.next (writeCompletes .readBackAsWritten s) = _
  unfold writeCompletes
  rw [h]
  rfl

/-- A write of a position's record or of another group but the check table. -/
theorem recordActs_writeClosed {w : WriteInFlight} {s : State} (hg : idGroup w.id ≠ 19) (r : Reply) :
    RecordActs s (writeClosed r (writeEffects s (idGroup w.id) (idIndex w.id) (valueStands w s)))
      (idGroup w.id) (idIndex w.id) := by
  by_cases hp : ∃ p : Pos, idGroup w.id = p.num
  · obtain ⟨p, hp⟩ := hp
    have h := writeClosed_changes r (writeEffects s (idGroup w.id) (idIndex w.id) (valueStands w s))
    have ha := writeClosed_awake r (writeEffects s (idGroup w.id) (idIndex w.id) (valueStands w s))
    have hu := writeClosed_urgentKept r (writeEffects s (idGroup w.id) (idIndex w.id) (valueStands w s))
    rw [hp, writeEffects_position] at h ha hu ⊢
    exact recordActs_position hp rfl h ha hu
  · have hn : ∀ p : Pos, idGroup w.id ≠ p.num := fun p h => hp ⟨p, h⟩
    rw [writeEffects_elsewhere s hn]
    by_cases hl : idGroup w.id = 17 ∨ (idGroup w.id = 16 ∧ idIndex w.id ≤ 1)
    · rw [tableEffects_lists hl]
      refine recordActs_elsewhere hn ((evaluateAllLists_changes _).widen.andThen (writeClosed_changes r _)) ?_ ?_
      · exact (writeClosed_awake r _).trans (evaluateAllLists_quiet _).awake
      · exact (evaluateAllLists_quiet _).urgent.trans (writeClosed_urgentKept r _)
    · rw [tableEffects_none hg hl]
      exact recordActs_elsewhere hn (writeClosed_changes r _) (writeClosed_awake r _) (writeClosed_urgentKept r _)

theorem tableActs_writeClosed {w : WriteInFlight} {s : State} (hg : idGroup w.id = 19) (r : Reply) :
    TableActs s (writeClosed r (writeEffects s (idGroup w.id) (idIndex w.id) (valueStands w s))) := by
  have h := writeEffects_check hg (idIndex w.id) s
  rw [hg, h]
  exact tableActs_of_written hg (writeClosed_changes r _) (writeClosed_awake r _) (writeClosed_urgentKept r _)

/-- A new list or speed evaluates the lists (R121). -/
theorem resultsStand_written {w : WriteInFlight} {s : State} (r : Reply)
    (hl : idGroup w.id = 17 ∨ (idGroup w.id = 16 ∧ idIndex w.id ≤ 1)) (p : Pos) :
    ResultsStand (writeClosed r (writeEffects s (idGroup w.id) (idIndex w.id) (valueStands w s))) p := by
  have hn : ∀ p : Pos, idGroup w.id ≠ p.num := fun p => by have := Pos.num_range p; omega
  rw [writeEffects_elsewhere s hn, tableEffects_lists hl]
  exact (resultsStand_evaluateAllLists p _).writeClosed r

theorem written_awake (w : WriteInFlight) (s : State) (r : Reply) :
    awake (writeClosed r (writeEffects s (idGroup w.id) (idIndex w.id) (valueStands w s))) = awake s := by
  rw [writeClosed_awake]
  unfold awake
  rw [(writeEffects_changes s _ _ _).monitor]
  rfl

theorem written_table {w : WriteInFlight} {s : State} (r : Reply) (hl : s.pub.locked = false) (p : Pos) :
    (writeClosed r (writeEffects s (idGroup w.id) (idIndex w.id) (valueStands w s))).pub.table.get p
      = ((writeClosed r (writeEffects s (idGroup w.id) (idIndex w.id) (valueStands w s))).cls.get p).settled :=
  writeClosed_table r (by rw [(writeEffects_changes s _ _ _).pub]; exact hl) p

/-- A check table written moves no setting but its own values. -/
theorem tableActs_settings {w : WriteInFlight} {s : State} (hg : idGroup w.id = 19) (r : Reply) :
    (writeClosed r (writeEffects s (idGroup w.id) (idIndex w.id) (valueStands w s))).settings
      = (valueStands w s).settings := by
  have h := writeEffects_check hg (idIndex w.id) s
  rw [(writeClosed_changes r _).settings, hg, h, (checkTableReplaced_changes _).settings]

theorem tableActs_coilFitted {w : WriteInFlight} {s : State} (hg : idGroup w.id = 19) (r : Reply) (p : Pos) :
    coilFitted (writeClosed r (writeEffects s (idGroup w.id) (idIndex w.id) (valueStands w s))) p = coilFitted s p := by
  have hn := Pos.num_range p
  refine (sensorFlag_congr ?_ (by rw [tableActs_settings hg]) 2).trans
    (valueStands_sensorFlag (w := w) (fun h => by omega) 2)
  exact (writeClosed_changes r _).straps.trans (writeEffects_changes s _ _ _).straps

end Sys2Proof.Machine

namespace Sys2Proof.Certificates

open Sys2Proof.Machine

/-- Settles O48: the value written names a position's record, the check table or another group; `RecordActs` says what the first
and the last do, `TableActs` what the check table does, and the batch and the lists are judged at the end of the event. -/
theorem writtenValuesAct : Obligations.WrittenValuesAct := by
  intro s w hw
  refine ⟨_, exec_writeSucceeds hw, ?_⟩
  generalize ht : writeClosed (writeReply w) (writeEffects s (idGroup w.id) (idIndex w.id) (valueStands w s)) = t
  have hawake : awake t = awake s := ht ▸ written_awake w s _
  have htable : s.pub.locked = false → ∀ p, t.pub.table.get p = (t.cls.get p).settled := ht ▸ written_table _
  have hlists : idGroup w.id = 17 ∨ (idGroup w.id = 16 ∧ idIndex w.id ≤ 1) → ∀ p, ResultsStand t p :=
    ht ▸ resultsStand_written _
  have hjudged : ∀ {p}, JudgedAt t p → awake s = true → Formed (t.cls.get p) (tableRecord t p) :=
    fun hj ha => hj (hawake.trans ha)
  by_cases hg : idGroup w.id = 19
  · obtain ⟨hentries, htimers, htimer, hpointer, hexchange, hrow, hplaces, henters⟩ : TableActs s t :=
      ht ▸ tableActs_writeClosed hg _
    have htag : ∀ r, (t.row r).tagRead = (s.row r).tagRead := TableActs.tagRead (ht ▸ tableActs_writeClosed hg _)
    have hset : t.settings = (valueStands w s).settings := ht ▸ tableActs_settings hg _
    have hn : ∀ p : Pos, idGroup w.id ≠ p.num := fun p => by have := Pos.num_range p; omega
    have hcoil : ∀ p, coilFitted t p = coilFitted s p := ht ▸ tableActs_coilFitted hg _
    obtain ⟨hmarks, hcal, huncal⟩ : GainsAct s t (idGroup w.id) (idIndex w.id) :=
      gainsAct_of_same (gainOf_eq_false (.inl hn)) (by rw [hset]; rfl) (by rw [hset]; rfl)
    have hfault : FaultsAct s t (idGroup w.id) := faultsAct_of_same hn (by rw [hset]; rfl)
    simp only [gainOf, wantsGain_eq] at hmarks hcal huncal
    refine ⟨hmarks, fun h1 h2 q => ?_, huncal, fun p => ⟨fun h => absurd h (hn p), (hfault p).2⟩, fun h => absurd hg h,
      fun p h1 h2 => ?_, fun p h1 h2 => ?_, fun _ => ⟨fun h => absurd hg h, htag⟩, htimer, hpointer, fun h => absurd hg h,
      fun _ => ⟨hentries, htimers, hexchange, fun r => ⟨fun hr => ?_, fun hr hm => ?_, fun hm p hp => ?_, fun hm => ?_⟩⟩,
      fun h => absurd hg h, htable, hlists⟩
    · obtain ⟨hu, hj⟩ := hcal h1 h2 q
      exact ⟨hu, fun hr => hjudged (hj hr)⟩
    · rw [hcoil, h1] at h2
      nomatch h2
    · rw [hcoil, h1] at h2
      nomatch h2
    · exact (hrow r).trans (if_neg hr)
    · rw [hrow, if_pos hr]
      exact if_neg (fun h => hm ⟨hr, h⟩)
    · obtain ⟨hl, hc, _⟩ := hplaces r hm p hp
      exact ⟨hl, hc⟩
    · exact henters r hm.1 hm.2
  · obtain ⟨⟨hanchors, hremoved, hadded, hsame, htimer, hpointer, hexchange, hrows⟩, ⟨hmarks, hcal, huncal⟩, hfault, hload⟩ :
      RecordActs s t (idGroup w.id) (idIndex w.id) := ht ▸ recordActs_writeClosed hg _
    simp only [gainOf, wantsGain_eq] at hmarks hcal huncal
    simp only [Overdue, staleLimit_eq, LoadsAct] at hload
    refine ⟨hmarks, fun h1 h2 q => ?_, huncal, fun p => ⟨fun h1 h2 => ?_, (hfault p).2⟩, fun _ p => ?_, fun p h1 h2 => ?_,
      hadded, fun h => ?_, htimer, hpointer, fun _ => ⟨hexchange, hrows⟩, fun h => absurd h hg, fun _ p => ?_, htable, hlists⟩
    · obtain ⟨hu, hj⟩ := hcal h1 h2 q
      exact ⟨hu, fun hr => hjudged (hj hr)⟩
    · obtain ⟨hf, hj⟩ := (hfault p).1 h1 h2
      exact ⟨hf, fun h3 h4 => hjudged (hj h3 h4)⟩
    · obtain ⟨hl, hr, hj⟩ := hanchors p
      exact ⟨hl, hr, fun h => hjudged (hj h)⟩
    · obtain ⟨hc, hr, ho, hj, hlist⟩ := hremoved p h1 h2
      exact ⟨hc, hr, ho, fun he => hjudged (hj he), hlist⟩
    · obtain ⟨hc, hr⟩ := hsame h
      exact ⟨fun _ => hc, hr⟩
    · obtain ⟨hlate, hon⟩ := hload p
      refine ⟨fun h => ?_, hon⟩
      obtain ⟨hl, hj⟩ := hlate h
      exact ⟨hl, hjudged hj⟩

end Sys2Proof.Certificates
end

section
/-! PROOFS. Every command, every idle step and so every step keeps the invariants of `Keeps` (R25, R69, R115, R161, R162). -/

namespace Sys2Proof.Machine

/-! ### Commands -/

/-- Reset leaves every block at values that meet the invariants, whatever they were before (R174). -/
theorem resetPart_keeps (cause : ResetCause) (straps : Straps) (s : State) : Keeps s (resetPart cause straps s) := by
  refine ⟨fun _ => ?_, fun _ => ⟨rfl, trivial⟩, fun _ => List.nodup_nil, fun _ r => ?_, fun _ p => remReset_timers p⟩
  · exact ⟨Nat.zero_le _, List.Pairwise.nil, Nat.zero_le _⟩
  · show RowCountsInv ((PerRow.mapIdx _ (fun _ => RowRecord.reset)).get r)
    rw [PerRow.get_mapIdx]
    exact ⟨Nat.zero_le _, Nat.zero_le _, Nat.zero_le _, Nat.zero_le _⟩

theorem outenRises_keeps (s : State) : Keeps s (outenRises s) := by
  have h : Keeps s (s.onPins (fun u => { u with outen := true })) := (changes_onPins s _).keeps
  exact keeps_ite (Keeps.refl s) (keeps_ite (h.andThen (changes_onCadence _ _).keeps) h)

theorem writeCompletes_keeps (o : WriteOutcome) (s : State) : Keeps s (writeCompletes o s) := by
  unfold writeCompletes
  split
  · exact Keeps.refl s
  · cases o
    case readBackAsWritten => exact writeSucceeds_keeps _ s
    case notAcknowledged => exact writeFails_keeps _ none s
    case headerFailed => exact writeFails_keeps _ (some 9) s
    case readbackMismatch => exact writeFails_keeps _ (some 10) s

/-- Every command answers a next state, and keeps the invariants. -/
theorem exec_keeps (c : Instr) (s : State) : ∃ t, exec c s = .next t ∧ Keeps s t := by
  cases c with
  | reset cause straps => exact ⟨_, rfl, resetPart_keeps cause straps s⟩
  | autoloadEnd answer => exact ⟨_, rfl, keeps_outsideReset s (autoloadEnds_keeps answer s)⟩
  | ignLineChange high => exact ⟨_, rfl, ignLineChanges_keeps high s⟩
  | ignAsserted => exact ⟨_, rfl, keeps_outsideReset s (ignAsserts_keeps s)⟩
  | ignDeasserted => exact ⟨_, rfl, keeps_outsideReset s (ignDeasserts_keeps s)⟩
  | holdSet => exact ⟨_, rfl, setHold_keeps s⟩
  | holdCleared => exact ⟨_, rfl, clearHold_keeps s⟩
  | restTimerExpiry => exact ⟨_, rfl, keeps_outsideReset s (restExpires_keeps s)⟩
  | wakeEvent source => exact ⟨_, rfl, keeps_outsideReset s (takeWakeEvent_keeps source s)⟩
  | endOfWakeSettle => exact ⟨_, rfl, keeps_outsideReset s (endWakeSettle_keeps s)⟩
  | secondsCountTick => exact ⟨_, rfl, keeps_outsideReset s (secondsTick_changes s).keeps⟩
  | slotTimerExpiry => exact ⟨_, rfl, slotExpires_keeps s⟩
  | responseWindowExpiry => exact ⟨_, rfl, exchangeTimesOut_keeps s⟩
  | sampleAnswer bytes => exact ⟨_, rfl, answerCompletes_keeps bytes s⟩
  | readIdAnswer bytes => exact ⟨_, rfl, answerCompletes_keeps bytes s⟩
  | readRegAnswer bytes => exact ⟨_, rfl, answerCompletes_keeps bytes s⟩
  | writeRegAnswer bytes => exact ⟨_, rfl, answerCompletes_keeps bytes s⟩
  | senseMated row => exact ⟨_, rfl, senseBecomesMated_keeps row s⟩
  | rowArrival row => exact ⟨_, rfl, rowArrives_keeps row s⟩
  | rowRemoval row => exact ⟨_, rfl, senseReadsUnmated_keeps row s⟩
  | powerSettleExpiry row => exact ⟨_, rfl, settleExpires_keeps row s⟩
  | powerOffTimerExpiry row => exact ⟨_, rfl, powerOffExpires_keeps row s⟩
  | onlineStabilityTimerExpiry row => exact ⟨_, rfl, stabilityExpires_keeps row s⟩
  | positionBecomesStale pos => exact ⟨_, rfl, ageRunsOut_keeps pos s⟩
  | scanTimerExpiry pos moment => exact ⟨_, rfl, scanExpires_keeps pos moment s⟩
  | tagReadTimerExpiry row => exact ⟨_, rfl, tagReadTimesOut_keeps row s⟩
  | lockHoldTimerExpiry => exact ⟨_, rfl, holdExpires_keeps s⟩
  | delayTimerExpiry pos => exact ⟨_, rfl, delayRunsOut_keeps pos s⟩
  | audibleTimerExpiry pos => exact ⟨_, rfl, audibleRunsOut_keeps pos s⟩
  | chimePeriodEnd => exact ⟨_, rfl, (changes_onCadence s _).keeps⟩
  | flashPeriodEnd => exact ⟨_, rfl, (changes_onCadence s _).keeps⟩
  | cadenceOnPartEnd timer => exact ⟨_, rfl, (changes_onCadence s _).keeps⟩
  | outenAsserted => exact ⟨_, rfl, outenRises_keeps s⟩
  | outenDeasserted => exact ⟨_, rfl, (changes_onPins s _).keeps.andThen (changes_onCadence _ _).keeps⟩
  | nop arg => exact ⟨_, rfl, takeRequest_keeps _ arg s (answerOk_keeps _ _)⟩
  | getFront arg => exact ⟨_, rfl, takeRequest_keeps _ arg s (answerOk_keeps _ _)⟩
  | getPosition arg => exact ⟨_, rfl, takeRequest_keeps _ arg s (answerPosition_keeps arg)⟩
  | getStatus arg => exact ⟨_, rfl, takeRequest_keeps _ arg s (answerOk_keeps _ _)⟩
  | lock arg => exact ⟨_, rfl, takeRequest_keeps _ arg s (answerLock_keeps arg)⟩
  | unlock arg => exact ⟨_, rfl, takeRequest_keeps _ arg s answerUnlock_keeps⟩
  | frameError => exact ⟨_, rfl, takeFrame_keeps s (respond_keeps _ s)⟩
  | unknownCommand command arg => exact ⟨_, rfl, takeRequest_keeps command arg s (respond_keeps _)⟩
  | vehicleState speed gear closures => exact ⟨_, rfl, receive_keeps s (takeVehicleState_keeps speed gear closures s)⟩
  | freshnessTimerExpiry => exact ⟨_, rfl, freshnessExpires_keeps s⟩
  | degradeTimerExpiry => exact ⟨_, rfl, degradeExpires_keeps s⟩
  | mapTimerExpiry => exact ⟨_, rfl, mapExpires_keeps s⟩
  | mapRequest => exact ⟨_, rfl, receive_keeps s (takeMapRequest_keeps s)⟩
  | reminderAck mask => exact ⟨_, rfl, receive_keeps s (takeAck_keeps mask s)⟩
  | readParam id value => exact ⟨_, rfl, takeService_keeps _ _ s (answerReadParam_keeps id value)⟩
  | writeParam id value => exact ⟨_, rfl, takeService_keeps _ _ s (answerWriteParam_keeps id value)⟩
  | clearChildList => exact ⟨_, rfl, takeService_keeps _ _ s answerClear_keeps⟩
  | readChildEntry index => exact ⟨_, rfl, takeService_keeps _ _ s (answerReadEntry_keeps index)⟩
  | readRow row => exact ⟨_, rfl, takeService_keeps _ _ s (answerReadRow_keeps row)⟩
  | unknownServiceRequest kind => exact ⟨_, rfl, takeService_keeps kind _ s (sendReply_keeps _)⟩
  | writeCompletion outcome => exact ⟨_, rfl, writeCompletes_keeps outcome s⟩
  | transmitAcknowledged => exact ⟨_, rfl, transmitAcked_keeps s⟩
  | busOff => exact ⟨_, rfl, keeps_outsideReset s (busGoesOff_keeps s)⟩
  | busOffRecovery => exact ⟨_, rfl, busRecovers_keeps s⟩
  | matingDebounceStop row => exact ⟨_, rfl, senseReadsUnmated_keeps row s⟩
  | supplyBelowHoldThreshold edge => exact ⟨_, rfl, (supplyEdge_changes edge s).keeps⟩
  | resetRelease => exact ⟨_, rfl, (releaseReset_changes s).keeps⟩

/-! ### The idle step -/

theorem isSome_countDown (t : Timer) : (countDown t).isSome = t.isSome := Option.isSome_map

theorem RemTimersInv.count {r : Reminder} (h : RemTimersInv r) : RemTimersInv r.count := by
  unfold RemTimersInv Reminder.count
  rw [isSome_countDown, isSome_countDown]
  exact h

/-- Timers that count leave the counts, the list, the queue and the slot, and no timer starts or ends. -/
theorem countTimers_keeps (s : State) : Keeps s (countTimers s) := by
  refine ⟨id, slotInv_of_same (c := s.body.count) rfl rfl rfl rfl (fun _ => rfl), id, fun h r => ?_, fun h p => ?_⟩
  · show RowCountsInv ((s.line.rows.mapIdx _).get r)
    rw [PerRow.get_mapIdx]
    exact h r
  · show RemTimersInv ((s.rem.mapIdx _).get p)
    rw [PerPos.get_mapIdx]
    exact (h p).count

theorem whenTrue_keeps {c : State → Bool} {f : State → State} (h : ∀ t, Keeps t (f t)) (s : State) :
    Keeps s (whenTrue c f s) := keeps_ite (h s) (Keeps.refl s)

theorem periodExpiries_keeps (chime flash : Bool) (s : State) : Keeps s (periodExpiries chime flash s) := by
  have h : Keeps s (if chime then s.onCadence Cadence.chimeEnds else s) :=
    keeps_ite (changes_onCadence s _).keeps (Keeps.refl s)
  exact keeps_ite (h.andThen (changes_onCadence _ _).keeps) h

theorem ignSettles_keeps (s : State) : Keeps s (ignSettles s) :=
  keeps_ite (changes_onMonitor s _).keeps (keeps_ite (ignAsserts_keeps s) (ignDeasserts_keeps s))

theorem monitorExpiries_keeps (s : State) : Keeps s (monitorExpiries s) :=
  (whenTrue_keeps (fun t => (secondsTick_changes t).keeps) s).andThen (whenTrue_keeps ignSettles_keeps _)

theorem rowExpiries_keeps (r : Row) (s : State) : Keeps s (rowExpiries r s) := by
  unfold rowExpiries
  exact (((whenTrue_keeps (rowArrives_keeps r) s).andThen (whenTrue_keeps (settleExpires_keeps r) _)).andThen
    (whenTrue_keeps (powerOffExpires_keeps r) _)).andThen (whenTrue_keeps (stabilityExpires_keeps r) _)

theorem positionExpiries_keeps (p : Pos) (s : State) : Keeps s (positionExpiries p s) := by
  unfold positionExpiries
  exact (((whenTrue_keeps (goStale_keeps p) s).andThen
    (whenTrue_keeps (fun t => scanExpires_keeps p t.monitor.now t) _)).andThen
    (whenTrue_keeps (delayRunsOut_keeps p) _)).andThen (whenTrue_keeps (audibleRunsOut_keeps p) _)

theorem bodyExpiries_keeps (s : State) : Keeps s (bodyExpiries s) := by
  unfold bodyExpiries
  exact ((whenTrue_keeps freshnessExpires_keeps s).andThen (whenTrue_keeps degradeExpires_keeps _)).andThen
    (whenTrue_keeps mapExpires_keeps _)

theorem lateExpiries_keeps (s : State) : Keeps s (lateExpiries s) := by
  unfold lateExpiries
  exact ((whenTrue_keeps setHold_keeps s).andThen (whenTrue_keeps restExpires_keeps _)).andThen
    (whenTrue_keeps endWakeSettle_keeps _)

theorem takeExpiries_keeps (chime flash : Bool) (s : State) : Keeps s (takeExpiries chime flash s) := by
  unfold takeExpiries
  exact (((((((periodExpiries_keeps chime flash s).andThen (monitorExpiries_keeps _)).andThen
    (keeps_forEach rowExpiries_keeps _ _)).andThen (whenTrue_keeps slotExpires_keeps _)).andThen
    (keeps_forEach (fun r t => whenTrue_keeps (tagReadTimesOut_keeps r) t) _ _)).andThen
    (keeps_forEach positionExpiries_keeps _ _)).andThen (whenTrue_keeps holdExpires_keeps _)).andThen
    ((bodyExpiries_keeps _).andThen (lateExpiries_keeps _))

theorem tick_keeps (s : State) : Keeps s (tick s) :=
  keeps_ite (changes_onMonitor s _).keeps ((countTimers_keeps s).andThen (takeExpiries_keeps _ _ _))

/-! ### The step -/

/-- A step takes the front command, or lets 1 ms pass, and either keeps the invariants. -/
theorem step_keeps {s t : State} (h : step s = .next t) : Keeps s t := by
  unfold step at h
  split at h
  case h_1 c rest _ =>
    obtain ⟨u, hu, hk⟩ := exec_keeps c { s with pending := rest }
    have e : u = t := Host.Outcome.next.inj (hu.symm.trans h)
    exact e ▸ ⟨hk.queue, hk.slot, hk.tags, hk.counts, hk.timers⟩
  case h_2 => exact Host.Outcome.next.inj h ▸ tick_keeps s

end Sys2Proof.Machine

namespace Sys2Proof.Certificates

open Sys2Proof.Machine

/-- Settles O59: the counts are one of the invariants that every step keeps. -/
theorem everyStepBoundsTheRowCounts : Obligations.EveryStepBoundsTheRowCounts :=
  fun _ _ hs h => (step_keeps h).counts hs

end Sys2Proof.Certificates
end

section
/-! PROOFS. The state after reset (R25, R44, R62, R83, R115, R174). -/

namespace Sys2Proof.Machine

theorem reset_row (r : Row) : State.reset.row r = RowRecord.reset (if r = .r1 then .probing else .absent) := by
  cases r <;> rfl

theorem reset_coil (p : Pos) : State.reset.coil p = Coil.reset := PerPos.get_all _ p

theorem reset_load (p : Pos) : State.reset.load.get p = LoadState.reset := PerPos.get_all _ p

theorem reset_cls (p : Pos) : State.reset.cls.get p = ClassState.reset (resetTable.get p) := PerPos.get_mapIdx _ _ p

theorem reset_rem (p : Pos) : State.reset.rem.get p = Reminder.reset := PerPos.get_all _ p

theorem reset_mark (p : Pos) : State.reset.pub.marks.get p = false := PerPos.get_all _ p

/-- The table after reset is that of the settled records, so that nothing is unpublished (R102, R83). -/
theorem reset_unpublished (p : Pos) : unpublished State.reset p = false := by
  unfold unpublished
  rw [reset_cls]
  exact bne_self_eq_false _

theorem reset_copy (p : Pos) : State.reset.cadence.copy.get p = .off := PerPos.get_all _ p

/-- With every reminder OFF no output is asked for, and no cadence timer runs (R139 to R143). -/
theorem reset_copyShown : CopyShown State.reset.cadence := by
  have hprofile : wantedProfile State.reset.cadence.copy = .none := by decide
  have htelltale : telltaleState State.reset.cadence.copy ≠ .flashing := by decide
  unfold CopyShown
  rw [hprofile]
  exact ⟨by decide, by decide, iff_of_false (by decide) htelltale⟩

end Sys2Proof.Machine

namespace Sys2Proof.Certificates

open Sys2Proof.Machine

/-- Settles O4: each block's value is read off the state after reset, those of the tables at any row and position. -/
theorem stateAfterReset : Obligations.StateAfterReset := by
  refine ⟨rfl, rfl, rfl, rfl, rfl, rfl, fun r => ?_, fun p => ?_, rfl, rfl, rfl, rfl, rfl, rfl, rfl, rfl, rfl, rfl, rfl,
    rfl, rfl, rfl, rfl, rfl, rfl⟩
  · rw [reset_row]
    exact ⟨rfl, rfl, rfl, rfl, rfl, rfl, rfl, rfl, rfl, rfl, rfl, rfl⟩
  · rw [reset_load, reset_coil, reset_cls, reset_rem]
    exact ⟨rfl, rfl, rfl, rfl, rfl, rfl, rfl, rfl, rfl, rfl, rfl, rfl, reset_mark p⟩

/-- Settles O52: the lists are empty, the table is published, the copy shows the reminders and the gates are closed. -/
theorem invariantsHoldAfterReset : Obligations.InvariantsHoldAfterReset := by
  have hqueue : QueueInv State.reset.body := ⟨Nat.zero_le _, List.Pairwise.nil, Nat.zero_le _⟩
  have hlist : ListInv State.reset.child := by
    refine ⟨List.nodup_nil, fun _ => Nat.zero_le _, Nat.zero_le _, fun p x h => ?_⟩
    have hnone : none = some x := (congrArg Coil.contest (reset_coil p)).symm.trans h
    nomatch hnone
  have hcounts : ∀ r, RowCountsInv (State.reset.row r) := fun r => by
    rw [reset_row]
    exact ⟨Nat.zero_le _, Nat.zero_le _, Nat.zero_le _, Nat.zero_le _⟩
  have hgate : GateInv State.reset := ⟨iff_of_true rfl (by decide), iff_of_true rfl (by decide)⟩
  refine ⟨fun p => ⟨?_, fun _ => reset_unpublished p⟩, hqueue, ⟨rfl, trivial⟩, hlist, hcounts,
    (cadenceInv_iff _).mpr ⟨fun p => ?_, reset_copyShown⟩, hgate, fun p => ?_⟩
  · rw [reset_mark, reset_unpublished]
  · rw [reset_copy, reset_rem]
    rfl
  · exact remReset_timers p

end Sys2Proof.Certificates
end

section
/-! PROOFS. The power settle's expiry in PROBING and in RECOVERING (R26, R34, R35). -/

namespace Sys2Proof.Machine

section
variable {s : State} {r : Row} {n : Nat} (h : (s.row r).settle = .running n)
include h

theorem settleExpires_slot (hp : (s.row r).state = .probing) (hs : hasSlot s.settings.active r = true) :
    settleExpires r s = s.onRow r (fun x => { x with settle := .expired, idFailures := 0 }) := by
  unfold settleExpires
  rw [h, hp]
  exact if_pos hs

theorem settleExpires_noSlot (hp : (s.row r).state = .probing) (hs : hasSlot s.settings.active r = false) :
    settleExpires r s = endWithBatch (enterFailed r .noSlot s) := by
  unfold settleExpires
  rw [h, hp]
  exact if_neg (by simp [hs])

theorem settleExpires_recovering (hp : (s.row r).state = .recovering) : settleExpires r s
    = endWithBatch (evaluateRow r s (s.onRow r (fun x => { x with state := .probing, settle := .expired }))) := by
  unfold settleExpires
  rw [h, hp]

end

end Sys2Proof.Machine

namespace Sys2Proof.Certificates

open Sys2Proof.Machine

/-- Settles O24: each expiry moves one record, and what follows in the event leaves the line. -/
theorem powerSettleExpires : Obligations.PowerSettleExpires := by
  intro s r n h
  refine ⟨fun hp hs => congrArg Host.Outcome.next (settleExpires_slot h hp hs), fun hp hs => ?_, fun hp => ?_⟩
  · have hoff : (s.row r).state ≠ .online := by simp [hp]
    have hm : RowMoved r (fun x => { x.fail .noSlot with tagRead := none }) s (endWithBatch (enterFailed r .noSlot s)) :=
      (enterFailed_row r .noSlot s).andLeave (endWithBatch_line _)
    refine ⟨_, congrArg Host.Outcome.next (settleExpires_noSlot h hp hs), ?_, ?_, ?_, ?_, fun q hq => hm.other hq,
      (enterFailed_changes_offline .noSlot hoff).widen.andThen (endWithBatch_changes _)⟩
    all_goals rw [hm.row]; rfl
  · have hm := (rowMoved_onRow s r (fun x => { x with state := .probing, settle := .expired })).andLeave
      ((((evaluateRow_changes r s _).widen (bs := [.cls, .monitor, .pub, .rem, .cadence, .body])).andThen
        (endWithBatch_changes _)).line)
    exact ⟨_, congrArg Host.Outcome.next (settleExpires_recovering h hp), hm.row, fun q hq => hm.other hq,
      ((changes_onRow s r _).widen.andThen (evaluateRow_changes r s _)).andThen (endWithBatch_changes _)⟩

end Sys2Proof.Certificates
end

section
/-! PROOFS. HOLD is set, and the tag reads in flight are abandoned (R21, R41, R57, R66, R173). -/

namespace Sys2Proof.Machine

/-! ### Tag reads are abandoned (R41, R66) -/

/-- The read in flight is that of the position, and the position has a coil: an abandonment raises its urgent request. -/
def readsAt (s : State) (p : Pos) : Bool := coilFitted s p && decide ((s.row p.row).tagRead.map (·.seat) = some p.seat)

/-- From `s` to `t` the reads in flight of the rows given are abandoned, and nothing else of the line and the list moves. -/
structure Abandoned (l : List Row) (s t : State) : Prop where
  timer   : t.line.timer = s.line.timer
  pointer : t.line.pointer = s.line.pointer
  exchange : t.line.exchange = s.line.exchange
  row     : ∀ r, t.row r = if r ∈ l then { s.row r with tagRead := none } else s.row r
  tags    : ∀ r, t.child.tagTimers.get r
    = if r ∈ l ∧ (s.row r).tagRead ≠ none then none else s.child.tagTimers.get r
  coil    : ∀ p, t.coil p = if p.row ∈ l then { s.coil p with urgent := (s.coil p).urgent || readsAt s p } else s.coil p
  entries : t.child.entries = s.child.entries

theorem Abandoned.nil (s : State) : Abandoned [] s s :=
  ⟨rfl, rfl, rfl, fun _ => rfl, fun r => (if_neg (by simp)).symm, fun _ => rfl, rfl⟩

theorem readsAt_none {s : State} {p : Pos} (h : (s.row p.row).tagRead = none) : readsAt s p = false := by
  simp [readsAt, h]

theorem abandonRead_none {s : State} {r : Row} (h : (s.row r).tagRead = none) : abandonRead r s = s := by
  unfold abandonRead
  rw [h]

theorem abandonRead_some {s : State} {r : Row} {x : TagRead} (h : (s.row r).tagRead = some x) :
    abandonRead r s = raiseUrgent ⟨r, x.seat⟩ (clearTagRead r s) := by
  unfold abandonRead
  rw [h]

theorem abandonRead_tags (r : Row) (s : State) (q : Row) : (abandonRead r s).child.tagTimers.get q
    = if q = r ∧ (s.row q).tagRead ≠ none then none else s.child.tagTimers.get q := by
  cases h : (s.row r).tagRead with
  | none =>
    rw [abandonRead_none h, if_neg]
    rintro ⟨rfl, hne⟩
    exact hne h
  | some x =>
    rw [abandonRead_some h, (raiseUrgent_entries _ _).2]
    show (s.child.tagTimers.modify r _).get q = _
    rw [PerRow.get_modify]
    refine if_congr ⟨fun hq => ⟨hq, ?_⟩, And.left⟩ rfl rfl
    rw [hq, h]
    exact Option.some_ne_none x

theorem abandonRead_coil (r : Row) (s : State) (p : Pos) : (abandonRead r s).coil p
    = if p.row = r then { s.coil p with urgent := (s.coil p).urgent || readsAt s p } else s.coil p := by
  cases h : (s.row r).tagRead with
  | none =>
    rw [abandonRead_none h]
    split
    · rename_i hp
      subst hp
      rw [readsAt_none h, Bool.or_false]
    · rfl
  | some x =>
    have hc : (clearTagRead r s).coil p = s.coil p := rfl
    have hf : coilFitted (clearTagRead r s) p = coilFitted s p := rfl
    rw [abandonRead_some h, raiseUrgent_coil, hc, hf]
    obtain ⟨q, k⟩ := p
    by_cases hq : q = r
    · subst hq
      simp only [readsAt, h, Option.map_some, Option.some.injEq, Pos.mk.injEq, true_and, if_true, eq_comm (a := k)]
      split
      · rename_i hk
        rw [decide_eq_true hk, Bool.and_true]
      · rename_i hk
        rw [decide_eq_false hk, Bool.and_false, Bool.or_false]
    · rw [if_neg (fun he => hq (congrArg Pos.row he)), if_neg hq]

theorem abandonEach (l : List Row) (s : State) : Abandoned l s (forEach l abandonRead s) := by
  induction l generalizing s with
  | nil => exact Abandoned.nil s
  | cons r l ih =>
    have hm := abandonRead_row r s
    have hst : Steady s (abandonRead r s) := ((abandonRead_changes r s)).steady (abandonRead_changes r s).quiet
    have hrow : ∀ q, (abandonRead r s).row q = if q = r then { s.row q with tagRead := none } else s.row q := fun q => by
      split
      · rename_i hq
        rw [hq, hm.row]
      · rename_i hq
        exact hm.other hq
    have hreads : ∀ p, readsAt (abandonRead r s) p = if p.row = r then false else readsAt s p := fun p => by
      split
      · rename_i hp
        exact readsAt_none (by rw [hrow, if_pos hp])
      · rename_i hp
        unfold readsAt
        rw [hst.coilFitted, hrow, if_neg hp]
    have hi := ih (abandonRead r s)
    refine ⟨hi.timer.trans hm.timer, hi.pointer.trans hm.pointer, hi.exchange.trans hm.exchange, fun q => ?_, fun q => ?_,
      fun p => ?_, hi.entries.trans (abandonRead_entries r s)⟩
    · refine (hi.row q).trans ?_
      rw [hrow]
      by_cases hq : q = r <;> simp [hq]
    · refine (hi.tags q).trans ?_
      rw [hrow, abandonRead_tags]
      by_cases hq : q = r <;> simp [hq]
    · refine (hi.coil p).trans ?_
      rw [hreads, abandonRead_coil]
      by_cases hp : p.row = r <;> simp [hp]

theorem abandonAll_abandoned (s : State) : Abandoned allRows s (abandonAll s) := abandonEach allRows s

/-! ### HOLD is set (R173) -/

/-- HOLD stands: the slot timer is suspended, the exchange is gone and the running ages are frozen (R21, R22, R57). -/
def held (s : State) : State :=
  { s with
    monitor := { s.monitor with hold := true, supply := .low }
    line := { s.line with timer := .suspended, exchange := none }
    load := s.load.mapIdx (fun _ l => l.freeze) }

theorem held_changes (s : State) : ChangesOnly [.monitor, .line, .load] s (held s) := by
  intro b hb
  cases b with
  | monitor | line | load => exact absurd hb (by decide)
  | _ => rfl

theorem setHold_running {s : State} (hr : Running s) (hh : s.monitor.hold = false) : setHold s = abandonAll (held s) := by
  unfold setHold
  exact if_pos (by simp [hr.1, hr.2, hh])

end Sys2Proof.Machine

namespace Sys2Proof.Certificates

open Sys2Proof.Machine

/-- Settles O11: HOLD stands first, and every read in flight is then abandoned. -/
theorem holdIsSet : Obligations.HoldIsSet := by
  intro s hr hh
  have ha := abandonAll_abandoned (held s)
  have hc := abandonAll_changes (held s)
  refine ⟨_, congrArg Host.Outcome.next (setHold_running hr hh), hc.monitor, ha.timer, ha.exchange, ha.pointer,
    fun r => ?_, fun r => ?_, fun p => ?_, ha.entries, fun p => ?_, (held_changes s).widen.andThen hc⟩
  · rw [ha.row, if_pos (mem_allRows r)]
    rfl
  · rw [ha.tags]
    by_cases h : (s.row r).tagRead = none
    · exact (if_neg (fun hn => hn.2 h)).trans (if_pos h).symm
    · exact (if_pos ⟨mem_allRows r, h⟩).trans (if_neg h).symm
  · exact (ha.coil p).trans (if_pos (mem_allRows p.row))
  · rw [hc.load]
    exact PerPos.get_mapIdx s.load _ p

end Sys2Proof.Certificates
end

section
/-! PROOFS. HOLD clears (R22, R57, R58, R173). -/

namespace Sys2Proof.Machine

/-! ### A position past its limit becomes stale (R56, R58) -/

/-- A position's turn at the end of HOLD. -/
def staleTurn (p : Pos) (s : State) : State := if pastLimit s p then goStale p s else s

theorem staleTurn_changes (p : Pos) (s : State) : ChangesOnly staleBlocks s (staleTurn p s) :=
  changesOnly_ite (goStale_changes p s) (ChangesOnly.refl _ s)

theorem staleTurn_quiet (p : Pos) (s : State) : Quiet s (staleTurn p s) :=
  quiet_ite (((changes_onLoad s p _).quiet.andThen (evaluate_changes false p _).quiet).andThen (endWithBatch_quiet _))
    (Quiet.refl s)

theorem goStale_load (p : Pos) (s : State) : (goStale p s).load = s.load.modify p LoadState.becomeStale := by
  unfold goStale
  rw [(endWithBatch_changes _).load, (evaluate_changes false p _).load]
  rfl

/-- The load state of a position after its turn (R58). -/
def LoadState.turn (l : LoadState) (fitted : Bool) (limit : Nat) : LoadState :=
  if fitted = true ∧ l.ageMode = .running ∧ l.stale = false ∧ limit < l.age then l.becomeStale else l

theorem staleTurn_load (p : Pos) (s : State) (q : Pos) : (staleTurn p s).load.get q
    = if q = p then (s.load.get q).turn (posFitted s q) (staleLimit s q) else s.load.get q := by
  unfold staleTurn LoadState.turn
  by_cases h : pastLimit s p = true
  · rw [if_pos h, goStale_load, PerPos.get_modify]
    refine if_ctx_congr Iff.rfl (fun hq => ?_) (fun _ => rfl)
    rw [hq, if_pos (pastLimit_iff.mp h)]
  · rw [if_neg h]
    split
    · rename_i hq
      rw [hq, if_neg (fun hn => h (pastLimit_iff.mpr hn))]
    · rfl

theorem staleTurns_load (s : State) (p : Pos) : (forEach allPos staleTurn s).load.get p
    = (s.load.get p).turn (posFitted s p) (staleLimit s p) := by
  have hall := forEach_get (fun t => t.load.get) (f := staleTurn)
    (upd := fun q l => l.turn (posFitted s q) (staleLimit s q))
    (K := fun t => t.straps = s.straps ∧ t.settings = s.settings)
    (fun q t hk => ⟨(staleTurn_changes q t).straps.trans hk.1, (staleTurn_changes q t).settings.trans hk.2⟩)
    (fun q t i hk => by rw [staleTurn_load, posFitted_congr hk.1, staleLimit_congr (congrArg Settings.active hk.2)])
    allPos s allPos_nodup ⟨rfl, rfl⟩ p
  exact hall.trans (if_pos (mem_allPos p))

/-! ### HOLD clears (R173) -/

/-- HOLD is gone: the slot timer runs from a full period, and the frozen ages run on (R22, R57). -/
def holdLifted (s : State) : State :=
  { s with
    monitor := { s.monitor with hold := false, supply := .normal }
    line := { s.line with timer := .running (slotPeriod s) }
    load := s.load.mapIdx (fun _ l => l.thaw) }

theorem holdLifted_changes (s : State) : ChangesOnly [.monitor, .line, .load] s (holdLifted s) := by
  intro b hb
  cases b with
  | monitor | line | load => exact absurd hb (by decide)
  | _ => rfl

theorem clearHold_held {s : State} (hr : s.monitor.inReset = false) (hh : s.monitor.hold = true) :
    clearHold s = forEach allPos staleTurn (holdLifted s) := by
  unfold clearHold
  exact if_pos (by simp [hr, hh])

end Sys2Proof.Machine

namespace Sys2Proof.Certificates

open Sys2Proof.Machine

/-- Settles O12: HOLD is lifted, then each position in turn is judged by its limit; no turn moves another's load state. -/
theorem holdIsCleared : Obligations.HoldIsCleared := by
  intro s hr hh
  have hc : ChangesOnly staleBlocks (holdLifted s) (forEach allPos staleTurn (holdLifted s)) :=
    changesOnly_forEach staleTurn_changes _ _
  have hm := (quiet_forEach staleTurn_quiet allPos (holdLifted s)).monitor_rest
  refine ⟨_, congrArg Host.Outcome.next (clearHold_held hr.1 hh), ?_, ?_, ?_, hc.line, fun p => ?_,
    (holdLifted_changes s).widen.andThen hc⟩
  iterate 3 rw [hm]; rfl
  · refine (staleTurns_load _ p).trans ?_
    have hl : (holdLifted s).load.get p = (s.load.get p).thaw := PerPos.get_mapIdx s.load _ p
    rw [hl]
    rfl

end Sys2Proof.Certificates
end

section
/-! PROOFS. The rest timer's expiry: SLEEP is entered, or the timer restarts (R25, R82, R113, R145, R154, R171, R172). -/

namespace Sys2Proof.Machine

theorem restExpires_sleeps {s : State} {n : Nat} (hd : s.monitor.device = .rest) (hn : s.monitor.restTimer = some n)
    (hw : s.settings.write = none) (hl : s.pub.locked = false) : restExpires s = enterSleep s := by
  unfold restExpires
  rw [if_pos ⟨hd, by rw [hn]; rfl⟩, if_neg (by simp [hw, hl])]

theorem restExpires_waits {s : State} {n : Nat} (hd : s.monitor.device = .rest) (hn : s.monitor.restTimer = some n)
    (h : s.settings.write.isSome = true ∨ s.pub.locked = true) :
    restExpires s = s.onMonitor (fun m => { m with restTimer := some (restTime s) }) := by
  unfold restExpires
  rw [if_pos ⟨hd, by rw [hn]; rfl⟩, if_pos (Bool.or_eq_true_iff.mpr h)]

theorem outsideReset_apply {s : State} (h : s.monitor.inReset = false) (f : State → State) : outsideReset s f = f s :=
  if_neg (by simp [h])

theorem sleepRowState_eq (s : State) (r : Row) :
    sleepRowState s r = if r = .r1 ∨ 6 ≤ s.straps.var.toNat then .probing else .absent := by
  unfold sleepRowState
  simp only [variantFault_eq, decide_eq_true_eq]

/-! ### What sleep entry leaves of each block -/

theorem enterSleep_monitor (s : State) : (enterSleep s).monitor
    = { s.monitor with device := .sleep, hold := false, restTimer := none, wakeSettle := none } := by
  have h := (abandonAll_changes s).monitor
  show ({ (abandonAll s).monitor with
    device := .sleep, hold := false, restTimer := none, wakeSettle := none } : Monitor) = _
  rw [h]

theorem enterSleep_row (s : State) (r : Row) : (enterSleep s).row r = (s.row r).sleep (sleepRowState s r) := by
  show ((abandonAll s).line.rows.mapIdx _).get r = _
  rw [PerRow.get_mapIdx]
  show ((abandonAll s).row r).sleep (sleepRowState s r) = _
  rw [(abandonAll_abandoned s).row, if_pos (mem_allRows r)]
  rfl

theorem enterSleep_entries (s : State) : (enterSleep s).child.entries = s.child.entries.map provisionalEntry := by
  show (abandonAll s).child.entries.map provisionalEntry = _
  rw [(abandonAll_abandoned s).entries]

theorem enterSleep_coil (s : State) (p : Pos) : (enterSleep s).coil p = ((abandonAll s).coil p).leaveOnline :=
  PerPos.get_mapIdx _ _ p

theorem enterSleep_load (s : State) (p : Pos) : (enterSleep s).load.get p = (s.load.get p).leaveOnline := by
  show ((abandonAll s).load.mapIdx _).get p = _
  rw [PerPos.get_mapIdx, (abandonAll_changes s).load]

theorem enterSleep_body (s : State) : (enterSleep s).body = s.body.sleep := by
  show (abandonAll s).body.sleep = _
  rw [(abandonAll_changes s).body]

/-- In SLEEP a closed gate leaves the pin in high impedance, whatever OUTCFG says (R145). -/
theorem pinState_closed_asleep {s : State} (h : awake s = false) (level : Bool) :
    pinState s .closed level = .highImpedance := by
  simp [pinState, h]

theorem enterSleep_awake (s : State) : awake (enterSleep s) = false := by
  unfold awake
  rw [enterSleep_monitor]
  rfl

theorem enterSleep_shiftedOut (s : State) : shiftedOut (enterSleep s) = none := by
  unfold shiftedOut asleep
  rw [enterSleep_monitor]
  rfl

theorem provisionalEntry_eq (e : Entry) :
    provisionalEntry e = { e with state := if e.state = .present then .provisional else e.state } := by
  unfold provisionalEntry
  split <;> rfl

end Sys2Proof.Machine

namespace Sys2Proof.Certificates

open Sys2Proof.Machine

/-- Settles O13: block by block, what sleep entry leaves; otherwise the timer alone restarts. -/
theorem restTimerExpires : Obligations.RestTimerExpires := by
  intro s n hr hd hn
  refine ⟨fun hw hl => ?_, fun h => congrArg Host.Outcome.next
    ((outsideReset_apply hr _).trans (restExpires_waits hd hn h))⟩
  refine ⟨_, congrArg Host.Outcome.next ((outsideReset_apply hr _).trans (restExpires_sleeps hd hn hw hl)),
    enterSleep_monitor s, rfl, rfl, (abandonAll_abandoned s).pointer, fun r => ?_, ?_, fun p => ?_, rfl, rfl, rfl,
    pinState_closed_asleep (enterSleep_awake s) _, pinState_closed_asleep (enterSleep_awake s) _, rfl, rfl, rfl,
    enterSleep_shiftedOut s, rfl, rfl, rfl, rfl, rfl, ?_, (enterSleep_changes s)⟩
  · rw [enterSleep_row, sleepRowState_eq]
    rfl
  · rw [enterSleep_entries]
    exact List.map_congr_left (fun e _ => provisionalEntry_eq e)
  · rw [enterSleep_coil, enterSleep_load]
    exact ⟨rfl, rfl, rfl, rfl, rfl, PerPos.get_all _ p, PerPos.get_all _ p⟩
  · rw [enterSleep_body]
    rfl

end Sys2Proof.Certificates
end

section
/-! PROOFS. The tag start of a SAMPLE slot: which position is named, and what the naming leaves (R37, R62, R64). -/

namespace Sys2Proof.Machine

/-! ### Which position is named (R64) -/

theorem rowPositions_sorted (r : Row) : (rowPositions r).Pairwise (fun p q => p.num ≤ q.num) := by cases r <;> decide

/-- In a list in ascending order the first position of a kind is the lowest-numbered one. -/
theorem find_lowest {f : Pos → Bool} {p : Pos} : ∀ {l : List Pos} (_ : l.Pairwise (fun a b => a.num ≤ b.num)) (_ : p ∈ l)
    (_ : f p = true) (_ : ∀ q ∈ l, f q = true → p.num ≤ q.num), l.find? f = some p
  | a :: l, hs, hp, hf, hl => by
    obtain ⟨ha, hs⟩ := List.pairwise_cons.mp hs
    rw [List.find?_cons]
    cases hfa : f a with
    | true =>
      obtain rfl | hp := List.mem_cons.mp hp
      · rfl
      · exact congrArg some (Pos.num_injective (Nat.le_antisymm (ha p hp) (hl a List.mem_cons_self hfa)))
    | false =>
      have hne : p ≠ a := fun he => absurd (he ▸ hf) (by simp [hfa])
      exact find_lowest hs ((List.mem_cons.mp hp).resolve_left hne) hf (fun q hq => hl q (List.mem_cons_of_mem a hq))

/-- The position's scan timer expired before the other's, or at one millisecond and it is the lower-numbered. -/
def FirstDue (s : State) (p q : Pos) : Prop := ∃ m k, (s.coil p).due = some m ∧ (s.coil q).due = some k
  ∧ (m < k ∨ (m = k ∧ p.num ≤ q.num))

theorem FirstDue.trans {s : State} {p q u : Pos} (h1 : FirstDue s p q) (h2 : FirstDue s q u) : FirstDue s p u := by
  obtain ⟨m, k, hm, hk, h1⟩ := h1
  obtain ⟨k', n, hk', hn, h2⟩ := h2
  have hkk : k = k' := Option.some.inj (hk.symm.trans hk')
  exact ⟨m, n, hm, hn, by omega⟩

theorem FirstDue.antisymm {s : State} {p q : Pos} (h1 : FirstDue s p q) (h2 : FirstDue s q p) : p = q := by
  obtain ⟨m, k, hm, hk, h1⟩ := h1
  obtain ⟨k', m', hk', hm', h2⟩ := h2
  have hkk : k = k' := Option.some.inj (hk.symm.trans hk')
  have hmm : m = m' := Option.some.inj (hm.symm.trans hm')
  exact Pos.num_injective (by omega)

/-- Of two due positions in ascending order the choice is one of them, and expired first of both. -/
theorem earlierDue_spec {s : State} {a b : Pos} (ha : (s.coil a).due.isSome = true) (hb : (s.coil b).due.isSome = true)
    (hn : a.num ≤ b.num) : (earlierDue s a b = a ∧ FirstDue s a b) ∨ (earlierDue s a b = b ∧ FirstDue s b a) := by
  obtain ⟨m, hm⟩ := Option.isSome_iff_exists.mp ha
  obtain ⟨k, hk⟩ := Option.isSome_iff_exists.mp hb
  unfold earlierDue
  rw [hm, hk]
  dsimp only
  split
  · exact .inr ⟨rfl, k, m, hk, hm, .inl (by omega)⟩
  · exact .inl ⟨rfl, m, k, hm, hk, by omega⟩

/-- The choice among due positions in ascending order is one of them, and expired first of all. -/
theorem foldl_earlierDue_spec {s : State} : ∀ (l : List Pos) (a : Pos) (_ : (a :: l).Pairwise (fun p q => p.num ≤ q.num))
    (_ : ∀ q ∈ a :: l, (s.coil q).due.isSome = true),
    l.foldl (earlierDue s) a ∈ a :: l ∧ ∀ q ∈ a :: l, FirstDue s (l.foldl (earlierDue s) a) q
  | [], a, _, hd => by
    obtain ⟨m, hm⟩ := Option.isSome_iff_exists.mp (hd a List.mem_cons_self)
    refine ⟨List.mem_cons_self, fun q hq => ?_⟩
    obtain rfl := List.mem_singleton.mp hq
    exact ⟨m, m, hm, hm, .inr ⟨rfl, Nat.le_refl _⟩⟩
  | b :: l, a, hs, hd => by
    obtain ⟨ha, hs⟩ := List.pairwise_cons.mp hs
    obtain ⟨hb, hl⟩ := List.pairwise_cons.mp hs
    obtain ⟨hda, hd⟩ := List.forall_mem_cons.mp hd
    obtain ⟨hdb, hdl⟩ := List.forall_mem_cons.mp hd
    rw [List.foldl_cons]
    obtain ⟨he, hf⟩ | ⟨he, hf⟩ := earlierDue_spec hda hdb (ha b List.mem_cons_self)
    · rw [he]
      obtain ⟨hm, hall⟩ := foldl_earlierDue_spec l a
        (List.pairwise_cons.mpr ⟨fun q hq => ha q (List.mem_cons_of_mem b hq), hl⟩) (List.forall_mem_cons.mpr ⟨hda, hdl⟩)
      obtain ⟨hfa, hfl⟩ := List.forall_mem_cons.mp hall
      exact ⟨List.cons_subset_cons a (List.subset_cons_self b l) hm,
        List.forall_mem_cons.mpr ⟨hfa, List.forall_mem_cons.mpr ⟨hfa.trans hf, hfl⟩⟩⟩
    · rw [he]
      obtain ⟨hm, hall⟩ := foldl_earlierDue_spec l b hs hd
      exact ⟨List.mem_cons_of_mem a hm,
        List.forall_mem_cons.mpr ⟨(List.forall_mem_cons.mp hall).1.trans hf, hall⟩⟩

/-- The choice among the due positions given, if there is one (R64). -/
def firstDue (s : State) : List Pos → Option Pos
  | [] => none
  | p :: rest => some (rest.foldl (earlierDue s) p)

theorem mem_rowCoils {s : State} {r : Row} {p : Pos} :
    p ∈ (rowPositions r).filter (coilFitted s) ↔ p.row = r ∧ coilFitted s p = true := by
  rw [List.mem_filter, mem_rowPositions]

theorem nameForStart_urgent {s : State} {p : Pos} (hc : coilFitted s p = true) (hu : (s.coil p).urgent = true)
    (hl : ∀ q, q.row = p.row → coilFitted s q = true → (s.coil q).urgent = true → p.num ≤ q.num) :
    nameForStart s p.row = some p := by
  have hfind : ((rowPositions p.row).filter (coilFitted s)).find? (fun q => (s.coil q).urgent) = some p :=
    find_lowest ((rowPositions_sorted p.row).filter _) (mem_rowCoils.mpr ⟨rfl, hc⟩) hu (fun q hq =>
      hl q (mem_rowCoils.mp hq).1 (mem_rowCoils.mp hq).2)
  unfold nameForStart
  dsimp only
  rw [hfind]

section
variable {s : State} {r : Row} (hu : ∀ q, q.row = r → coilFitted s q = true → (s.coil q).urgent = false)
include hu

/-- Without an urgent request the due positions alone are in question. -/
theorem nameForStart_noUrgent : nameForStart s r
    = firstDue s (((rowPositions r).filter (coilFitted s)).filter (fun p => (s.coil p).due.isSome)) := by
  have hfind : ((rowPositions r).filter (coilFitted s)).find? (fun q => (s.coil q).urgent) = none :=
    List.find?_eq_none.mpr (fun q hq => by simp [hu q (mem_rowCoils.mp hq).1 (mem_rowCoils.mp hq).2])
  unfold nameForStart
  dsimp only
  rw [hfind]
  dsimp only
  generalize ((rowPositions r).filter (coilFitted s)).filter (fun p => (s.coil p).due.isSome) = l
  cases l <;> rfl

theorem nameForStart_due {p : Pos} {m : Nat} (hr : p.row = r) (hc : coilFitted s p = true) (hm : (s.coil p).due = some m)
    (hl : ∀ q k, q.row = r → coilFitted s q = true → (s.coil q).due = some k → m < k ∨ (m = k ∧ p.num ≤ q.num)) :
    nameForStart s r = some p := by
  rw [nameForStart_noUrgent hu]
  have hmem : ∀ q, q ∈ ((rowPositions r).filter (coilFitted s)).filter (fun p => (s.coil p).due.isSome)
      ↔ (q.row = r ∧ coilFitted s q = true) ∧ (s.coil q).due.isSome = true := fun q => by
    rw [List.mem_filter, mem_rowCoils]
  have hp := (hmem p).mpr ⟨⟨hr, hc⟩, by rw [hm]; rfl⟩
  have hs := ((rowPositions_sorted r).filter (coilFitted s)).filter (fun p => (s.coil p).due.isSome)
  generalize ((rowPositions r).filter (coilFitted s)).filter (fun p => (s.coil p).due.isSome) = l at hp hs hmem
  cases l with
  | nil => exact absurd hp List.not_mem_nil
  | cons a l =>
    obtain ⟨hx, hall⟩ := foldl_earlierDue_spec l a hs (fun q hq => ((hmem q).mp hq).2)
    obtain ⟨⟨hxr, hxc⟩, hxd⟩ := (hmem _).mp hx
    obtain ⟨k, hk⟩ := Option.isSome_iff_exists.mp hxd
    exact congrArg some (FirstDue.antisymm (hall p hp) ⟨m, k, hm, hk, hl _ k hxr hxc hk⟩)

theorem nameForStart_none (hd : ∀ q, q.row = r → coilFitted s q = true → (s.coil q).due = none) :
    nameForStart s r = none := by
  rw [nameForStart_noUrgent hu, List.filter_eq_nil_iff.mpr (fun q hq => by
    simp [hd q (mem_rowCoils.mp hq).1 (mem_rowCoils.mp hq).2])]
  rfl

end

/-! ### The poll with and without a start (R37) -/

theorem sendSample_reading {s : State} {r : Row} (h : (s.row r).tagRead.isSome = true) :
    sendSample r s = sendPoll r (.sample none) s := if_pos h

theorem sendSample_unnamed {s : State} {r : Row} (h : (s.row r).tagRead = none) (hn : nameForStart s r = none) :
    sendSample r s = sendPoll r (.sample none) s := by
  unfold sendSample
  rw [if_neg (by simp [h]), hn]

/-- The state in which the named position's read is started, before the poll is put on the line (R62, R64). -/
def readStarted (p : Pos) (s : State) : State :=
  (startRead p s).onRow p.row (RowRecord.startTag ((s.row p.row).tagCounter + 1) p.seat)

theorem sendSample_named {s : State} {p : Pos} (h : (s.row p.row).tagRead = none) (hn : nameForStart s p.row = some p) :
    sendSample p.row s = sendPoll p.row (.sample (some (p.seat, (s.row p.row).tagCounter + 1))) (readStarted p s) := by
  unfold sendSample
  rw [if_neg (by simp [h]), hn]
  rfl

theorem startRead_coil (p : Pos) (s : State) (q : Pos) : (startRead p s).coil q
    = if q = p then { s.coil q with urgent := false, due := none, scan := some (scanInterval s) } else s.coil q :=
  State.coil_onCoil s p q _

theorem polled_readStarted (p : Pos) (s : State) (b : PollBody) : polled (readStarted p s) p.row b = polled s p.row b := by
  unfold polled readStarted
  rw [State.row_onRow_self]
  rfl

/-- The slot timer's expiry at the slot of an ONLINE row, with nothing on the line, sends a SAMPLE poll. -/
theorem slotExpires_sample {s : State} {n : Nat} {r : Row} (ht : s.line.timer = .running n) (hx : s.line.exchange = none)
    (hs : slotRow s.settings.active (s.line.pointer + 1).toNat = some r) (hf : rowFitted s r = true)
    (ho : (s.row r).state = .online) : slotExpires s = sendSample r (slotBegun s) := by
  rw [slotExpires_running ht, exchangeTimesOut_idle hx, takeSlot_row hs]
  exact carrySlot_online hf ho

end Sys2Proof.Machine

namespace Sys2Proof.Certificates

open Sys2Proof.Machine

/-- Settles O17: a read in flight, or no position to name, sends the plain poll; else the named position's read starts. -/
theorem tagStartIsNamed : Obligations.TagStartIsNamed := by
  intro s n r ht hx hs hf ho
  have hexec : exec .slotTimerExpiry s = .next (sendSample r (slotBegun s)) :=
    congrArg Host.Outcome.next (slotExpires_sample ht hx hs hf ho)
  refine ⟨_, hexec, fun hr => ?_, fun hr => ⟨?_, fun hq => ?_⟩⟩
  · rw [sendSample_reading (s := slotBegun s) hr]
    refine ⟨rfl, rfl, ?_⟩
    rw [(sendPoll_sent r (.sample none) (slotBegun s)).row]
    rfl
  · rintro p rfl hc hp
    have hname : nameForStart (slotBegun s) p.row = some p := by
      obtain ⟨hu, hl⟩ | ⟨hu, m, hm, hl⟩ := hp
      · exact nameForStart_urgent (s := slotBegun s) hc hu hl
      · exact nameForStart_due (s := slotBegun s) hu rfl hc hm hl
    rw [sendSample_named (s := slotBegun s) hr hname]
    have hsent := sendPoll_sent p.row (.sample (some (p.seat, (s.row p.row).tagCounter + 1))) (readStarted p (slotBegun s))
    have hrow := hsent.row
    unfold readStarted at hrow
    rw [State.row_onRow_self] at hrow
    refine ⟨?_, congrArg RowRecord.tagRead hrow, congrArg RowRecord.tagCounter hrow, ?_, fun q hq => ?_, ?_,
      fun q hq => ?_, rfl⟩
    · exact (congrArg RowLine.exchange hsent.line).trans (congrArg some (polled_readStarted p (slotBegun s) _))
    · exact (startRead_coil p (slotBegun s) p).trans (if_pos rfl)
    · exact (startRead_coil p (slotBegun s) q).trans (if_neg hq)
    · exact PerRow.get_modify_self _ _ _
    · exact PerRow.get_modify_ne _ _ hq
  · rw [sendSample_unnamed (s := slotBegun s) hr (nameForStart_none (s := slotBegun s) (fun q h1 h2 => (hq q h1 h2).1)
      (fun q h1 h2 => (hq q h1 h2).2))]
    exact ⟨rfl, rfl⟩

end Sys2Proof.Certificates
end

section
/-! PROOFS. A row falls from ONLINE to RECOVERING or FAILED: what becomes of its positions (R59, R73, R80, R90, R98). -/

namespace Sys2Proof.Machine

/-! ### The child seat consequences (R62, R67, R72, R73, R80) -/

theorem childRowLeaves_eq (r : Row) (b : Bool) (s : State) : childRowLeaves r b s
    = forEach (rowPositions r) (fun p => vacates p ⟨causeOldRowLeft, if b then some causeRowRemoved else none⟩)
        (coilsLeft r s) := rfl

/-- The coils of a row that leaves ONLINE, removed or not. -/
theorem childRowLeaves_left (r : Row) (b : Bool) (s : State) {p : Pos} (hp : p.row = r) :
    ((childRowLeaves r b s).coil p).contest = none ∧ ((childRowLeaves r b s).coil p).scan = none
      ∧ ((childRowLeaves r b s).coil p).faults = 0 := by
  have hl : (coilsLeft r s).coil p = (s.coil p).leaveOnline := by rw [coilsLeft_coil, if_pos hp]
  have hv := vacates_contestsClear ⟨causeOldRowLeft, if b then some causeRowRemoved else none⟩ (rowPositions r)
    (coilsLeft r s)
  rw [childRowLeaves_eq]
  obtain ⟨⟨hscan, _, hfaults, _⟩, _⟩ := hv p
  exact ⟨hv.none (by rw [hl]; rfl), hscan.trans (by rw [hl]; rfl), hfaults.trans (by rw [hl]; rfl)⟩

/-- Where the entry of a vacated place ends when the places of a row are vacated and an uncontested entry may stay. -/
theorem Rests.vacates_row_staying {moved : Nat} (l : List Pos) {s : State} {e : Entry} (hn : l.Nodup) (h : Rests s e)
    (ha : Alone s e) (hs : e.state ≠ .missing) (hm : e.pos ∈ l) :
    (contestedBy s e.tag = [] → Rests (forEach l (fun p => Machine.vacates p ⟨moved, none⟩) s) e)
    ∧ ∀ p ps, contestedBy s e.tag = p :: ps → p ∉ l →
      Rests (forEach l (fun p => Machine.vacates p ⟨moved, none⟩) s)
        { e with state := .present, pos := p, confirmed := s.monitor.seconds } := by
  induction l generalizing s with
  | nil => exact absurd hm List.not_mem_nil
  | cons q l ih =>
    obtain ⟨hql, hln⟩ := List.nodup_cons.mp hn
    by_cases hq : e.pos = q
    · subst hq
      refine ⟨fun hc => ?_, fun p ps hc hp => ?_⟩
      · have hstay : Machine.vacates e.pos ⟨moved, none⟩ s = s := vacate_stays (h.vacating ha hs) hc rfl
        show Rests (forEach l _ (Machine.vacates e.pos ⟨moved, none⟩ s)) e
        rw [hstay]
        exact Rests.vacates l h (fun _ => hql)
      · exact Rests.vacates l (h.moved ha hs hc 15 ⟨moved, none⟩) (fun _ hx => hp (List.mem_cons_of_mem _ hx))
    · have hne : e.state ≠ .missing → e.pos ≠ q := fun _ => hq
      have hsec : (Machine.vacate 16 [] q ⟨moved, none⟩ s).monitor.seconds = s.monitor.seconds := by
        rw [(vacate_changes 16 [] q _ s).monitor]
      obtain ⟨hstays, hmoves⟩ := ih (s := Machine.vacate 16 [] q ⟨moved, none⟩ s) hln (h.vacate hne 16 [] _)
        (h.alone_vacate ha hs 16 [] q _) ((List.mem_cons.mp hm).resolve_left hq)
      rw [h.contestedBy_vacate hne] at hstays hmoves
      rw [hsec] at hmoves
      exact ⟨hstays, fun p ps hc hp => hmoves p ps hc (fun hx => hp (List.mem_cons_of_mem _ hx))⟩

theorem coilsLeft_contest (r : Row) (s : State) (p : Pos) :
    ((coilsLeft r s).coil p).contest = if p.row = r then none else (s.coil p).contest := by
  rw [coilsLeft_coil]
  split <;> rfl

theorem coilsLeft_seconds (r : Row) (s : State) : (coilsLeft r s).monitor.seconds = s.monitor.seconds := by
  rw [coilsLeft, (changesOnly_forEach (fun p t => changes_onCoil t p Coil.leaveOnline) (rowPositions r) s).monitor]

/-- An entry that stands in the row is alone at its place, which is not contested once the row's coils are left. -/
theorem coilsLeft_rests {r : Row} {s : State} (ht : TagsInv s.child) (ho : OneStanding s.child) {e : Entry}
    (he : e ∈ s.child.entries) (hs : e.state ≠ .missing) (hr : e.pos.row = r) :
    Rests (coilsLeft r s) e ∧ Alone (coilsLeft r s) e := by
  have hent := coilsLeft_entries r s
  refine ⟨⟨hent ▸ he, fun f hf htag => ht.unique (hent ▸ hf) he htag, fun _ => ?_⟩, fun f hf hst => ?_⟩
  · rw [coilsLeft_contest, if_pos hr]
  · obtain ⟨hp, hn⟩ := standsAt_iff.mp hst
    exact ho.unique (hent ▸ hf) he hn hs hp

/-- Where the entries that stood in a row end when it leaves ONLINE and is not removed (R73, R80). -/
theorem childRowLeaves_staying {r : Row} {s : State} (ht : TagsInv s.child) (ho : OneStanding s.child) {e : Entry}
    (he : e ∈ s.child.entries) (hs : e.state ≠ .missing) (hr : e.pos.row = r) :
    ((∀ q, ¬ LowestContest s r e.tag q) → e ∈ (childRowLeaves r false s).child.entries)
    ∧ ∀ q, LowestContest s r e.tag q →
      { e with state := .present, pos := q, confirmed := s.monitor.seconds } ∈ (childRowLeaves r false s).child.entries
      ∧ ((childRowLeaves r false s).coil q).contest = none := by
  obtain ⟨hrests, halone⟩ := coilsLeft_rests ht ho he hs hr
  obtain ⟨hstays, hmoves⟩ := hrests.vacates_row_staying (moved := causeOldRowLeft) (rowPositions r)
    (rowPositions_nodup r) halone hs ((mem_rowPositions _ _).mpr hr)
  rw [coilsLeft_seconds] at hmoves
  rw [childRowLeaves_eq]
  cases hc : contestedBy (coilsLeft r s) e.tag with
  | nil =>
    refine ⟨fun _ => (hstays hc).mem, fun q hq => ?_⟩
    have hm : q ∈ contestedBy (coilsLeft r s) e.tag :=
      mem_contestedBy.mpr (by rw [coilsLeft_contest, if_neg hq.1, hq.2.1])
    rw [hc] at hm
    exact absurd hm List.not_mem_nil
  | cons p ps =>
    have hlow := lowestContest_head (coilsLeft_contest r s) hc
    refine ⟨fun hn => absurd hlow (hn p), fun q hq => ?_⟩
    rw [lowestContest_unique hq hlow]
    have hres := hmoves p ps hc (fun hm => hlow.1 ((mem_rowPositions _ _).mp hm))
    exact ⟨hres.mem, hres.free nofun⟩

/-! ### Buckles are forgotten (R98) -/

theorem afterBuckle_quiet (b : State) (p : Pos) (s : State) : Quiet s (afterBuckle b p s) :=
  quiet_ite (Quiet.refl s) (((notify_quiet _ s).andThen (restartRest_quiet _)).andThen (afterSeatChange_quiet _ b p _))

theorem loseBuckle_quiet (p : Pos) (s : State) : Quiet s (loseBuckle p s) :=
  (changes_onCls s p _).quiet.andThen (afterBuckle_quiet s p _)

theorem loseBuckle_cls (p : Pos) (s : State) (q : Pos) :
    (loseBuckle p s).cls.get q = if q = p then (s.cls.get q).forgetBuckle else s.cls.get q := by
  unfold loseBuckle
  rw [(afterBuckle_changes s p _).cls]
  exact PerPos.get_modify s.cls p q _

theorem positionsLeaveOnline_cls (r : Row) (b : Bool) (s : State) (p : Pos) : (positionsLeaveOnline r b s).cls.get p
    = if p ∈ fittedOf s r then { s.cls.get p with sampled := false } else s.cls.get p := by
  unfold positionsLeaveOnline
  rw [(childRowLeaves_changes r b _).cls]
  exact forEach_get (fun t q => t.cls.get q) (upd := fun _ c => { c with sampled := false }) (K := fun _ => True)
    (fun _ _ _ => trivial) (fun p t q _ => PerPos.get_modify t.cls p q _) _ s (fittedOf_nodup s r) trivial p

/-! ### The positions of a row that falls -/

/-- The row's positions have left ONLINE and their buckles are forgotten, before the evaluations. -/
def positionsFallen (r : Row) (s : State) : State :=
  forEach (fittedOf s r) loseBuckle (positionsLeaveOnline r false s)

theorem positionsFall_online (r : Row) (b s : State) :
    positionsFall r true b s = evaluateRow r b (positionsFallen r s) := rfl

theorem positionsFallen_changes (r : Row) (s : State) :
    ChangesOnly [.monitor, .load, .child, .cls, .rem, .body] s (positionsFallen r s) :=
  (positionsLeaveOnline_changes r false s).widen.andThen (changesOnly_forEach loseBuckle_changes _ _)

theorem positionsFallen_quiet (r : Row) (s : State) : Quiet s (positionsFallen r s) :=
  (positionsLeaveOnline_quiet r false s).andThen (quiet_forEach loseBuckle_quiet _ _)

theorem positionsFallen_load (r : Row) (s : State) (p : Pos) : (positionsFallen r s).load.get p
    = if p ∈ fittedOf s r then (s.load.get p).leaveOnline else s.load.get p := by
  unfold positionsFallen
  rw [(changesOnly_forEach loseBuckle_changes _ _).load, positionsLeaveOnline_load]

theorem positionsFallen_cls {r : Row} {s : State} {p : Pos} (h : p ∈ fittedOf s r) :
    (positionsFallen r s).cls.get p = { (s.cls.get p).forgetBuckle with sampled := false } := by
  have hc := forEach_get (fun t q => t.cls.get q) (upd := fun _ c => c.forgetBuckle) (K := fun _ => True)
    (fun _ _ _ => trivial) (fun p t q _ => loseBuckle_cls p t q) (fittedOf s r) (positionsLeaveOnline r false s)
    (fittedOf_nodup s r) trivial p
  rw [if_pos h, positionsLeaveOnline_cls, if_pos h] at hc
  exact hc

/-- The Child Seat Unit afterwards is that of the row's leaving, from the list and the coils that stood before. -/
theorem positionsFallen_child (r : Row) (s : State) : ∃ u, (positionsFallen r s).child = (childRowLeaves r false u).child
    ∧ u.child = s.child ∧ u.monitor = s.monitor := by
  have hu : ChangesOnly [.load, .cls] s (forEach (fittedOf s r) (fun p t =>
      (t.onLoad p LoadState.leaveOnline).onCls p (fun c => { c with sampled := false })) s) :=
    changesOnly_forEach (fun p t => (changes_onLoad t p _).widen.andThen (changes_onCls _ p _)) _ s
  exact ⟨_, (changesOnly_forEach loseBuckle_changes _ _).child, hu.child, hu.monitor⟩

/-! ### The record at which a position of the row settles (R90) -/

/-- The record of a fitted position of a row that has fallen: the row's reason, or a higher one (R90). -/
def fallenRecord (s : State) (p : Pos) : ClassRecord :=
  if (s.row p.row).state = .failed ∧ startRecord s p = .indeterminate .rowStarting then .indeterminate .rowFailed
  else startRecord s p

theorem fallenRecord_settlesAtOnce (s : State) (p : Pos) : settlesAtOnce (fallenRecord s p) = true := by
  unfold fallenRecord
  split
  · rfl
  · exact startRecord_settlesAtOnce s p

theorem candidate_failed {s : State} {p : Pos} (hf : posFitted s p = true) (hr : (s.row p.row).state = .failed) :
    candidate s p = fallenRecord s p := by
  unfold candidate fallenRecord startRecord
  simp only [hf, hr, variantFault_eq]
  by_cases hv : 6 ≤ s.straps.var.toNat
  · simp [hv]
  · cases s.settings.posFault.get p <;> cases s.settings.uncalibrated.get p <;> simp [hv]

theorem tableRecord_fallen {s : State} {p : Pos} (hf : posFitted s p = true)
    (hr : (s.row p.row).state = .recovering ∨ (s.row p.row).state = .failed) : tableRecord s p = fallenRecord s p := by
  rw [← candidate_eq_tableRecord]
  obtain hr | hr := hr
  · rw [candidate_eq_startRecord hf (.inr (.inr (.inr (.inl hr))))]
    exact (if_neg (by simp [hr])).symm
  · exact candidate_failed hf hr

theorem ChangesOnly.fallenRecord {bs : List Block} {s t : State} (h : ChangesOnly bs s t) (p : Pos)
    (h1 : bs.contains Block.straps = false := by rfl) (h2 : bs.contains Block.settings = false := by rfl)
    (h3 : bs.contains Block.line = false := by rfl) : fallenRecord t p = fallenRecord s p := by
  unfold Machine.fallenRecord
  rw [h.startRecord p h1 h2 h3, show t.row p.row = s.row p.row by unfold State.row; rw [h.line h3]]

/-- The evaluations settle the row's fitted positions at once (R94, R96). -/
theorem evaluateRow_fallen {r : Row} {b s : State} {p : Pos} (hp : p.row = r) (hf : posFitted s p = true)
    (ha : awake s = true) (hr : (s.row r).state = .recovering ∨ (s.row r).state = .failed) :
    ((evaluateRow r b s).cls.get p).settled = fallenRecord s p := by
  have hrec := tableRecord_fallen hf (hp ▸ hr)
  unfold evaluateRow
  rw [evaluateEach_atOnce _ _ (List.mem_append_left _ (mem_fittedOf.mpr ⟨hp, hf⟩)) hf ha
    (hrec ▸ fallenRecord_settlesAtOnce _ _), hrec]

end Sys2Proof.Machine
end

section
/-! PROOFS. A failed SAMPLE exchange (R32 to R36, R40). -/

namespace Sys2Proof.Machine

/-! ### Nothing to publish (R104, R108) -/

/-- Where the marks stand as the settled records ask and nothing is unpublished, a batch changes nothing. -/
theorem PublicationInv.publish {s : State} (h : PublicationInv s) : Machine.publish s = s := by
  unfold Machine.publish
  split
  · have hm : s.pub.marks.mapIdx (fun p _ => unpublished s p) = s.pub.marks :=
      PerPos.ext_get (fun p => (PerPos.get_mapIdx _ _ p).trans (h p).1.symm)
    unfold State.onPub
    dsimp only
    rw [hm]
  · rename_i hl
    have he : allPos.filter (unpublished s) = [] :=
      List.filter_eq_nil_iff.mpr (fun p _ => by simp [(h p).2 (eq_false_of_ne_true hl)])
    rw [he]
    rfl

theorem PublicationInv.endWithBatch_changes {s : State} (h : PublicationInv s) :
    ChangesOnly [.cadence, .body] s (endWithBatch s) := by
  unfold endWithBatch
  rw [h.publish]
  exact endEvent_changes s

/-! ### The error score (R32) -/

/-- The record of a row whose SAMPLE exchange failed (R32). -/
def RowRecord.scoreUp (x : RowRecord) : RowRecord := { x with score := min 64 (x.score + 4) }

theorem exchangeFails_sample {s : State} {x : Exchange} (hk : x.kind = .sample) (ho : (s.row x.row).state = .online) :
    exchangeFails x s = sampleFails x.row s := by
  unfold exchangeFails
  rw [hk, ho]

theorem sampleFails_below {r : Row} {s : State} (h : (s.row r).score + 4 < 32) :
    sampleFails r s = s.onRow r RowRecord.scoreUp := by
  unfold sampleFails
  exact if_neg (by rw [State.row_onRow_self]; show ¬ 32 ≤ min 64 ((s.row r).score + 4); omega)

theorem sampleFails_atLimit {r : Row} {s : State} (h : 32 ≤ (s.row r).score + 4) :
    sampleFails r s = enterRecovering r .errorScore (s.onRow r RowRecord.scoreUp) := by
  unfold sampleFails
  exact if_pos (by rw [State.row_onRow_self]; show 32 ≤ min 64 ((s.row r).score + 4); omega)

/-! ### The row falls (R33, R35, R36) -/

/-- The row's recovery count has risen (R33). -/
def recoveryCounted (r : Row) (s : State) : State := s.onRow r (fun x => { x with recovery := min 3 (x.recovery + 1) })

/-- An ONLINE row has fallen, its record moved and its notices made, before its positions follow (R33, R35, R36). -/
def rowFallen (r : Row) (c : RowCause) (s : State) : State :=
  if 3 ≤ (s.row r).recovery + 1 then
    notify (failedNotice r .online .recoveryExhausted) (notify (rowNotice r .online .failed .recoveryExhausted)
      ((abandonRead r (recoveryCounted r s)).onRow r (fun x => x.fail .recoveryExhausted)))
  else notify (rowNotice r .online .recovering c)
    ((abandonRead r (recoveryCounted r s)).onRow r (fun x => x.recover c))

theorem enterRecovering_online {r : Row} {s : State} (c : RowCause) (ho : (s.row r).state = .online) :
    ∃ b, enterRecovering r c s = positionsFall r true b (rowFallen r c s) := by
  have hstate : ((recoveryCounted r s).row r).state = .online := by
    unfold recoveryCounted
    rw [State.row_onRow_self]
    exact ho
  have hcount : 3 ≤ ((recoveryCounted r s).row r).recovery ↔ 3 ≤ (s.row r).recovery + 1 := by
    unfold recoveryCounted
    rw [State.row_onRow_self]
    show 3 ≤ min 3 ((s.row r).recovery + 1) ↔ _
    omega
  unfold rowFallen
  by_cases h : 3 ≤ (s.row r).recovery + 1
  · refine ⟨recoveryCounted r s, ?_⟩
    rw [if_pos h]
    refine (if_pos (hcount.mpr h)).trans ?_
    show enterFailed r .recoveryExhausted (recoveryCounted r s) = _
    unfold enterFailed
    rw [hstate]
    rfl
  · refine ⟨s, ?_⟩
    rw [if_neg h]
    refine (if_neg (fun hn => h (hcount.mp hn))).trans ?_
    rw [ho]
    rfl

theorem abandoned_changes (r : Row) (f : RowRecord → RowRecord) (s : State) :
    ChangesOnly [.line, .child] s ((abandonRead r (recoveryCounted r s)).onRow r f) :=
  ((changes_onRow s r _).widen.andThen (abandonRead_changes r _)).andThen (changes_onRow _ r f)

theorem rowFallen_changes (r : Row) (c : RowCause) (s : State) :
    ChangesOnly [.line, .child, .body] s (rowFallen r c s) :=
  changesOnly_ite (((abandoned_changes r _ s).widen.andThen (notify_changes _ _)).andThen (notify_changes _ _))
    ((abandoned_changes r _ s).widen.andThen (notify_changes _ _))

theorem rowFallen_quiet (r : Row) (c : RowCause) (s : State) : Quiet s (rowFallen r c s) :=
  quiet_ite (((abandoned_changes r _ s).quiet.andThen (notify_quiet _ _)).andThen (notify_quiet _ _))
    ((abandoned_changes r _ s).quiet.andThen (notify_quiet _ _))

/-- The list and the contests stand until the row's positions follow. -/
theorem rowFallen_list (r : Row) (c : RowCause) (s : State) : (rowFallen r c s).child.entries = s.child.entries
    ∧ ∀ p, ((rowFallen r c s).coil p).contest = (s.coil p).contest := by
  have hchild : (rowFallen r c s).child = (abandonRead r (recoveryCounted r s)).child := by
    unfold rowFallen
    split <;> rfl
  refine ⟨?_, fun p => ?_⟩
  · rw [hchild]
    exact abandonRead_entries r _
  · unfold State.coil
    rw [hchild]
    exact abandonRead_contest r _ p

theorem rowFallen_row (r : Row) (c : RowCause) (s : State) :
    ((rowFallen r c s).row r).state = .recovering ∨ ((rowFallen r c s).row r).state = .failed := by
  unfold rowFallen
  split
  · exact .inr (congrArg RowRecord.state (State.row_onRow_self _ r (fun x => x.fail .recoveryExhausted)))
  · exact .inl (congrArg RowRecord.state (State.row_onRow_self _ r (fun x => x.recover c)))

/-- The notices of a fall enter a queue with room for them both (R36). -/
theorem rowFallen_waits {r : Row} {c : RowCause} {s : State} (hq : s.body.queue.length < 23)
    (h7 : kindClass s.settings.active 7 = 1) (h8 : kindClass s.settings.active 8 = 1) :
    (3 ≤ (s.row r).recovery + 1 →
      (∃ e ∈ (rowFallen r c s).body.queue,
        e.urgent = true ∧ e.notice = rowNotice r .online .failed .recoveryExhausted)
      ∧ ∃ e ∈ (rowFallen r c s).body.queue, e.urgent = true ∧ e.notice = failedNotice r .online .recoveryExhausted)
    ∧ ((s.row r).recovery + 1 < 3 →
      ∃ e ∈ (rowFallen r c s).body.queue, e.urgent = true ∧ e.notice = rowNotice r .online .recovering c) := by
  have hc := fun f => abandoned_changes r f s
  have hrow : ∀ f n, n.kind = .rowChange →
      ∃ e ∈ (notify n ((abandonRead r (recoveryCounted r s)).onRow r f)).body.queue, e.urgent = true ∧ e.notice = n :=
    fun f n hn => notify_waits (noticeUrgent_of_kindClass (by rw [hn, (hc f).settings]; exact h7))
      (by rw [(hc f).body]; omega)
  refine ⟨fun h => ?_, fun h => ?_⟩
  · rw [rowFallen, if_pos h]
    refine ⟨(notify_quiet _ _).waits (hrow _ _ rfl), notify_waits (noticeUrgent_of_kindClass ?_) ?_⟩
    · rw [(notify_changes _ _).settings, (hc _).settings]
      exact h8
    · refine Nat.lt_of_le_of_lt (notify_queue_length_le _ _) ?_
      rw [(hc _).body]
      omega
  · rw [rowFallen, if_neg (by omega)]
    exact hrow _ _ rfl

/-! ### The fall as a whole -/

/-- The event in which a row falls, after its own record and its notices. -/
def fallEnds (r : Row) (b u : State) : State := endWithBatch (evaluateRow r b (positionsFallen r u))

theorem fallEnds_changes (r : Row) (b u : State) :
    ChangesOnly [.monitor, .load, .child, .cls, .pub, .rem, .cadence, .body] u (fallEnds r b u) :=
  ((positionsFallen_changes r u).widen.andThen (evaluateRow_changes r b _)).andThen (endWithBatch_changes _)

theorem fallEnds_quiet (r : Row) (b u : State) : Quiet u (fallEnds r b u) :=
  ((positionsFallen_quiet r u).andThen (evaluateRow_changes r b _).quiet).andThen (endWithBatch_quiet _)

theorem fallEnds_child (r : Row) (b u : State) : (fallEnds r b u).child = (positionsFallen r u).child := by
  unfold fallEnds
  rw [(endWithBatch_changes _).child, (evaluateRow_changes r b _).child]

theorem fallEnds_load (r : Row) (b u : State) (p : Pos) : (fallEnds r b u).load.get p
    = if p ∈ fittedOf u r then (u.load.get p).leaveOnline else u.load.get p := by
  unfold fallEnds
  rw [(endWithBatch_changes _).load, (evaluateRow_changes r b _).load, positionsFallen_load]

/-- The buckle of a fitted position is forgotten, and its record settles and is published (R90, R98, R104). -/
theorem fallEnds_cls {r : Row} {b u : State} {p : Pos} (hm : p ∈ fittedOf u r)
    (hr : (u.row r).state = .recovering ∨ (u.row r).state = .failed) :
    ((fallEnds r b u).cls.get p).buckle = .unknown ∧ ((fallEnds r b u).cls.get p).prevBuckle = none
    ∧ ((fallEnds r b u).cls.get p).sampled = false
    ∧ (awake u = true → ((fallEnds r b u).cls.get p).settled = fallenRecord (fallEnds r b u) p
      ∧ (u.pub.locked = false → (fallEnds r b u).pub.table.get p = ((fallEnds r b u).cls.get p).settled)) := by
  obtain ⟨hp, hf⟩ := mem_fittedOf.mp hm
  have hfall := positionsFallen_changes r u
  have hev := evaluateRow_changes r b (positionsFallen r u)
  have hend := endWithBatch_changes (evaluateRow r b (positionsFallen r u))
  have hcls : (fallEnds r b u).cls.get p = (evaluateRow r b (positionsFallen r u)).cls.get p := by
    unfold fallEnds
    rw [hend.cls]
  have hrest := evaluateEach_cls_rest p
    (fittedOf (positionsFallen r u) r ++ (evidenceChanges b (positionsFallen r u)).filter (fun q => q.row != r))
    (positionsFallen r u)
  rw [positionsFallen_cls hm] at hrest
  have hforget := hcls.trans hrest
  refine ⟨by rw [hforget]; rfl, by rw [hforget]; rfl, by rw [hforget], fun ha => ⟨?_, fun hl => ?_⟩⟩
  · rw [hcls, evaluateRow_fallen hp ((posFitted_congr hfall.straps p).trans hf)
      ((positionsFallen_quiet r u).awake.trans ha)
      (by unfold State.row at hr ⊢; rw [hfall.line]; exact hr)]
    exact ((hev.widen (bs := [.cls, .monitor, .pub, .rem, .cadence, .body])).andThen hend).fallenRecord p |>.symm
  · rw [hcls]
    exact endWithBatch_table (by rw [hev.pub, hfall.pub]; exact hl) p

theorem fallEnds_coil {r : Row} {b u : State} {p : Pos} (hp : p.row = r) : ((fallEnds r b u).coil p).contest = none
    ∧ ((fallEnds r b u).coil p).scan = none ∧ ((fallEnds r b u).coil p).faults = 0 := by
  obtain ⟨v, hv, _⟩ := positionsFallen_child r u
  have h := childRowLeaves_left r false v hp
  unfold State.coil at h ⊢
  rw [fallEnds_child, hv]
  exact h

/-- Where the entries of the row end (R73, R80). -/
theorem fallEnds_entry {r : Row} {b u : State} (ht : TagsInv u.child) (ho : OneStanding u.child) {e : Entry}
    (he : e ∈ u.child.entries) (hs : e.state ≠ .missing) (hr : e.pos.row = r) :
    ((∀ q, ¬ LowestContest u r e.tag q) → e ∈ (fallEnds r b u).child.entries)
    ∧ ∀ q, LowestContest u r e.tag q →
      { e with state := .present, pos := q, confirmed := u.monitor.seconds } ∈ (fallEnds r b u).child.entries
      ∧ ((fallEnds r b u).coil q).contest = none := by
  obtain ⟨v, hv, hvc, hvm⟩ := positionsFallen_child r u
  have hlow : ∀ z, LowestContest v r e.tag z ↔ LowestContest u r e.tag z := fun z => by
    unfold LowestContest State.coil
    rw [hvc]
  obtain ⟨hstays, hmoves⟩ := childRowLeaves_staying (s := v) (hvc ▸ ht) (hvc ▸ ho) (hvc ▸ he) hs hr
  simp only [hlow] at hstays hmoves
  rw [hvm] at hmoves
  unfold State.coil at hmoves ⊢
  rw [fallEnds_child, hv]
  exact ⟨hstays, hmoves⟩

end Sys2Proof.Machine
end

section
/-! PROOFS. The failed SAMPLE exchange as a whole (R20, R32 to R36). -/

namespace Sys2Proof.Machine

/-- The exchange is ended and its failure counted. -/
def sampleCounted (r : Row) (s : State) : State := (endExchange s).onRow r RowRecord.scoreUp

theorem sampleCounted_changes (r : Row) (s : State) : ChangesOnly [.line] s (sampleCounted r s) :=
  (endExchange_changes s).andThen (changes_onRow _ r _)

theorem sampleCounted_row (r : Row) (s : State) : (sampleCounted r s).row r = (s.row r).scoreUp :=
  State.row_onRow_self (endExchange s) r _

/-- The row and its positions from `s` on, once its error score has reached the limit. -/
def sampleFallen (r : Row) (s : State) : State := rowFallen r .errorScore (sampleCounted r s)

section
variable {s : State} {x : Exchange} {c : Instr} (hx : s.line.exchange = some x) (hk : x.kind = .sample)
  (ho : (s.row x.row).state = .online) (hc : FailsExchange s x c)
include hx hk ho hc

theorem exec_sampleFails_below (h : (s.row x.row).score + 4 < 32) :
    exec c s = .next (endWithBatch (sampleCounted x.row s)) := by
  rw [exec_failsExchange hx hc, exchangeFails_sample (s := endExchange s) hk ho]
  exact congrArg (fun t => Host.Outcome.next (endWithBatch t)) (sampleFails_below (s := endExchange s) h)

theorem exec_sampleFails_atLimit (h : 32 ≤ (s.row x.row).score + 4) :
    exec c s = .next (endWithBatch (enterRecovering x.row .errorScore (sampleCounted x.row s)))
      ∧ ∃ b, enterRecovering x.row .errorScore (sampleCounted x.row s)
        = evaluateRow x.row b (positionsFallen x.row (sampleFallen x.row s)) := by
  have hon : ((sampleCounted x.row s).row x.row).state = .online := by
    rw [sampleCounted_row]
    exact ho
  refine ⟨?_, ?_⟩
  · rw [exec_failsExchange hx hc, exchangeFails_sample (s := endExchange s) hk ho]
    exact congrArg (fun t => Host.Outcome.next (endWithBatch t)) (sampleFails_atLimit (s := endExchange s) h)
  · obtain ⟨b, hb⟩ := enterRecovering_online .errorScore hon
    exact ⟨b, hb.trans (positionsFall_online x.row b _)⟩

end

theorem sampleFallen_changes (r : Row) (s : State) : ChangesOnly [.line, .child, .body] s (sampleFallen r s) :=
  (sampleCounted_changes r s).widen.andThen (rowFallen_changes r _ _)

theorem sampleFallen_quiet (r : Row) (s : State) : Quiet s (sampleFallen r s) :=
  (sampleCounted_changes r s).quiet.andThen (rowFallen_quiet r _ _)

theorem sampleFallen_list (r : Row) (s : State) : (sampleFallen r s).child.entries = s.child.entries
    ∧ ∀ p, ((sampleFallen r s).coil p).contest = (s.coil p).contest := rowFallen_list r _ (sampleCounted r s)

/-- The row's record after the fall, by its recovery count (R33, R35). -/
theorem sampleFallen_moved (r : Row) (s : State) :
    ((s.row r).recovery + 1 < 3 → RowMoved r (fun x => { x.scoreUp.recover .errorScore with
        recovery := x.recovery + 1, tagRead := none }) (endExchange s)
        (enterRecovering r .errorScore (sampleCounted r s)))
    ∧ (3 ≤ (s.row r).recovery + 1 → RowMoved r (fun x => { x.scoreUp.fail .recoveryExhausted with
        recovery := 3, tagRead := none }) (endExchange s) (enterRecovering r .errorScore (sampleCounted r s))) := by
  have hm := rowMoved_onRow (endExchange s) r RowRecord.scoreUp
  have hrec : ((sampleCounted r s).row r).recovery = (s.row r).recovery := by
    rw [sampleCounted_row]
    rfl
  exact ⟨fun h => hm.andThen (enterRecovering_row_below .errorScore (hrec ▸ h)),
    fun h => hm.andThen (enterRecovering_row_atLimit .errorScore (hrec ▸ h))⟩

/-- What the line holds at the end of the event (R33, R35). -/
theorem sampleFallen_line (r : Row) (s : State) {t : State}
    (ht : t = endWithBatch (enterRecovering r .errorScore (sampleCounted r s))) :
    t.line.exchange = none ∧ (∀ q, q ≠ r → t.row q = s.row q)
    ∧ ((s.row r).recovery + 1 < 3 → t.row r = { (s.row r).scoreUp.recover .errorScore with
        recovery := (s.row r).recovery + 1, tagRead := none })
    ∧ (3 ≤ (s.row r).recovery + 1 → t.row r = { (s.row r).scoreUp.fail .recoveryExhausted with
        recovery := 3, tagRead := none }) := by
  subst ht
  obtain ⟨hbelow, hlimit⟩ := sampleFallen_moved r s
  by_cases h : (s.row r).recovery + 1 < 3
  · obtain ⟨hx, hr, hq⟩ := (hbelow h).afterExchange
    exact ⟨hx, hq, fun _ => hr, fun hn => absurd h (by omega)⟩
  · obtain ⟨hx, hr, hq⟩ := (hlimit (by omega)).afterExchange
    exact ⟨hx, hq, fun hn => absurd hn h, fun _ => hr⟩

/-- What both records of a fall have in common (R33, R35). -/
theorem sampleFallen_record {x y : RowRecord} {n : Nat} (h : y = { x.scoreUp.recover .errorScore with
      recovery := n, tagRead := none } ∨ y = { x.scoreUp.fail .recoveryExhausted with recovery := n, tagRead := none }) :
    y.rpwr = false ∧ y.score = 0 ∧ y.identity = none ∧ (∀ k, y.latch.get k = none) ∧ y.tagRead = none := by
  obtain rfl | rfl := h
  · exact ⟨rfl, rfl, rfl, PerSeat.get_all none, rfl⟩
  · exact ⟨rfl, rfl, rfl, PerSeat.get_all none, rfl⟩

end Sys2Proof.Machine

namespace Sys2Proof.Certificates

open Sys2Proof.Machine

/-- Settles O18: below the limit the score alone moves, and with nothing unpublished the batch is empty; at the limit the row
falls, and its positions, its entries and its notices follow from the state in which it has fallen. -/
theorem sampleExchangeFails : Obligations.SampleExchangeFails := by
  intro s x c hx hk ho hc
  refine ⟨fun h hinv => ?_, fun h => ?_⟩
  · have hcount := sampleCounted_changes x.row s
    have hend : ChangesOnly [.cadence, .body] (sampleCounted x.row s) (endWithBatch (sampleCounted x.row s)) :=
      (publicationInv_of_same hcount.cls hcount.pub hinv).endWithBatch_changes
    refine ⟨_, exec_sampleFails_below hx hk ho hc h, ?_, hcount.widen.andThen hend⟩
    have hm : RowMoved x.row (fun y => { y with score := y.score + 4 }) (endExchange s) (sampleCounted x.row s) := by
      refine (rowMoved_onRow (endExchange s) x.row RowRecord.scoreUp).congr ?_
      show ({ s.row x.row with score := min 64 ((s.row x.row).score + 4) } : RowRecord) = _
      rw [Nat.min_eq_right (by omega)]
      rfl
    exact hend.line.trans hm
  · obtain ⟨hexec, b, hb⟩ := exec_sampleFails_atLimit hx hk ho hc h
    have ht : fallEnds x.row b (sampleFallen x.row s)
        = endWithBatch (enterRecovering x.row .errorScore (sampleCounted x.row s)) := (congrArg endWithBatch hb).symm
    obtain ⟨hexchange, hothers, hbelow, hlimit⟩ := sampleFallen_line x.row s ht
    rw [← ht] at hexec
    obtain ⟨hrpwr, hscore, hid, hlatch, htag⟩ := sampleFallen_record (x := s.row x.row)
      (y := (fallEnds x.row b (sampleFallen x.row s)).row x.row) (n := min 3 ((s.row x.row).recovery + 1)) (by
        by_cases hr : (s.row x.row).recovery + 1 < 3
        · rw [Nat.min_eq_right (by omega)]
          exact .inl (hbelow hr)
        · rw [Nat.min_eq_left (by omega)]
          exact .inr (hlimit (by omega)))
    have hfall := sampleFallen_changes x.row s
    have hquiet := sampleFallen_quiet x.row s
    have hend := fallEnds_quiet x.row b (sampleFallen x.row s)
    obtain ⟨hent, hcon⟩ := sampleFallen_list x.row s
    have hstate := rowFallen_row x.row .errorScore (sampleCounted x.row s)
    have hmem : ∀ p, p ∈ fittedOf (sampleFallen x.row s) x.row ↔ p.row = x.row ∧ posFitted s p = true := fun p => by
      rw [mem_fittedOf, posFitted_congr hfall.straps]
    refine ⟨_, hexec, hexchange, hrpwr, hscore, hid, hlatch, htag, fun hr => ?_, fun hr => ?_, hothers,
      fun p hp => fallEnds_coil hp, fun p hp hf => ?_, fun p hp => ?_, fun hinv e he hs hr => ?_, fun hq h7 h8 => ?_,
      hfall.widen.andThen (fallEnds_changes x.row b _)⟩
    · rw [hbelow hr]
      exact ⟨rfl, rfl, rfl, rfl⟩
    · rw [hlimit hr]
      exact ⟨rfl, rfl, rfl⟩
    · have hm := (hmem p).mpr ⟨hp, hf⟩
      obtain ⟨hbuckle, hprev, hsampled, hsettled⟩ := fallEnds_cls (b := b) hm hstate
      refine ⟨?_, hbuckle, hprev, hsampled, fun ha => ?_⟩
      · rw [fallEnds_load, if_pos hm, hfall.load]
        rfl
      · obtain ⟨hrec, htable⟩ := hsettled (hquiet.awake.trans ha)
        refine ⟨?_, fun hl => htable (by rw [hfall.pub]; exact hl)⟩
        rw [hrec]
        unfold fallenRecord
        rw [hp]
    · rw [fallEnds_load, if_neg (fun hm => hp ((hmem p).mp hm).1), hfall.load]
    · obtain ⟨htags, hone, _, _⟩ := hinv
      have hlow : ∀ z, LowestContest (sampleFallen x.row s) x.row e.tag z ↔ LowestContest s x.row e.tag z := fun z => by
        unfold LowestContest
        simp only [hcon]
      obtain ⟨hstays, hmoves⟩ := fallEnds_entry (b := b) (u := sampleFallen x.row s) (by unfold TagsInv; rw [hent]; exact htags)
        (by unfold OneStanding; rw [hent]; exact hone) (hent ▸ he) hs hr
      simp only [hlow] at hstays hmoves
      rw [hquiet.seconds] at hmoves
      exact ⟨hstays, hmoves⟩
    · obtain ⟨hfailed, hrecovering⟩ := rowFallen_waits (r := x.row) (c := .errorScore) (s := sampleCounted x.row s) hq h7 h8
      rw [sampleCounted_row] at hfailed hrecovering
      by_cases hr : 3 ≤ (s.row x.row).recovery + 1
      · obtain ⟨hrow, hfault⟩ := hfailed hr
        simp only [if_pos hr]
        exact ⟨waits_of_urgent (hend.waits hrow), fun _ => waits_of_urgent (hend.waits hfault)⟩
      · simp only [if_neg hr]
        exact ⟨waits_of_urgent (hend.waits (hrecovering (Nat.lt_of_not_le hr))), fun hn => absurd hn hr⟩

end Sys2Proof.Certificates
end

section
/-! PROOFS. The notice queue while it has room: how it grows by the debounce of a sample, and what stays in it (R161). -/

namespace Sys2Proof.Machine

/-! ### A notice enters a queue with room -/

theorem Body.enter_room {b : Body} (u : Bool) (n : Notice) (h : b.queue.length < 24) : (b.enter u n).queue
    = if (!u && b.queue.any (coalesces n)) = true then b.queue.map (fun e => if coalesces n e then coalesced n e else e)
      else b.queue ++ [⟨n, u, false⟩] := by
  unfold Body.enter
  rw [if_pos h]
  split <;> rfl

theorem Body.enter_length_ge (b : Body) (u : Bool) (n : Notice) : b.queue.length ≤ (b.enter u n).queue.length := by
  unfold Body.enter
  split
  · simp
  · split
    · simp
    · split
      · exact Nat.le_refl _
      · split
        · simp only [dropYoungestRoutine, List.length_append, List.length_reverse, List.length_eraseP,
            List.length_singleton]
          split <;> omega
        · exact Nat.le_refl _

/-- An URGENT entry that waits after a notice has entered was there before, or is the notice's. -/
theorem Body.enter_urgent_source {b : Body} {u : Bool} {n : Notice} {e : QueueEntry} (he : e ∈ (b.enter u n).queue)
    (hu : e.urgent = true) : e ∈ b.queue ∨ (u = true ∧ e = ⟨n, true, false⟩) := by
  have hnew : ∀ {q : List QueueEntry}, (∀ x ∈ q, x ∈ b.queue) → e ∈ q ++ [⟨n, u, false⟩] →
      e ∈ b.queue ∨ (u = true ∧ e = ⟨n, true, false⟩) := fun hq hm => by
    obtain hm | hm := List.mem_append.mp hm
    · exact .inl (hq e hm)
    · obtain rfl := List.mem_singleton.mp hm
      have hu' : u = true := hu
      exact .inr ⟨hu', by rw [hu']⟩
  unfold Body.enter at he
  split at he
  · obtain ⟨x, hx, rfl⟩ := List.mem_map.mp he
    split at hu
    · rename_i hc
      have hx' : x.urgent = true := hu
      simp [coalesces, hx'] at hc
    · rename_i hc
      rw [if_neg hc]
      exact .inl hx
  · split at he
    · exact hnew (fun _ h => h) he
    · split at he
      · exact .inl he
      · split at he
        · refine hnew (fun x hx => ?_) he
          exact List.mem_reverse.mp (List.mem_of_mem_eraseP (List.mem_reverse.mp hx))
        · exact .inl he

theorem coalesces_coalesced (m n : Notice) (e : QueueEntry) : coalesces m (coalesced n e) = coalesces m e := rfl

/-- A queue that coalesces with a notice does so after another has been coalesced in it. -/
theorem any_coalesces_map (m n : Notice) (q : List QueueEntry) :
    (q.map (fun e => if coalesces n e then coalesced n e else e)).any (coalesces m) = q.any (coalesces m) := by
  rw [List.any_map]
  refine congrArg (q.any ·) (funext fun e => ?_)
  show coalesces m (if coalesces n e then coalesced n e else e) = coalesces m e
  split
  · exact coalesces_coalesced m n e
  · rfl

theorem coalesces_trans {m n : Notice} {u : Bool} {e : QueueEntry} (h1 : coalesces m ⟨n, u, false⟩ = true)
    (h2 : coalesces n e = true) : coalesces m e = true := by
  simp only [coalesces, Bool.and_eq_true, Bool.not_eq_true', beq_iff_eq] at h1 h2 ⊢
  obtain ⟨⟨_, hk⟩, hs⟩ := h1
  obtain ⟨⟨hu, hk'⟩, hs'⟩ := h2
  exact ⟨⟨hu, hk'.trans hk⟩, hs'.trans hs⟩

/-! ### Growth by a number of notices -/

/-- While the queue has room for `n` notices it grows by at most so many, and each notice that would coalesce still does. -/
structure Grows (n : Nat) (s t : State) : Prop where
  length   : s.body.queue.length + n ≤ 24 → t.body.queue.length ≤ s.body.queue.length + n
  coalesce : s.body.queue.length + n ≤ 24 →
    ∀ m, s.body.queue.any (coalesces m) = true → t.body.queue.any (coalesces m) = true

/-- An operation that leaves the queue. -/
theorem grows_of_queue {s t : State} (n : Nat) (h : t.body.queue = s.body.queue) : Grows n s t := by
  refine ⟨fun _ => ?_, fun _ _ hm => ?_⟩
  · rw [h]
    exact Nat.le_add_right _ _
  · rw [h]
    exact hm

theorem Grows.refl (n : Nat) (s : State) : Grows n s s := grows_of_queue n rfl

theorem Grows.trans {m n : Nat} {s t u : State} (h1 : Grows m s t) (h2 : Grows n t u) : Grows (m + n) s u := by
  refine ⟨fun h => ?_, fun h x hx => ?_⟩
  · have ht := h1.length (by omega)
    have hu := h2.length (by omega)
    omega
  · have ht := h1.length (by omega)
    exact h2.coalesce (by omega) x (h1.coalesce (by omega) x hx)

/-- A change that leaves the Body Port. -/
theorem ChangesOnly.grows {bs : List Block} {s t : State} (h : ChangesOnly bs s t)
    (hb : bs.contains Block.body = false := by rfl) (n : Nat := 0) : Grows n s t :=
  grows_of_queue n (by rw [h.body hb])

theorem grows_ite {n : Nat} {s t u : State} {c : Prop} [Decidable c] (h1 : Grows n s t) (h2 : Grows n s u) :
    Grows n s (if c then t else u) := by
  split
  · exact h1
  · exact h2

theorem notify_grows (n : Notice) (s : State) : Grows 1 s (notify n s) := by
  refine ⟨fun _ => notify_queue_length_le n s, fun h m hm => ?_⟩
  show ((s.body.enter (noticeUrgent s.settings.active n) n).queue).any (coalesces m) = true
  rw [Body.enter_room _ _ (by omega)]
  split
  · rw [any_coalesces_map, hm]
  · rw [List.any_append, hm]
    rfl

theorem enterAudible_grows (p : Pos) (s : State) : Grows 1 s (enterAudible p s) :=
  (changes_onRem s p _).grows.trans (notify_grows _ _)

theorem enterVisual_grows (p : Pos) (s : State) : Grows 1 s (enterVisual p s) := by
  unfold enterVisual
  exact grows_ite ((changes_onRem s p _).grows.trans (enterAudible_grows p _)) ((changes_onRem s p _).grows (n := 1))

theorem enterWait_grows (p : Pos) (d : Nat) (s : State) : Grows 1 s (enterWait p d s) :=
  grows_ite (enterVisual_grows p s) ((changes_onRem s p _).grows (n := 1))

theorem actOnResults_grows (p : Pos) (d : Nat) (s : State) : Grows 1 s (actOnResults p d s) := by
  obtain e | e | e | e := actOnResults_cases p d s <;> rw [e]
  · exact Grows.refl 1 s
  · exact (remOff_changes p s).grows (n := 1)
  · exact enterWait_grows p d s
  · exact enterAudible_grows p s

theorem afterSeatChange_grows (u : Bool) (b : State) (p : Pos) (s : State) : Grows 1 s (afterSeatChange u b p s) :=
  grows_ite (Grows.refl 1 s) (grows_ite (Grows.refl 1 s)
    ((changes_onRem s p _).grows.trans (actOnResults_grows p _ _)))

theorem afterBuckle_grows (b : State) (p : Pos) (s : State) : Grows 2 s (afterBuckle b p s) :=
  grows_ite (Grows.refl 2 s)
    (((notify_grows _ s).trans (restartRest_changes _).grows).trans (afterSeatChange_grows _ b p _))

theorem takeBuckle_grows (p : Pos) (r : BuckleReading) (s : State) : Grows 2 s (takeBuckle p r s) :=
  (changes_onCls s p _).grows.trans (afterBuckle_grows s p _)

theorem takeAnchors_grows (p : Pos) (l r : AnchorReading) (s : State) : Grows 1 s (takeAnchors p l r s) := by
  unfold takeAnchors
  have hcls : ∀ c : ClassState, Grows 0 s (s.onCls p (fun _ => c)) := fun c => (changes_onCls s p _).grows
  exact (grows_ite (hcls _) ((hcls _).trans (raiseUrgent_changes p _).grows)).trans (afterSeatChange_grows false s p _)

theorem debounceSeat_grows (r : Row) (b : List Byte) (k : Seat) (s : State) : Grows 3 s (debounceSeat r b k s) := by
  unfold debounceSeat
  exact grows_ite (((changes_onRow s r _).grows.trans (takeBuckle_grows _ _ _)).trans (takeAnchors_grows _ _ _ _))
    ((changes_onRow s r _).grows (n := 3))

/-- The debounce of a sample's three seats makes at most nine notices. -/
theorem debounceSeats_grows (r : Row) (b : List Byte) (s : State) :
    Grows 9 s (forEach allSeats (debounceSeat r b) s) :=
  ((debounceSeat_grows r b .s1 s).trans (debounceSeat_grows r b .s2 _)).trans (debounceSeat_grows r b .s3 _)

end Sys2Proof.Machine
end

section
/-! PROOFS. A tag read's result acts alike on the state before a sample's debounce and on the state after it: the list, the
contests and the marks move by the same steps, and what the debounce left stays (R67, R72 to R78, R161). -/

namespace Sys2Proof.Machine

/-! ### Two states with one list -/

/-- The second queue has at most nine entries more; what coalesces in the first coalesces in it, and the URGENT entries of the
first wait in it. -/
structure Longer (q q' : List QueueEntry) : Prop where
  length    : q'.length ≤ q.length + 9
  coalesce  : ∀ n, q.any (coalesces n) = true → q'.any (coalesces n) = true
  urgent    : UrgentKept q q'

/-- A notice that coalesces in the shorter queue does so in the longer one. -/
theorem Longer.coalesced {b c : Body} (h : Longer b.queue c.queue) {n : Notice}
    (hn : b.queue.any (coalesces n) = true) (hl : b.queue.length < 24) :
    Longer (b.enter false n).queue (c.enter false n).queue := by
  have hb : (b.enter false n).queue = b.queue.map (fun e => if coalesces n e then Machine.coalesced n e else e) :=
    (Body.enter_room false n hl).trans (if_pos (by rw [hn]; rfl))
  have hc : (c.enter false n).queue = c.queue.map (fun e => if coalesces n e then Machine.coalesced n e else e) := by
    unfold Body.enter
    rw [if_pos (by rw [h.coalesce n hn]; rfl)]
  refine ⟨?_, fun m hm => ?_, fun e he heu => ?_⟩
  · rw [hb, hc, List.length_map, List.length_map]
    exact h.length
  · rw [hb, any_coalesces_map] at hm
    rw [hc, any_coalesces_map]
    exact h.coalesce m hm
  · obtain he | ⟨hu, _⟩ := Body.enter_urgent_source he heu
    · exact (h.urgent.trans (c.enter_urgentKept false n)) e he heu
    · nomatch hu

/-- A notice that is appended to the shorter queue is appended to the longer one, or coalesces there. -/
theorem Longer.appended {b c : Body} (h : Longer b.queue c.queue) {u : Bool} {n : Notice}
    (hn : (!u && b.queue.any (coalesces n)) = false) (hl : b.queue.length < 15) :
    Longer (b.enter u n).queue (c.enter u n).queue := by
  have hb : (b.enter u n).queue = b.queue ++ [⟨n, u, false⟩] :=
    (Body.enter_room u n (by omega)).trans (if_neg (by simp [hn]))
  have hroom : c.queue.length < 24 := by
    have := h.length
    omega
  refine ⟨?_, fun m hm => ?_, fun e he heu => ?_⟩
  · have hgrow := c.enter_queue_length_le u n
    have hlen := h.length
    rw [hb, List.length_append, List.length_singleton]
    omega
  · rw [hb, List.any_append, Bool.or_eq_true] at hm
    rw [Body.enter_room u n hroom]
    split
    · rename_i hc
      obtain ⟨e, he, hce⟩ := List.any_eq_true.mp (Bool.and_eq_true_iff.mp hc).2
      rw [any_coalesces_map]
      obtain hm | hm := hm
      · exact h.coalesce m hm
      · exact List.any_eq_true.mpr ⟨e, he, coalesces_trans (by simpa using hm) hce⟩
    · rw [List.any_append, Bool.or_eq_true]
      exact hm.imp (h.coalesce m) id
  · obtain he | ⟨hu, rfl⟩ := Body.enter_urgent_source he heu
    · exact (h.urgent.trans (c.enter_urgentKept u n)) e he heu
    · rw [hu]
      exact ⟨_, Body.enter_urgent_room n hroom, rfl, rfl⟩

/-- The longer queue takes a notice as the shorter one does, while that stays within 15 entries. -/
theorem Longer.enter {b c : Body} (h : Longer b.queue c.queue) {u : Bool} {n : Notice}
    (hl : (b.enter u n).queue.length ≤ 15) : Longer (b.enter u n).queue (c.enter u n).queue := by
  have hge := b.enter_length_ge u n
  cases hn : (!u && b.queue.any (coalesces n)) with
  | true =>
    obtain ⟨hu, hn⟩ := Bool.and_eq_true_iff.mp hn
    obtain rfl : u = false := by simpa using hu
    exact h.coalesced hn (by omega)
  | false =>
    have hb : (b.enter u n).queue = b.queue ++ [⟨n, u, false⟩] :=
      (Body.enter_room u n (by omega)).trans (if_neg (by simp [hn]))
    rw [hb, List.length_append, List.length_singleton] at hl
    exact h.appended hn (by omega)

/-- The second state has the first's list, and its coils up to the urgent requests at the positions of `x`; all that a result
reads is alike. The tag read timers are those given. -/
structure Echo (x : Pos → Bool) (timers : PerRow Timer) (s t : State) : Prop where
  straps   : t.straps = s.straps
  settings : t.settings = s.settings
  seconds  : t.monitor.seconds = s.monitor.seconds
  rows     : ∀ r, (t.row r).state = (s.row r).state
  entries  : t.child.entries = s.child.entries
  coil     : ∀ p, t.coil p = { s.coil p with urgent := (s.coil p).urgent || x p }
  timers   : t.child.tagTimers = timers
  queue    : s.body.queue.length ≤ 15 → Longer s.body.queue t.body.queue

/-- A coil's rule that reads and keeps the urgent request apart from the rest. -/
def Coil.Blind (f : Coil → Coil) : Prop :=
  ∀ c b, f { c with urgent := c.urgent || b } = { f c with urgent := (f c).urgent || b }

section
variable {x : Pos → Bool} {timers : PerRow Timer} {s t : State} (h : Echo x timers s t)
include h

theorem Echo.contest (p : Pos) : (t.coil p).contest = (s.coil p).contest := by rw [h.coil]

theorem Echo.coilFitted (p : Pos) : Machine.coilFitted t p = Machine.coilFitted s p :=
  sensorFlag_congr h.straps (by rw [h.settings]) 2

theorem Echo.contestedBy (y : TagId) : Machine.contestedBy t y = Machine.contestedBy s y := by
  unfold Machine.contestedBy
  simp only [h.contest]

theorem Echo.entryOf (y : TagId) : Machine.entryOf t y = Machine.entryOf s y := by
  unfold Machine.entryOf
  rw [h.entries]

theorem Echo.vacating (m : List TagId) (q : Pos) : Machine.vacating m q t = Machine.vacating m q s := by
  unfold Machine.vacating
  rw [h.entries]

theorem Echo.onEntries (g : List Entry → List Entry) : Echo x timers
    (s.onChild (fun c => { c with entries := g c.entries })) (t.onChild (fun c => { c with entries := g c.entries })) :=
  ⟨h.straps, h.settings, h.seconds, h.rows, congrArg g h.entries, h.coil, h.timers, h.queue⟩

theorem Echo.onCoil {f : Coil → Coil} (hf : Coil.Blind f) (p : Pos) : Echo x timers (s.onCoil p f) (t.onCoil p f) := by
  refine ⟨h.straps, h.settings, h.seconds, h.rows, h.entries, fun q => ?_, h.timers, h.queue⟩
  rw [State.coil_onCoil, State.coil_onCoil, h.coil]
  split
  · exact hf _ _
  · rfl

theorem Echo.notify (n : Notice) : Echo x timers (Machine.notify n s) (Machine.notify n t) := by
  refine ⟨h.straps, h.settings, h.seconds, h.rows, h.entries, h.coil, h.timers, fun hl => ?_⟩
  have hlong := h.queue ((s.body.enter_length_ge (noticeUrgent s.settings.active n) n).trans hl)
  have hu : noticeUrgent t.settings.active n = noticeUrgent s.settings.active n := by rw [h.settings]
  show Longer _ (t.body.enter (noticeUrgent t.settings.active n) n).queue
  rw [hu]
  exact hlong.enter hl

end

theorem Echo.forEach {α : Type} {x : Pos → Bool} {timers : PerRow Timer} {f : α → State → State}
    (hf : ∀ a {s t}, Echo x timers s t → Echo x timers (f a s) (f a t)) : ∀ (l : List α) {s t : State},
    Echo x timers s t → Echo x timers (Machine.forEach l f s) (Machine.forEach l f t)
  | [], _, _, h => h
  | a :: l, _, _, h => Echo.forEach hf l (hf a h)

/-! ### The steps of a result -/

section
variable {x : Pos → Bool} {timers : PerRow Timer} {s t : State} (h : Echo x timers s t)
include h

theorem Echo.onEntry (y : TagId) (f : Entry → Entry) : Echo x timers (Machine.onEntry y f s) (Machine.onEntry y f t) :=
  h.onEntries (fun es => es.map (fun e : Entry => if e.tag = y then f e else e))

theorem Echo.setContest (p : Pos) (y : Option TagId) : Echo x timers (Machine.setContest p y s) (Machine.setContest p y t) :=
  h.onCoil (fun _ _ => rfl) p

theorem Echo.raiseUrgent (p : Pos) : Echo x timers (Machine.raiseUrgent p s) (Machine.raiseUrgent p t) := by
  unfold Machine.raiseUrgent
  rw [h.coilFitted]
  split
  · exact h.onCoil (fun _ _ => by rw [Bool.true_or]) p
  · exact h

theorem Echo.dropContest (p : Pos) : Echo x timers (Machine.dropContest p s) (Machine.dropContest p t) :=
  (h.setContest p none).raiseUrgent p

theorem Echo.makeMissing (y : TagId) (q : Pos) (c : Nat) :
    Echo x timers (Machine.makeMissing y q c s) (Machine.makeMissing y q c t) := by
  unfold Machine.makeMissing
  rw [h.contestedBy]
  exact (Echo.forEach (fun p {_ _} h => h.dropContest p) _ (h.onEntry y _)).notify _

theorem Echo.placeEntry (y : TagId) (p : Pos) : Echo x timers (Machine.placeEntry y p s) (Machine.placeEntry y p t) := by
  unfold Machine.placeEntry
  rw [h.seconds]
  exact h.onEntry y _

theorem Echo.movedTo (y : TagId) (q p : Pos) (c : Nat) : Echo x timers (Machine.movedTo y q p c s) (Machine.movedTo y q p c t) := by
  have hn := ((h.placeEntry y p).setContest p none).notify (childNotice .childSeatMoved p q.num p.num y c)
  unfold Machine.movedTo
  rw [hn.contestedBy]
  split
  · exact hn
  · exact hn.raiseUrgent p

end

theorem Echo.vacate {x : Pos → Bool} {timers : PerRow Timer} (n : Nat) (m : List TagId) (q : Pos) (v : Vacating) {s t : State}
    (h : Echo x timers s t) : Echo x timers (Machine.vacate n m q v s) (Machine.vacate n m q v t) := by
  induction n generalizing m q v s t with
  | zero => exact h
  | succ n ih =>
    have hv := h.vacating m q
    cases he : Machine.vacating m q s with
    | none =>
      rw [vacate_nobody he, vacate_nobody (hv.trans he)]
      exact h
    | some e =>
      have hc := h.contestedBy e.tag
      cases hce : Machine.contestedBy s e.tag with
      | nil =>
        cases hm : v.missing with
        | none =>
          rw [vacate_stays he hce hm, vacate_stays (hv.trans he) (hc.trans hce) hm]
          exact h
        | some c =>
          rw [vacate_misses he hce hm, vacate_misses (hv.trans he) (hc.trans hce) hm]
          exact h.makeMissing e.tag q c
      | cons p ps =>
        rw [vacate_contested he hce, vacate_contested (hv.trans he) (hc.trans hce)]
        exact (ih (e.tag :: m) p _ h).movedTo e.tag q p v.moved

/-! ### The result (R67, R74 to R78) -/

section
variable {x : Pos → Bool} {timers : PerRow Timer} {s t : State} (h : Echo x timers s t)
include h

theorem Echo.clearFaults (p : Pos) : Echo x timers (Machine.clearFaults p s) (Machine.clearFaults p t) :=
  h.onCoil (fun _ _ => rfl) p

theorem Echo.countFault (p : Pos) : Echo x timers (Machine.countFault p s) (Machine.countFault p t) :=
  h.onCoil (fun _ _ => rfl) p

theorem Echo.contestBeforeFound (p : Pos) (y : TagId) :
    Echo x timers (Machine.contestBeforeFound p y s) (Machine.contestBeforeFound p y t) := by
  unfold Machine.contestBeforeFound
  rw [h.contest, h.entryOf]
  cases (s.coil p).contest with
  | none => exact h
  | some z =>
    dsimp only
    split
    · exact h.setContest p none
    · cases Machine.entryOf s y with
      | none => exact h
      | some e =>
        dsimp only
        split
        · exact h.raiseUrgent e.pos
        · exact h

theorem Echo.foundConfirm (p : Pos) (y : TagId) (o : Orientation) :
    Echo x timers (Machine.foundConfirm p y o s) (Machine.foundConfirm p y o t) := (h.placeEntry y p).onEntry y _

theorem Echo.foundPlace (p : Pos) (y : TagId) (o : Orientation) :
    Echo x timers (Machine.foundPlace p y o s) (Machine.foundPlace p y o t) := by
  have hv := h.vacate 16 [] p ⟨causeAbsenceConfirmed, some causeDisplaced⟩
  unfold Machine.foundPlace vacates
  dsimp only
  rw [hv.entryOf, h.seconds]
  cases Machine.entryOf (Machine.vacate 16 [] p ⟨causeAbsenceConfirmed, some causeDisplaced⟩ s) y with
  | none =>
    exact (hv.onEntries (fun es => (if 16 ≤ es.length then evictMissing es else es)
      ++ [⟨y, o, .present, p, s.monitor.seconds, s.monitor.seconds⟩])).notify _
  | some e => exact (hv.foundConfirm p y o).notify _

theorem Echo.foundMove (p q : Pos) (y : TagId) (o : Orientation) (c : Nat) :
    Echo x timers (Machine.foundMove p q y o c s) (Machine.foundMove p q y o c t) := by
  have hc := (h.vacate 16 [y] p ⟨causeAbsenceConfirmed, some causeDisplaced⟩).foundConfirm p y o
  unfold Machine.foundMove
  dsimp only
  rw [hc.contestedBy]
  exact (Echo.forEach (fun r {_ _} h => h.setContest r none) _ hc).notify _

theorem Echo.takeFound (p : Pos) (y : TagId) (o : Orientation) :
    Echo x timers (Machine.takeFound p y o s) (Machine.takeFound p y o t) := by
  unfold Machine.takeFound
  rw [h.entryOf]
  cases Machine.entryOf s y with
  | none => exact h.foundPlace p y o
  | some e =>
    dsimp only
    rw [h.rows]
    split
    · exact h.foundPlace p y o
    · split
      · exact h.foundConfirm p y o
      · split
        · exact h.foundMove p e.pos y o _
        · split
          · exact h.foundMove p e.pos y o _
          · exact (h.setContest p (some y)).raiseUrgent e.pos

theorem Echo.takeResult (p : Pos) (res : TagResult) :
    Echo x timers (Machine.takeResult p res s) (Machine.takeResult p res t) := by
  cases res with
  | nothing => exact ((h.clearFaults p).setContest p none).vacate 16 [] p ⟨causeAbsenceConfirmed, some causeTagNotFound⟩
  | found y o => exact ((h.clearFaults p).contestBeforeFound p y).takeFound p y o
  | fault => exact h.countFault p

end

end Sys2Proof.Machine
end

section
/-! PROOFS. The debounce of a sample: what it leaves of each position, and of the row's record (R32, R39, R63, R68, R97). -/

namespace Sys2Proof.Machine

/-! ### One position's debounce -/

/-- A value changed by a rule is the value that the rule gives. -/
theorem PerPos.modify_const {α : Type} (t : PerPos α) (p : Pos) (f : α → α) :
    t.modify p (fun _ => f (t.get p)) = t.modify p f := by
  refine PerPos.ext_get (fun q => ?_)
  rw [PerPos.get_modify, PerPos.get_modify]
  split
  · rename_i hq
    rw [hq]
  · rfl

/-- An anchor's debounced state differs. -/
def anchorsMoved (c d : ClassState) : Bool :=
  decide (d.left.engaged ≠ c.left.engaged) || decide (d.right.engaged ≠ c.right.engaged)

theorem anchorsMoved_iff (c d : ClassState) : ¬ (d.left.engaged = c.left.engaged ∧ d.right.engaged = c.right.engaged)
    ↔ anchorsMoved c d = true := by
  rw [not_and_or]
  simp [anchorsMoved]

/-- The Classifier's state after a seat's part is debounced, from the anchors flag (R68, R97). -/
def ClassState.debounce (c : ClassState) (anchors : Bool) (part : SeatPart) : ClassState :=
  { c.takeBuckle part.buckle with
    left := c.left.take (anchors && part.leftAnchor == .engaged)
    right := c.right.take (anchors && part.rightAnchor == .engaged) }

theorem ClassState.takeBuckle_rest (c : ClassState) (u : BuckleReading) : c.takeBuckle u = { c with
    buckle := (c.takeBuckle u).buckle, prevBuckle := some u, buckleFaults := (c.takeBuckle u).buckleFaults } := by
  cases u <;> rfl

/-- The debounce leaves the band, the sampled mark and what an evaluation settles. -/
theorem ClassState.debounce_rest (c : ClassState) (a : Bool) (part : SeatPart) :
    (c.debounce a part).band = c.band ∧ (c.debounce a part).previous = c.previous
      ∧ (c.debounce a part).dwell = c.dwell ∧ (c.debounce a part).settled = c.settled := by
  unfold ClassState.debounce
  rw [c.takeBuckle_rest part.buckle]
  exact ⟨rfl, rfl, rfl, rfl⟩

theorem takeBuckle_cls (p : Pos) (u : BuckleReading) (s : State) (q : Pos) :
    (takeBuckle p u s).cls.get q = if q = p then (s.cls.get q).takeBuckle u else s.cls.get q := by
  unfold takeBuckle
  rw [(afterBuckle_changes s p _).cls, State.onCls_cls, PerPos.get_modify]

theorem takeBuckle_quiet (p : Pos) (u : BuckleReading) (s : State) : Quiet s (takeBuckle p u s) :=
  (changes_onCls s p _).quiet.andThen (afterBuckle_quiet s p _)

/-- The Classifier's state after two anchor readings. -/
def ClassState.takeAnchors (c : ClassState) (l r : Bool) : ClassState :=
  { c with left := c.left.take l, right := c.right.take r }

/-- The state after two anchor readings, before the Reminder Engine takes the anchored state. -/
def anchorsTaken (p : Pos) (l r : AnchorReading) (s : State) : State :=
  let s1 := s.onCls p (fun c => c.takeAnchors (anchorReading s p l) (anchorReading s p r))
  if anchorsMoved (s.cls.get p) (s1.cls.get p) then raiseUrgent p s1 else s1

theorem takeAnchors_eq (p : Pos) (l r : AnchorReading) (s : State) :
    takeAnchors p l r s = afterSeatChange false s p (anchorsTaken p l r s) := by
  have hcls : s.onCls p (fun _ => (s.cls.get p).takeAnchors (anchorReading s p l) (anchorReading s p r))
      = s.onCls p (fun c => c.takeAnchors (anchorReading s p l) (anchorReading s p r)) :=
    congrArg (fun t => { s with cls := t })
      (s.cls.modify_const p (fun c => c.takeAnchors (anchorReading s p l) (anchorReading s p r)))
  unfold takeAnchors anchorsTaken
  dsimp only
  rw [← hcls, State.onCls_cls, PerPos.get_modify_self]
  refine congrArg (afterSeatChange false s p) ?_
  refine Eq.trans ?_ (if_congr (anchorsMoved_iff _ _) rfl rfl)
  exact (ite_not _ _ _).symm

theorem anchorsTaken_cls (p : Pos) (l r : AnchorReading) (s : State) (q : Pos) : (anchorsTaken p l r s).cls.get q
    = if q = p then (s.cls.get q).takeAnchors (anchorReading s q l) (anchorReading s q r) else s.cls.get q := by
  have h : (anchorsTaken p l r s).cls
      = s.cls.modify p (fun c => c.takeAnchors (anchorReading s p l) (anchorReading s p r)) := by
    unfold anchorsTaken
    dsimp only
    split
    · exact (raiseUrgent_changes p _).cls
    · rfl
  rw [h, PerPos.get_modify]
  split
  · rename_i hq
    rw [hq]
  · rfl

theorem anchorsTaken_coil (p : Pos) (l r : AnchorReading) (s : State) (q : Pos) : (anchorsTaken p l r s).coil q
    = if q = p then { s.coil q with urgent := (s.coil q).urgent || (coilFitted s q
        && anchorsMoved (s.cls.get q) ((s.cls.get q).takeAnchors (anchorReading s q l) (anchorReading s q r))) }
      else s.coil q := by
  unfold anchorsTaken
  dsimp only
  rw [State.onCls_cls, PerPos.get_modify_self]
  split
  · rename_i hm
    rw [raiseUrgent_coil]
    split
    · rename_i hq
      rw [hq, hm, Bool.and_true]
      rfl
    · rfl
  · rename_i hm
    split
    · rename_i hq
      rw [hq, eq_false_of_ne_true hm, Bool.and_false, Bool.or_false]
      rfl
    · rfl

theorem anchorsTaken_entries (p : Pos) (l r : AnchorReading) (s : State) :
    (anchorsTaken p l r s).child.entries = s.child.entries
      ∧ (anchorsTaken p l r s).child.tagTimers = s.child.tagTimers := by
  unfold anchorsTaken
  dsimp only
  split
  · exact raiseUrgent_entries p _
  · exact ⟨rfl, rfl⟩

theorem takeAnchors_quiet (p : Pos) (l r : AnchorReading) (s : State) : Quiet s (takeAnchors p l r s) := by
  rw [takeAnchors_eq]
  refine Quiet.andThen ?_ (afterSeatChange_quiet false s p _)
  exact quiet_ite ((changes_onCls s p _).quiet.andThen (raiseUrgent_changes p _).quiet) (changes_onCls s p _).quiet

/-! ### A seat's part -/

theorem debounceSeat_quiet (r : Row) (b : List Byte) (k : Seat) (s : State) : Quiet s (debounceSeat r b k s) :=
  quiet_ite (((changes_onRow s r _).quiet.andThen (takeBuckle_quiet _ _ _)).andThen (takeAnchors_quiet _ _ _ _))
    (changes_onRow s r _).quiet

/-- The debounce leaves the load states. -/
theorem debounceSeat_leavesLoad (r : Row) (b : List Byte) (k : Seat) (s : State) :
    ChangesOnly [.monitor, .line, .child, .cls, .rem, .body] s (debounceSeat r b k s) :=
  changesOnly_ite (((changes_onRow s r _).widen.andThen (takeBuckle_changes _ _ _)).andThen
    (takeAnchors_changes _ _ _ _)) (changes_onRow s r _).widen

theorem debounceSeat_steady (r : Row) (b : List Byte) (k : Seat) (s : State) : Steady s (debounceSeat r b k s) :=
  (debounceSeat_leavesLoad r b k s).steady (debounceSeat_quiet r b k s)

theorem debounceSeat_row (r : Row) (b : List Byte) (k : Seat) (s : State) :
    RowMoved r (fun x => { x with latch := x.latch.modify k (fun _ => some (parseSeat b k)) }) s (debounceSeat r b k s) := by
  refine (rowMoved_onRow s r _).andLeave ?_
  unfold debounceSeat
  dsimp only
  split
  · rw [(takeAnchors_changes _ _ _ _).line, (takeBuckle_changes _ _ _).line]
  · rfl

/-- What the debounce of a part moves at a position. -/
structure SeatState where
  coil : Coil
  cls  : ClassState

/-- The coil and the Classifier's state that a position holds. -/
def seatState (s : State) (q : Pos) : SeatState := ⟨s.coil q, s.cls.get q⟩

/-- The coil and the Classifier's state of a position whose part is debounced: a change of an anchor raises an urgent
request. -/
def debouncedSeat (s : State) (b : List Byte) (q : Pos) (u : SeatState) : SeatState :=
  let d := u.cls.debounce (anchorsFitted s q) (parseSeat b q.seat)
  if posFitted s q then ⟨{ u.coil with urgent := u.coil.urgent || (coilFitted s q && anchorsMoved u.cls d) }, d⟩ else u

/-- The debounce of a fitted position, in two steps. -/
theorem debounceSeat_fitted {p : Pos} {s : State} (b : List Byte) (h : posFitted s p = true) :
    debounceSeat p.row b p.seat s = takeAnchors p (parseSeat b p.seat).leftAnchor (parseSeat b p.seat).rightAnchor
      (takeBuckle p (parseSeat b p.seat).buckle
        (s.onRow p.row (fun x => { x with latch := x.latch.modify p.seat (fun _ => some (parseSeat b p.seat)) }))) :=
  if_pos h

theorem debounceSeat_get (b : List Byte) (p : Pos) (s : State) (q : Pos) :
    seatState (debounceSeat p.row b p.seat s) q
      = if q = p then debouncedSeat s b q (seatState s q) else seatState s q := by
  cases hf : posFitted s p with
  | false =>
    have e : debounceSeat p.row b p.seat s
        = s.onRow p.row (fun x => { x with latch := x.latch.modify p.seat (fun _ => some (parseSeat b p.seat)) }) :=
      if_neg (by rw [hf]; exact Bool.false_ne_true)
    rw [e]
    split
    · rename_i hq
      subst hq
      unfold debouncedSeat
      rw [hf]
      rfl
    · rfl
  | true =>
    generalize ht : s.onRow p.row
      (fun x => { x with latch := x.latch.modify p.seat (fun _ => some (parseSeat b p.seat)) }) = t
    have hrow : ChangesOnly [.line] s t := ht ▸ changes_onRow s _ _
    have hst : Steady s (takeBuckle p (parseSeat b p.seat).buckle t) :=
      (hrow.widen.andThen (takeBuckle_changes p _ t) (bs := [.monitor, .line, .cls, .rem, .body])).steady
        (hrow.quiet.andThen (takeBuckle_quiet p _ t))
    have hchild : (takeBuckle p (parseSeat b p.seat).buckle t).child = s.child :=
      (takeBuckle_changes p _ t).child.trans hrow.child
    have hcls := takeBuckle_cls p (parseSeat b p.seat).buckle t q
    rw [hrow.cls] at hcls
    rw [debounceSeat_fitted b hf, ht, takeAnchors_eq]
    have hlast := afterSeatChange_changes false (takeBuckle p (parseSeat b p.seat).buckle t) p
      (anchorsTaken p (parseSeat b p.seat).leftAnchor (parseSeat b p.seat).rightAnchor
        (takeBuckle p (parseSeat b p.seat).buckle t))
    unfold seatState State.coil
    rw [hlast.child, hlast.cls]
    have hcoil := anchorsTaken_coil p (parseSeat b p.seat).leftAnchor (parseSeat b p.seat).rightAnchor
      (takeBuckle p (parseSeat b p.seat).buckle t) q
    unfold State.coil at hcoil
    rw [hcoil, anchorsTaken_cls, hchild, hst.coilFitted]
    unfold anchorReading
    rw [hst.anchorsFitted]
    by_cases hq : q = p
    · subst hq
      rw [if_pos rfl] at hcls
      rw [if_pos rfl, if_pos rfl, if_pos rfl, hcls]
      unfold debouncedSeat
      rw [hf]
      dsimp only
      rw [if_pos rfl]
      have hrest := (s.cls.get q).takeBuckle_rest (parseSeat b q.seat).buckle
      unfold ClassState.debounce ClassState.takeAnchors anchorsMoved
      rw [hrest]
    · rw [if_neg hq] at hcls
      rw [if_neg hq, if_neg hq, if_neg hq, hcls]

theorem debounceSeat_entries (r : Row) (b : List Byte) (k : Seat) (s : State) :
    (debounceSeat r b k s).child.entries = s.child.entries
      ∧ (debounceSeat r b k s).child.tagTimers = s.child.tagTimers := by
  cases hf : posFitted s ⟨r, k⟩ with
  | false =>
    have e : debounceSeat r b k s
        = s.onRow r (fun x => { x with latch := x.latch.modify k (fun _ => some (parseSeat b k)) }) :=
      if_neg (by rw [hf]; exact Bool.false_ne_true)
    rw [e]
    exact ⟨rfl, rfl⟩
  | true =>
    have e := debounceSeat_fitted (p := ⟨r, k⟩) b hf
    rw [e, takeAnchors_eq, (afterSeatChange_changes _ _ _ _).child]
    obtain ⟨h1, h2⟩ := anchorsTaken_entries ⟨r, k⟩ (parseSeat b k).leftAnchor (parseSeat b k).rightAnchor
      (takeBuckle ⟨r, k⟩ (parseSeat b k).buckle
        (s.onRow r (fun x => { x with latch := x.latch.modify k (fun _ => some (parseSeat b k)) })))
    rw [(takeBuckle_changes _ _ _).child] at h1 h2
    exact ⟨h1, h2⟩

end Sys2Proof.Machine
end

section
/-! PROOFS. A sample after its debounce and its tag status: the row's record, the coils, the list and the queue (R32, R39, R63,
R65, R66). -/

namespace Sys2Proof.Machine

/-! ### The three seats debounced -/

/-- A row's record after a GOOD SAMPLE was debounced (R32, R39). -/
def RowRecord.takeSample (b : List Byte) (x : RowRecord) : RowRecord :=
  { x with score := x.score - 1, latch := ⟨some (parseSeat b .s1), some (parseSeat b .s2), some (parseSeat b .s3)⟩ }

theorem RowRecord.takeSample_latch (b : List Byte) (x : RowRecord) (k : Seat) :
    (x.takeSample b).latch.get k = some (parseSeat b k) := by
  cases k <;> rfl

/-- The exchange of a GOOD SAMPLE is ended, the score taken down and the three seats debounced. -/
def sampleDebounced (r : Row) (b : List Byte) (s : State) : State :=
  forEach allSeats (debounceSeat r b) ((endExchange s).onRow r (fun x => { x with score := x.score - 1 }))

section
variable (r : Row) (b : List Byte) (s : State)

theorem scored_changes : ChangesOnly [.line] s ((endExchange s).onRow r (fun x => { x with score := x.score - 1 })) :=
  (endExchange_changes s).andThen (changes_onRow _ r _)

theorem sampleDebounced_changes : ChangesOnly [.monitor, .line, .child, .cls, .rem, .body] s (sampleDebounced r b s) :=
  (scored_changes r s).widen.andThen (changesOnly_forEach (debounceSeat_leavesLoad r b) _ _)

theorem sampleDebounced_quiet : Quiet s (sampleDebounced r b s) :=
  (scored_changes r s).quiet.andThen (quiet_forEach (debounceSeat_quiet r b) _ _)

theorem sampleDebounced_steady : Steady s (sampleDebounced r b s) :=
  (sampleDebounced_changes r b s).steady (sampleDebounced_quiet r b s)

theorem sampleDebounced_row : RowMoved r (RowRecord.takeSample b) (endExchange s) (sampleDebounced r b s) :=
  (((rowMoved_onRow _ r _).andThen (debounceSeat_row r b .s1 _)).andThen ((debounceSeat_row r b .s2 _).andThen
    (debounceSeat_row r b .s3 _))).congr rfl

theorem sampleDebounced_seat (q : Pos) : seatState (sampleDebounced r b s) q
    = if q.row = r then debouncedSeat s b q (seatState s q) else seatState s q := by
  have hstart : Steady s ((endExchange s).onRow r (fun x => { x with score := x.score - 1 })) :=
    (scored_changes r s).steady (scored_changes r s).quiet
  have hsame : ∀ t, Steady s t → debouncedSeat t b = debouncedSeat s b := fun t ht => by
    funext q u
    unfold debouncedSeat
    rw [ht.anchorsFitted, ht.posFitted, ht.coilFitted]
  have hall := forEach_get seatState (f := fun p => debounceSeat p.row b p.seat)
    (upd := debouncedSeat s b) (K := Steady s) (fun p _ ht => ht.trans (debounceSeat_steady p.row b p.seat _))
    (fun p t q ht => (debounceSeat_get b p t q).trans (by rw [hsame t ht])) (rowPositions r) _ (rowPositions_nodup r) hstart q
  simp only [mem_rowPositions] at hall
  exact hall

theorem sampleDebounced_entries : (sampleDebounced r b s).child.entries = s.child.entries
    ∧ (sampleDebounced r b s).child.tagTimers = s.child.tagTimers :=
  forEach_entries (debounceSeat_entries r b) allSeats _

theorem sampleDebounced_grows : Grows 9 s (sampleDebounced r b s) :=
  (scored_changes r s).grows.trans (debounceSeats_grows r b _)

/-- The Classifier's state of a fitted position of the row after the debounce. -/
theorem sampleDebounced_cls {q : Pos} (hq : q.row = r) (hf : posFitted s q = true) : (sampleDebounced r b s).cls.get q
    = (s.cls.get q).debounce (anchorsFitted s q) (parseSeat b q.seat) := by
  have h := congrArg SeatState.cls (sampleDebounced_seat r b s q)
  rw [if_pos hq] at h
  refine h.trans ?_
  unfold debouncedSeat
  rw [hf]
  rfl

/-- Every other position keeps its Classifier's state. -/
theorem sampleDebounced_cls_other {q : Pos} (hq : posFitted s q = false ∨ q.row ≠ r) :
    (sampleDebounced r b s).cls.get q = s.cls.get q := by
  have h := congrArg SeatState.cls (sampleDebounced_seat r b s q)
  split at h
  · rename_i hr
    refine h.trans ?_
    unfold debouncedSeat
    rw [hq.resolve_right (fun hn => hn hr)]
    rfl
  · exact h

/-- A change of an anchor raises an urgent request at a position with a tag coil (R63). -/
def anchorRequest (q : Pos) : Bool :=
  coilFitted s q && anchorsMoved (s.cls.get q) ((sampleDebounced r b s).cls.get q)

theorem anchorsMoved_self (c : ClassState) : anchorsMoved c c = false := by simp [anchorsMoved]

theorem sampleDebounced_coil (q : Pos) : (sampleDebounced r b s).coil q
    = { s.coil q with urgent := (s.coil q).urgent || anchorRequest r b s q } := by
  have h := congrArg SeatState.coil (sampleDebounced_seat r b s q)
  by_cases hq : posFitted s q = true ∧ q.row = r
  · unfold anchorRequest
    rw [sampleDebounced_cls r b s hq.2 hq.1]
    rw [if_pos hq.2] at h
    refine h.trans ?_
    unfold debouncedSeat
    rw [hq.1]
    rfl
  · have hq' : posFitted s q = false ∨ q.row ≠ r := by
      simpa only [Bool.not_eq_true] using Decidable.not_and_iff_or_not.mp hq
    unfold anchorRequest
    rw [sampleDebounced_cls_other r b s hq', anchorsMoved_self, Bool.and_false, Bool.or_false]
    split at h
    · rename_i hr
      refine h.trans ?_
      unfold debouncedSeat
      rw [hq'.resolve_right (fun hn => hn hr)]
      rfl
    · exact h

end

/-! ### The tag status -/

theorem Grows.longer {s t : State} (h : Grows 9 s t) (hu : UrgentKept s.body.queue t.body.queue)
    (hl : s.body.queue.length ≤ 15) : Longer s.body.queue t.body.queue :=
  ⟨h.length (by omega), h.coalesce (by omega), hu⟩

/-- The debounced state echoes the one before it. -/
theorem sampleDebounced_echo (r : Row) (b : List Byte) (s : State) :
    Echo (anchorRequest r b s) s.child.tagTimers s (sampleDebounced r b s) where
  straps := (sampleDebounced_changes r b s).straps
  settings := (sampleDebounced_changes r b s).settings
  seconds := (sampleDebounced_quiet r b s).seconds
  rows := fun q => by
    by_cases hq : q = r
    · rw [hq, (sampleDebounced_row r b s).row]
      rfl
    · rw [(sampleDebounced_row r b s).other hq]
      rfl
  entries := (sampleDebounced_entries r b s).1
  coil := sampleDebounced_coil r b s
  timers := (sampleDebounced_entries r b s).2
  queue := (sampleDebounced_grows r b s).longer (sampleDebounced_quiet r b s).urgent

/-- The end of a read leaves the two states alike. -/
theorem Echo.clearTagRead {x : Pos → Bool} {timers : PerRow Timer} {s t : State} (h : Echo x timers s t) (r : Row) :
    Echo x (timers.modify r (fun _ => none)) s (Machine.clearTagRead r t) where
  straps := h.straps
  settings := h.settings
  seconds := h.seconds
  rows := fun q => by
    rw [← h.rows q]
    have hm := clearTagRead_row r t
    by_cases hq : q = r
    · rw [hq, hm.row]
    · rw [hm.other hq]
  entries := h.entries
  coil := h.coil
  timers := congrArg (fun u : PerRow Timer => u.modify r (fun _ => none)) h.timers
  queue := h.queue

/-- The state after a sample's debounce and its tag status. -/
def sampleTagged (r : Row) (b : List Byte) (s : State) : State :=
  takeTagStatus r (parseTagStatus b) (sampleDebounced r b s)

theorem sampleTagged_changes (r : Row) (b : List Byte) (s : State) :
    ChangesOnly [.line, .child, .body] (sampleDebounced r b s) (sampleTagged r b s) := takeTagStatus_changes r _ _

theorem sampleTagged_steady (r : Row) (b : List Byte) (s : State) : Steady s (sampleTagged r b s) := by
  have h := sampleTagged_changes r b s
  have hm := h.monitor
  exact (sampleDebounced_steady r b s).trans ⟨h.straps, h.settings, by rw [hm], by rw [hm]⟩

section
variable {r : Row} {b : List Byte} {s : State}

/-- A tag status that does not answer the read in flight is disregarded (R65). -/
theorem sampleTagged_disregarded (h : ∀ y k n res, (s.row r).tagRead = some y → parseTagStatus b = .done k n res →
    ¬ (k = y.seat.num ∧ n = y.number)) : sampleTagged r b s = sampleDebounced r b s := by
  have hr : ((sampleDebounced r b s).row r).tagRead = (s.row r).tagRead := by
    rw [(sampleDebounced_row r b s).row]
    rfl
  unfold sampleTagged takeTagStatus
  rw [hr]
  split
  · rename_i y k n res hy hst
    exact if_neg (h y k n res hy hst)
  · rfl

variable {y : TagRead} {res : TagResult} (hy : (s.row r).tagRead = some y)
  (hst : parseTagStatus b = .done y.seat.num y.number res)
include hy hst

/-- A DONE of the read in flight completes it (R65). -/
theorem sampleTagged_done : sampleTagged r b s = completeRead r y res (sampleDebounced r b s) := by
  have hr : ((sampleDebounced r b s).row r).tagRead = some y := by
    rw [(sampleDebounced_row r b s).row]
    exact hy
  unfold sampleTagged takeTagStatus
  rw [hr, hst]
  exact if_pos ⟨rfl, rfl⟩

theorem sampleTagged_done_row : RowMoved r (fun x => { x.takeSample b with tagRead := none }) (endExchange s)
    (sampleTagged r b s) := by
  rw [sampleTagged_done hy hst]
  refine ((sampleDebounced_row r b s).andThen (clearTagRead_row r _)).andLeave ?_
  unfold completeRead
  dsimp only
  split
  · rfl
  · exact (takeResult_changes _ _ _).line

/-- The list, the contests and the marks move as the result moves them in the state before the sample (R67, R72). -/
theorem sampleTagged_done_echo : Echo (anchorRequest r b s) (s.child.tagTimers.modify r (fun _ => none))
    (if y.discard then s else takeResult ⟨r, y.seat⟩ res s) (sampleTagged r b s) := by
  rw [sampleTagged_done hy hst]
  have h := (sampleDebounced_echo r b s).clearTagRead r
  unfold completeRead
  dsimp only
  split
  · exact h
  · exact h.takeResult _ _

end

/-- Of the row's record a tag status moves the read in flight alone. -/
theorem sampleTagged_row (r : Row) (b : List Byte) (s : State) : ∃ v,
    RowMoved r (fun x => { x.takeSample b with tagRead := v }) (endExchange s) (sampleTagged r b s) := by
  by_cases h : ∀ y k n res, (s.row r).tagRead = some y → parseTagStatus b = .done k n res →
      ¬ (k = y.seat.num ∧ n = y.number)
  · rw [sampleTagged_disregarded h]
    exact ⟨(s.row r).tagRead, (sampleDebounced_row r b s).congr rfl⟩
  · simp only [not_forall, not_not] at h
    obtain ⟨y, k, n, res, hy, hst, rfl, rfl⟩ := h
    exact ⟨none, sampleTagged_done_row hy hst⟩

/-! ### The evidence -/

theorem evidence_of_urgent {s t : State} {p : Pos} {v : Bool} (he : t.child.entries = s.child.entries)
    (hc : t.coil p = { s.coil p with urgent := v }) : evidence t p = evidence s p := by
  unfold evidence standing
  rw [he, hc]

theorem sampleDebounced_evidence (r : Row) (b : List Byte) (s : State) (p : Pos) :
    evidence (sampleDebounced r b s) p = evidence s p :=
  evidence_of_urgent (sampleDebounced_entries r b s).1 (sampleDebounced_coil r b s p)

end Sys2Proof.Machine
end

section
/-! PROOFS. A sample's part taken for one position: the load state, the band and the delivery's one evaluation (R39, R47 to
R54, R87, R94, R95). -/

namespace Sys2Proof.Machine

/-! ### What stands at a position -/

/-- Everything at the position, and all that its sample reads, is as it was. -/
structure LeftAside (q : Pos) (s t : State) : Prop where
  steady  : Steady s t
  line    : t.line = s.line
  entries : t.child.entries = s.child.entries
  load    : t.load.get q = s.load.get q
  cls     : t.cls.get q = s.cls.get q
  coil    : t.coil q = s.coil q

theorem LeftAside.refl (q : Pos) (s : State) : LeftAside q s s := ⟨Steady.refl s, rfl, rfl, rfl, rfl, rfl⟩

theorem LeftAside.trans {q : Pos} {s t u : State} (h1 : LeftAside q s t) (h2 : LeftAside q t u) : LeftAside q s u :=
  ⟨h1.steady.trans h2.steady, h2.line.trans h1.line, h2.entries.trans h1.entries, h2.load.trans h1.load,
    h2.cls.trans h1.cls, h2.coil.trans h1.coil⟩

theorem LeftAside.sameView {q : Pos} {s t : State} (h : LeftAside q s t) : SameView s t q := by
  obtain ⟨hstraps, hset, _, _⟩ := h.steady
  refine ⟨hstraps, by rw [hset], by rw [hset], by rw [hset], ?_, by rw [h.cls], by rw [h.load],
    evidence_congr h.entries h.coil⟩
  unfold State.row
  rw [h.line]

theorem aside_forEach {q : Pos} {f : Pos → State → State} (hf : ∀ p s, p ≠ q → LeftAside q s (f p s)) :
    ∀ (l : List Pos) (s : State), q ∉ l → LeftAside q s (forEach l f s)
  | [], s, _ => LeftAside.refl q s
  | p :: l, s, h => by
    obtain ⟨hp, hl⟩ := not_or.mp (fun hm => h (List.mem_cons.mpr hm))
    exact (hf p s (Ne.symm hp)).trans (aside_forEach hf l _ hl)

/-- An operation for each of several positions acts on a position of them once, on all that stood there. -/
theorem forEach_once {q : Pos} {f : Pos → State → State} (hf : ∀ p s, p ≠ q → LeftAside q s (f p s)) (l : List Pos)
    (s : State) (hn : l.Nodup) (hm : q ∈ l) : ∃ u, LeftAside q s u ∧ LeftAside q (f q u) (forEach l f s) := by
  induction l generalizing s with
  | nil => exact absurd hm List.not_mem_nil
  | cons p l ih =>
    obtain ⟨hp, hl⟩ := List.nodup_cons.mp hn
    by_cases hq : q = p
    · subst hq
      exact ⟨s, LeftAside.refl q s, aside_forEach hf l _ hp⟩
    · obtain ⟨u, h1, h2⟩ := ih (f p s) hl ((List.mem_cons.mp hm).resolve_left hq)
      exact ⟨u, (hf p s (Ne.symm hq)).trans h1, h2⟩

/-! ### The band (R63, R87 to R89) -/

/-- The band of a position after its part: it follows an evaluated sample, and stands under three or more faulted cells. -/
def sampleBand (s : State) (p : Pos) (part : SeatPart) : Nat :=
  if 3 ≤ faultedCells part.cells then (s.cls.get p).band
  else nextBand s.settings.active p ((s.load.get p).phase != .live)
    ((s.load.get p).take (loadSettings s p) part).filtered (s.cls.get p).band

/-- The band that an F update gives (R87, R88). -/
def movedBand (first : Bool) (s : State) (p : Pos) : Nat :=
  nextBand s.settings.active p first (s.load.get p).filtered (s.cls.get p).band

theorem updateBand_cls (p : Pos) (first : Bool) (s : State) (q : Pos) : (updateBand p first s).cls.get q
    = if q = p then { s.cls.get q with band := movedBand first s q } else s.cls.get q := by
  have h : (updateBand p first s).cls = s.cls.modify p (fun c => { c with band := movedBand first s p }) := by
    unfold updateBand
    dsimp only
    split
    · rfl
    · exact (raiseUrgent_changes p _).cls
  rw [h, PerPos.get_modify]
  split
  · rename_i hq
    rw [hq]
  · rfl

theorem updateBand_coil (p : Pos) (first : Bool) (s : State) (q : Pos) : (updateBand p first s).coil q
    = if q = p then { s.coil q with urgent := (s.coil q).urgent
        || (coilFitted s q && decide (movedBand first s q ≠ (s.cls.get q).band)) } else s.coil q := by
  unfold updateBand
  dsimp only
  change (if movedBand first s p = _ then _ else _ : State).coil q = _
  split
  · rename_i hb
    split
    · rename_i hq
      rw [hq, hb]
      simp
    · rfl
  · rename_i hb
    rw [raiseUrgent_coil]
    split
    · rename_i hq
      rw [hq]
      simp only [ne_eq, hb, not_false_eq_true, decide_true, Bool.and_true]
      rfl
    · rfl

theorem updateBand_entries (p : Pos) (first : Bool) (s : State) :
    (updateBand p first s).child.entries = s.child.entries
      ∧ (updateBand p first s).child.tagTimers = s.child.tagTimers := by
  unfold updateBand
  dsimp only
  split
  · exact ⟨rfl, rfl⟩
  · exact raiseUrgent_entries p _

/-! ### The part is taken (R39, R51, R54) -/

/-- The load state takes a position's part, and the position is sampled. -/
def loadTaken (b : List Byte) (p : Pos) (s : State) : State :=
  (s.onLoad p (fun l => l.take (loadSettings s p) (parseSeat b p.seat))).onCls p (fun c => { c with sampled := true })

/-- The band then follows an evaluated sample. -/
def partTaken (b : List Byte) (p : Pos) (s : State) : State :=
  if 3 ≤ faultedCells (parseSeat b p.seat).cells then loadTaken b p s
  else updateBand p ((s.load.get p).phase != .live) (loadTaken b p s)

/-- The delivery's one evaluation of a position follows; it is an F update where the sample was evaluated. -/
theorem evaluateSeat_eq (b : List Byte) (p : Pos) (s : State) : evaluateSeat b p s
    = evaluate (decide (faultedCells (parseSeat b p.seat).cells < 3)) p (partTaken b p s) := by
  unfold evaluateSeat partTaken loadReport
  dsimp only
  by_cases h : 3 ≤ faultedCells (parseSeat b p.seat).cells
  · rw [if_pos h, if_pos h, decide_eq_false (Nat.not_lt.mpr h)]
    rfl
  · rw [if_neg h, if_neg h, decide_eq_true (Nat.lt_of_not_le h)]
    rfl

theorem loadTaken_changes (b : List Byte) (p : Pos) (s : State) : ChangesOnly [.load, .cls] s (loadTaken b p s) :=
  (changes_onLoad s p _).widen.andThen (changes_onCls _ p _)

theorem loadTaken_cls (b : List Byte) (p : Pos) (s : State) (q : Pos) : (loadTaken b p s).cls.get q
    = if q = p then { s.cls.get q with sampled := true } else s.cls.get q := by
  unfold loadTaken
  rw [State.onCls_cls, State.onLoad_cls, PerPos.get_modify]

theorem loadTaken_movedBand (b : List Byte) (p : Pos) (s : State) (first : Bool) : movedBand first (loadTaken b p s) p
    = nextBand s.settings.active p first ((s.load.get p).take (loadSettings s p) (parseSeat b p.seat)).filtered
        (s.cls.get p).band := by
  unfold movedBand
  rw [loadTaken_cls, if_pos rfl]
  unfold loadTaken
  rw [State.onCls_load, State.onLoad_load, PerPos.get_modify_self]
  rfl

theorem partTaken_changes (b : List Byte) (p : Pos) (s : State) : ChangesOnly [.load, .child, .cls] s (partTaken b p s) :=
  changesOnly_ite (loadTaken_changes b p s).widen ((loadTaken_changes b p s).widen.andThen (updateBand_changes p _ _))

theorem partTaken_load (b : List Byte) (p : Pos) (s : State) (q : Pos) : (partTaken b p s).load.get q
    = if q = p then (s.load.get q).take (loadSettings s q) (parseSeat b q.seat) else s.load.get q := by
  have h : (partTaken b p s).load
      = s.load.modify p (fun l => l.take (loadSettings s p) (parseSeat b p.seat)) := by
    unfold partTaken
    split
    · rfl
    · exact (updateBand_changes p _ _).load
  rw [h, PerPos.get_modify]
  split
  · rename_i hq
    rw [hq]
  · rfl

theorem partTaken_cls (b : List Byte) (p : Pos) (s : State) (q : Pos) : (partTaken b p s).cls.get q
    = if q = p then { s.cls.get q with sampled := true, band := sampleBand s q (parseSeat b q.seat) }
      else s.cls.get q := by
  unfold partTaken sampleBand
  by_cases h : 3 ≤ faultedCells (parseSeat b p.seat).cells
  · rw [if_pos h, loadTaken_cls]
    split
    · rename_i hq
      rw [hq, if_pos h]
    · rfl
  · rw [if_neg h, updateBand_cls]
    split
    · rename_i hq
      rw [hq, if_neg h, loadTaken_movedBand, loadTaken_cls, if_pos rfl]
    · rename_i hq
      rw [loadTaken_cls, if_neg hq]

theorem partTaken_coil (b : List Byte) (p : Pos) (s : State) (q : Pos) : (partTaken b p s).coil q
    = if q = p then { s.coil q with urgent := (s.coil q).urgent
        || (coilFitted s q && decide (sampleBand s q (parseSeat b q.seat) ≠ (s.cls.get q).band)) } else s.coil q := by
  unfold partTaken sampleBand
  by_cases h : 3 ≤ faultedCells (parseSeat b p.seat).cells
  · rw [if_pos h]
    split
    · rename_i hq
      rw [hq, if_pos h]
      simp only [ne_eq, not_true_eq_false, decide_false, Bool.and_false, Bool.or_false]
      rfl
    · rfl
  · rw [if_neg h, updateBand_coil]
    split
    · rename_i hq
      rw [hq, if_neg h, loadTaken_movedBand, loadTaken_cls, if_pos rfl]
      rfl
    · rfl

theorem partTaken_entries (b : List Byte) (p : Pos) (s : State) :
    (partTaken b p s).child.entries = s.child.entries ∧ (partTaken b p s).child.tagTimers = s.child.tagTimers := by
  unfold partTaken
  split
  · exact ⟨rfl, rfl⟩
  · exact updateBand_entries p _ (loadTaken b p s)

/-! ### One position's delivery as a whole -/

theorem evaluateSeat_steady (b : List Byte) (p : Pos) (s : State) : Steady s (evaluateSeat b p s) :=
  (evaluateSeat_changes b p s).steady (evaluateSeat_changes b p s).quiet

theorem evaluateSeat_child (b : List Byte) (p : Pos) (s : State) :
    (evaluateSeat b p s).child = (partTaken b p s).child := by
  rw [evaluateSeat_eq, (evaluate_changes _ p _).child]

theorem evaluateSeat_entries (b : List Byte) (p : Pos) (s : State) :
    (evaluateSeat b p s).child.entries = s.child.entries
      ∧ (evaluateSeat b p s).child.tagTimers = s.child.tagTimers := by
  rw [evaluateSeat_child]
  exact partTaken_entries b p s

/-- A position's part leaves every other position aside. -/
theorem evaluateSeat_aside (b : List Byte) {p q : Pos} (s : State) (h : p ≠ q) : LeftAside q s (evaluateSeat b p s) where
  steady := evaluateSeat_steady b p s
  line := (evaluateSeat_changes b p s).line
  entries := (evaluateSeat_entries b p s).1
  load := by rw [evaluateSeat_eq, (evaluate_changes _ p _).load, partTaken_load, if_neg (Ne.symm h)]
  cls := by rw [evaluateSeat_eq, evaluate_other _ _ (Ne.symm h), partTaken_cls, if_neg (Ne.symm h)]
  coil := by
    unfold State.coil
    rw [evaluateSeat_child]
    exact (partTaken_coil b p s q).trans (if_neg (Ne.symm h))

/-- What a position's part leaves at the position itself; `s` is the state before, `t` the one after. -/
structure SeatTaken (b : List Byte) (p : Pos) (s t : State) : Prop where
  load  : t.load.get p = (s.load.get p).take (loadSettings s p) (parseSeat b p.seat)
  coil  : t.coil p = { s.coil p with urgent := (s.coil p).urgent
            || (coilFitted s p && decide (sampleBand s p (parseSeat b p.seat) ≠ (s.cls.get p).band)) }
  kept  : t.cls.get p = { s.cls.get p with
            sampled := true, band := sampleBand s p (parseSeat b p.seat), previous := (t.cls.get p).previous
            dwell := (t.cls.get p).dwell, settled := (t.cls.get p).settled }
  cls   : awake s = true → t.cls.get p
            = ({ s.cls.get p with sampled := true, band := sampleBand s p (parseSeat b p.seat) } : ClassState).settle
                (tableRecord t p) (decide (faultedCells (parseSeat b p.seat).cells < 3)) (dwellLimit s.settings.active p)

theorem evaluateSeat_taken (b : List Byte) {p : Pos} {s : State} (hf : posFitted s p = true) :
    SeatTaken b p s (evaluateSeat b p s) where
  load := by rw [evaluateSeat_eq, (evaluate_changes _ p _).load, partTaken_load, if_pos rfl]
  coil := by
    unfold State.coil
    rw [evaluateSeat_child]
    exact (partTaken_coil b p s p).trans (if_pos rfl)
  kept := by
    have h := evaluate_cls_rest (decide (faultedCells (parseSeat b p.seat).cells < 3)) p (partTaken b p s) p
    rw [← evaluateSeat_eq, partTaken_cls, if_pos rfl] at h
    exact h
  cls := fun ha => by
    have hc := partTaken_changes b p s
    have ha' : awake (partTaken b p s) = true := hc.quiet.awake.trans ha
    rw [evaluateSeat_eq, evaluate_cls, if_pos ⟨rfl, (posFitted_congr hc.straps p).trans hf, ha'⟩,
      candidate_eq_tableRecord, tableRecord_of_sameView (evaluate_sameView _ p (partTaken b p s) p), partTaken_cls,
      if_pos rfl, hc.settings]

/-- What was taken of a position stands while the position is left aside. -/
theorem SeatTaken.aside {b : List Byte} {p : Pos} {s s' t t' : State} (h : SeatTaken b p s' t) (h1 : LeftAside p s s')
    (h2 : LeftAside p t t') : SeatTaken b p s t' := by
  obtain ⟨hstraps, hset, hdev, hhold⟩ := h1.steady
  have hls : loadSettings s' p = loadSettings s p := by
    unfold loadSettings tensionFitted
    rw [sensorFlag_congr hstraps (by rw [hset]), hset]
  have hband : sampleBand s' p (parseSeat b p.seat) = sampleBand s p (parseSeat b p.seat) := by
    unfold sampleBand
    rw [h1.cls, h1.load, hset, hls]
  refine ⟨?_, ?_, ?_, fun ha => ?_⟩
  · rw [h2.load, h.load, h1.load, hls]
  · rw [h2.coil, h.coil, h1.coil, h1.steady.coilFitted, hband, h1.cls]
  · rw [h2.cls, ← hband, ← h1.cls]
    exact h.kept
  · rw [h2.cls, tableRecord_of_sameView h2.sameView, h.cls (h1.steady.awake.trans ha), hband, h1.cls, hset]

/-! ### The row's positions -/

/-- The delivery to several fitted positions takes each one's part. -/
theorem evaluateSeats_taken {b : List Byte} {p : Pos} {s : State} {l : List Pos} (hn : l.Nodup) (hm : p ∈ l)
    (hf : posFitted s p = true) : SeatTaken b p s (forEach l (evaluateSeat b) s) := by
  obtain ⟨u, h1, h2⟩ := forEach_once (f := evaluateSeat b) (fun q t hq => evaluateSeat_aside b t hq) l s hn hm
  exact (evaluateSeat_taken b ((h1.steady.posFitted p).trans hf)).aside h1 h2

/-- It leaves aside every position that is not of them. -/
theorem evaluateSeats_aside {b : List Byte} {p : Pos} {s : State} {l : List Pos} (hm : p ∉ l) :
    LeftAside p s (forEach l (evaluateSeat b) s) :=
  aside_forEach (fun _ t hq => evaluateSeat_aside b t hq) l s hm

theorem evaluateSeats_changes (b : List Byte) (l : List Pos) (s : State) :
    ChangesOnly [.load, .child, .cls] s (forEach l (evaluateSeat b) s) :=
  changesOnly_forEach (evaluateSeat_changes b) l s

theorem evaluateSeats_entries (b : List Byte) (l : List Pos) (s : State) :
    (forEach l (evaluateSeat b) s).child.entries = s.child.entries
      ∧ (forEach l (evaluateSeat b) s).child.tagTimers = s.child.tagTimers :=
  forEach_entries (evaluateSeat_entries b) l s

end Sys2Proof.Machine
end

section
/-! PROOFS. The arithmetic of a sample, from the words of a position's record (R47 to R53, R68, R87, R88, R95, R97). -/

namespace Sys2Proof.Machine

/-! ### The load (R47 to R53) -/

/-- The corrected load of cell i, from the words of the position's record. -/
def wordLoad (words : List Word16) (u : CellReading × Nat) : Nat :=
  if u.1.faulted then 0 else min 2047 ((u.1.code.toNat - wordAt words u.2) * wordAt words (8 + u.2) / 256)

/-- The corrected loads of a sample, in the cells' order. -/
def wordLoads (words : List Word16) (cells : PerCell CellReading) : List Nat :=
  cells.toList.zipIdx.map (wordLoad words)

theorem correctedCells_toList (s : State) (p : Pos) (cells : PerCell CellReading) :
    (correctedCells (loadSettings s p) cells).toList = wordLoads (posWords s.settings.active p) cells := rfl

theorem zipCells_toList {α β γ δ : Type} (f : α → γ → δ) (a : PerCell α) (b : PerCell β) (c : PerCell γ) :
    (zipCells (fun x _ z => f x z) a b c).toList = (c.toList.zip a.toList).map (fun u => f u.2 u.1) := rfl

/-- The footprint counts the unfaulted cells that reach the cell threshold (R50). -/
theorem footprintOf_eq (s : State) (p : Pos) (cells : PerCell CellReading) : footprintOf (loadSettings s p) cells
    = ((cells.toList.zip (wordLoads (posWords s.settings.active p) cells)).filter
        (fun u => !u.1.faulted && decide (wordAt (posWords s.settings.active p) 18 ≤ u.2))).length := by
  unfold footprintOf
  rw [zipCells_toList (fun (w : Nat) (r : CellReading) => !r.faulted && decide ((loadSettings s p).threshold ≤ w)),
    correctedCells_toList, List.filter_map, List.length_map]
  rfl

/-- The tension's compensation at a fitted position, from the words of its record (R49, R14). -/
def wordCompensation (words : List Word16) (tension : Option (BitVec 10)) : Nat :=
  if (wordAt words 19).testBit 0 then (tension.getD 0).toNat * wordAt words 16 / 64 else 0

theorem tensionCompensation_eq {s : State} {p : Pos} (hf : posFitted s p = true) (v : Option (BitVec 10)) :
    tensionCompensation (loadSettings s p) v = wordCompensation (posWords s.settings.active p) v := by
  have ht : (loadSettings s p).tension = (wordAt (posWords s.settings.active p) 19).testBit 0 := by
    show (posFitted s p && _) = _
    rw [hf, Bool.true_and]
  unfold tensionCompensation wordCompensation
  rw [ht]
  rfl

theorem take_faulted {l : LoadState} {c : LoadSettings} {part : SeatPart} (h : 3 ≤ faultedCells part.cells) :
    l.take c part = l.takeFaulted (faultedCells part.cells) := if_pos h

theorem take_good {l : LoadState} {c : LoadSettings} {part : SeatPart} (h : faultedCells part.cells < 3) :
    l.take c part = l.takeGood c part := if_neg (Nat.not_le.mpr h)

/-- A sample restarts the age and clears STALE_SAMPLES, whatever its faulted cells (R51, R55, R56). -/
theorem take_restarts (l : LoadState) (c : LoadSettings) (part : SeatPart) :
    (l.take c part).age = 0 ∧ (l.take c part).stale = false
      ∧ (l.take c part).faultCount = faultedCells part.cells := by
  obtain h | h := Nat.lt_or_ge (faultedCells part.cells) 3
  · rw [take_good h]
    exact ⟨rfl, rfl, rfl⟩
  · rw [take_faulted h]
    exact ⟨rfl, rfl, rfl⟩

/-- An evaluated sample, in the words of the position's record (R47 to R53). -/
theorem takeGood_words {s : State} {p : Pos} (hf : posFitted s p = true) (l : LoadState) (part : SeatPart) :
    let words := posWords s.settings.active p
    let w := wordLoads words part.cells
    let e := w.sum - wordCompensation words part.tension
    let t := l.takeGood (loadSettings s p) part
    t.cellFaults = false ∧ t.cells.toList = w ∧ t.total = w.sum ∧ t.compensation = wordCompensation words part.tension
      ∧ t.effective = e ∧ t.phase = .live
      ∧ t.filtered = (if l.phase = .live then filterUpdate (wordAt words 17) l.filtered e else e)
      ∧ t.footprint = ((part.cells.toList.zip w).filter
          (fun u => !u.1.faulted && decide (wordAt words 18 ≤ u.2))).length := by
  have hc := tensionCompensation_eq hf part.tension
  unfold LoadState.takeGood
  dsimp only
  rw [hc, footprintOf_eq]
  exact ⟨rfl, rfl, rfl, rfl, rfl, rfl, rfl, rfl⟩

/-! ### The band (R86 to R88) -/

theorem nextBand_eq (g : Groups) (p : Pos) (phase : LoadPhase) (f band : Nat) : nextBand g p (phase != .live) f band
    = if positionThresholdsValid g p = false then band
      else if phase = .live then moveBand (bandSet g p) f band else firstBand (bandSet g p) f := by
  unfold nextBand
  cases positionThresholdsValid g p <;> cases phase <;> rfl

theorem sampleBand_faulted {s : State} {p : Pos} {part : SeatPart} (h : 3 ≤ faultedCells part.cells) :
    sampleBand s p part = (s.cls.get p).band := if_pos h

theorem sampleBand_good {s : State} {p : Pos} {part : SeatPart} (h : faultedCells part.cells < 3) : sampleBand s p part
    = nextBand s.settings.active p ((s.load.get p).phase != .live)
        ((s.load.get p).take (loadSettings s p) part).filtered (s.cls.get p).band := if_neg (Nat.not_le.mpr h)

/-! ### The debounce (R68, R97) -/

/-- The debounced buckle after a reading (R97). -/
def readBuckle (c : ClassState) : BuckleReading → Buckle
  | .fault => if 3 ≤ c.buckleFaults + 1 then .unknown else c.buckle
  | .latched => if c.prevBuckle = some .latched then .latched else c.buckle
  | .isOpen => if c.prevBuckle = some .isOpen then .isOpen else c.buckle

theorem takeBuckle_words (c : ClassState) (u : BuckleReading) : (c.takeBuckle u).buckle = readBuckle c u
    ∧ (c.takeBuckle u).prevBuckle = some u
    ∧ (c.takeBuckle u).buckleFaults = (if u = .fault then min 3 (c.buckleFaults + 1) else 0) := by
  cases u with
  | fault =>
    refine ⟨if_congr ?_ rfl rfl, rfl, rfl⟩
    omega
  | latched => exact ⟨rfl, rfl, rfl⟩
  | isOpen => exact ⟨rfl, rfl, rfl⟩

/-- An anchor takes a reading that repeats the one before (R68). -/
theorem anchor_take_eq (a : Anchor) (v : Bool) :
    a.take v = ⟨if a.previous = some v then v else a.engaged, some v⟩ := by
  unfold Anchor.take
  by_cases hv : v = a.engaged
  · subst hv
    simp
  · simp [hv]

/-- The debounce of a fitted position, in the words of its record. -/
theorem debounce_words {s : State} {p : Pos} (hf : posFitted s p = true) (c : ClassState) (part : SeatPart) :
    let engaged := fun (r : AnchorReading) =>
      decide (r = .engaged) && (wordAt (posWords s.settings.active p) 19).testBit 1
    let d := c.debounce (anchorsFitted s p) part
    d.buckle = readBuckle c part.buckle ∧ d.prevBuckle = some part.buckle
      ∧ d.buckleFaults = (if part.buckle = .fault then min 3 (c.buckleFaults + 1) else 0)
      ∧ d.left = ⟨if c.left.previous = some (engaged part.leftAnchor) then engaged part.leftAnchor else c.left.engaged,
          some (engaged part.leftAnchor)⟩
      ∧ d.right = ⟨if c.right.previous = some (engaged part.rightAnchor) then engaged part.rightAnchor
          else c.right.engaged, some (engaged part.rightAnchor)⟩ := by
  have ha : ∀ r : AnchorReading, (anchorsFitted s p && r == .engaged)
      = (decide (r = .engaged) && (wordAt (posWords s.settings.active p) 19).testBit 1) := fun r => by
    unfold anchorsFitted sensorFlag
    rw [hf, Bool.true_and, Bool.and_comm]
    rfl
  obtain ⟨h1, h2, h3⟩ := takeBuckle_words c part.buckle
  dsimp only
  unfold ClassState.debounce
  rw [ha, ha, anchor_take_eq, anchor_take_eq]
  exact ⟨h1, h2, h3, rfl, rfl⟩

/-! ### Dwell (R95, R96) -/

/-- What settles follows the candidate kept, the dwell and the settled record alone. -/
theorem settle_congr {c d : ClassState} (hp : d.previous = c.previous) (hd : d.dwell = c.dwell)
    (hs : d.settled = c.settled) (cand : ClassRecord) (f : Bool) (n : Nat) :
    (d.settle cand f n).settled = (c.settle cand f n).settled ∧ (d.settle cand f n).dwell = (c.settle cand f n).dwell := by
  unfold ClassState.settle
  dsimp only
  rw [hp, hd, hs]
  by_cases h1 : settlesAtOnce cand = true
  · rw [if_pos h1, if_pos h1]
    exact ⟨rfl, rfl⟩
  · rw [if_neg h1, if_neg h1]
    repeat' split
    all_goals exact ⟨rfl, rfl⟩

end Sys2Proof.Machine
end

section
/-! PROOFS. A GOOD SAMPLE as a whole, to the end of its event (R32, R39, R63, R65, R71, R94, R104). -/

namespace Sys2Proof.Machine

/-! ### The delivery and the end of the event -/

/-- The positions of the row have taken their parts. -/
def sampleTaken (r : Row) (b : List Byte) (s : State) : State :=
  forEach (fittedOf s r) (evaluateSeat b) (sampleTagged r b s)

/-- The positions elsewhere whose evidence the delivery changed (R71). -/
def sampleOthers (r : Row) (b : List Byte) (s : State) : List Pos :=
  (evidenceChanges (sampleDebounced r b s) (sampleTagged r b s)).filter (fun p => p.row != r)

/-- The delivery is done and the event has ended. -/
def sampleEnds (r : Row) (b : List Byte) (s : State) : State :=
  endWithBatch (evaluateEach (sampleOthers r b s) (sampleTaken r b s))

theorem answerCompletes_sample {s : State} {x : Exchange} {b : List Byte} (hx : s.line.exchange = some x)
    (hk : x.kind = .sample) (ho : (s.row x.row).state = .online) (hj : judgeAnswer s x b = .good) :
    answerCompletes b s = sampleEnds x.row b s := by
  rw [answerCompletes_good hx hj]
  unfold exchangeGood
  rw [hk, show ((endExchange s).row x.row).state = .online from ho]
  rfl

section
variable (r : Row) (b : List Byte) (s : State)

theorem mem_sampleOthers {p : Pos} : p ∈ sampleOthers r b s ↔ p.row ≠ r ∧ evidence (sampleTagged r b s) p ≠ evidence s p := by
  unfold sampleOthers evidenceChanges
  rw [List.mem_filter, List.mem_filter, sampleDebounced_evidence]
  simp only [mem_allPos, true_and, decide_eq_true_eq, bne_iff_ne, ne_eq]
  rw [eq_comm, and_comm]

/-- After the parts are taken only evaluations and the end of the event follow. -/
theorem sampleEnds_changes : ChangesOnly [.monitor, .cls, .pub, .rem, .cadence, .body] (sampleTaken r b s)
    (sampleEnds r b s) :=
  (evaluateEach_changes _ _).widen.andThen (endWithBatch_changes _)

theorem sampleEnds_quiet : Quiet (sampleTaken r b s) (sampleEnds r b s) :=
  (evaluateEach_changes _ _).quiet.andThen (endWithBatch_quiet _)

theorem sampleEnds_cls_eq : (sampleEnds r b s).cls = (evaluateEach (sampleOthers r b s) (sampleTaken r b s)).cls :=
  (endWithBatch_changes _).cls

/-- The end of the event leaves aside each position that is not among the others. -/
theorem sampleEnds_aside {p : Pos} (h : p ∉ sampleOthers r b s) : LeftAside p (sampleTaken r b s) (sampleEnds r b s) where
  steady := (sampleEnds_changes r b s).steady (sampleEnds_quiet r b s)
  line := (sampleEnds_changes r b s).line
  entries := by rw [(sampleEnds_changes r b s).child]
  load := by rw [(sampleEnds_changes r b s).load]
  cls := by rw [sampleEnds_cls_eq, evaluateEach_other _ _ h]
  coil := by
    unfold State.coil
    rw [(sampleEnds_changes r b s).child]

theorem not_mem_sampleOthers {p : Pos} (h : p.row = r) : p ∉ sampleOthers r b s :=
  fun hm => ((mem_sampleOthers r b s).mp hm).1 h

/-- A fitted position of the row has taken its part, to the end of the event. -/
theorem sampleEnds_taken {p : Pos} (hp : p.row = r) (hf : posFitted s p = true) :
    SeatTaken b p (sampleTagged r b s) (sampleEnds r b s) :=
  (evaluateSeats_taken (fittedOf_nodup s r) (mem_fittedOf.mpr ⟨hp, hf⟩)
    (((sampleTagged_steady r b s).posFitted p).trans hf)).aside (LeftAside.refl p _)
    (sampleEnds_aside r b s (not_mem_sampleOthers r b s hp))

/-- Every other position keeps its load state and its coil from the tag status on. -/
theorem sampleTaken_aside {p : Pos} (h : posFitted s p = false ∨ p.row ≠ r) :
    LeftAside p (sampleTagged r b s) (sampleTaken r b s) := by
  refine evaluateSeats_aside (fun hm => ?_)
  obtain ⟨hp, hf⟩ := mem_fittedOf.mp hm
  obtain hn | hn := h
  · rw [hf] at hn
    nomatch hn
  · exact hn hp

theorem sampleTagged_cls : (sampleTagged r b s).cls = (sampleDebounced r b s).cls := (sampleTagged_changes r b s).cls

theorem sampleTagged_load : (sampleTagged r b s).load = s.load :=
  (sampleTagged_changes r b s).load.trans (sampleDebounced_changes r b s).load

/-- The load states elsewhere stay. -/
theorem sampleEnds_load_other {p : Pos} (h : posFitted s p = false ∨ p.row ≠ r) :
    (sampleEnds r b s).load.get p = s.load.get p := by
  rw [(sampleEnds_changes r b s).load, (sampleTaken_aside r b s h).load, sampleTagged_load]

/-- Elsewhere the delivery moves what an evaluation moves, and no more. -/
theorem sampleEnds_cls_other {p : Pos} (h : posFitted s p = false ∨ p.row ≠ r) : (sampleEnds r b s).cls.get p
    = { s.cls.get p with
        previous := ((sampleEnds r b s).cls.get p).previous, dwell := ((sampleEnds r b s).cls.get p).dwell
        settled := ((sampleEnds r b s).cls.get p).settled } := by
  rw [sampleEnds_cls_eq, evaluateEach_cls_rest, (sampleTaken_aside r b s h).cls, sampleTagged_cls,
    sampleDebounced_cls_other r b s h]

/-- The band, against the one before the sample. -/
theorem sampleTagged_band (p : Pos) : ((sampleTagged r b s).cls.get p).band = (s.cls.get p).band := by
  rw [sampleTagged_cls]
  by_cases h : posFitted s p = true ∧ p.row = r
  · rw [sampleDebounced_cls r b s h.2 h.1]
    exact (ClassState.debounce_rest _ _ _).1
  · rw [sampleDebounced_cls_other r b s (by
      simpa only [Bool.not_eq_true] using Decidable.not_and_iff_or_not.mp h)]

/-- From the debounce on the anchors stand. -/
theorem sampleEnds_anchors : AnchorsStand (sampleDebounced r b s) (sampleEnds r b s) := fun p => by
  by_cases h : posFitted s p = true ∧ p.row = r
  · rw [(sampleEnds_taken r b s h.2 h.1).kept, sampleTagged_cls]
    exact ⟨rfl, rfl⟩
  · have hp : posFitted s p = false ∨ p.row ≠ r := by
      simpa only [Bool.not_eq_true] using Decidable.not_and_iff_or_not.mp h
    rw [sampleEnds_cls_other r b s hp, sampleDebounced_cls_other r b s hp]
    exact ⟨rfl, rfl⟩

/-- A band change raises an urgent request at a position with a tag coil (R63). -/
theorem sampleEnds_coil (p : Pos) : (sampleEnds r b s).coil p = { (sampleTagged r b s).coil p with
    urgent := ((sampleTagged r b s).coil p).urgent
      || (coilFitted s p && decide (((sampleEnds r b s).cls.get p).band ≠ (s.cls.get p).band)) } := by
  by_cases h : posFitted s p = true ∧ p.row = r
  · have ht := sampleEnds_taken r b s h.2 h.1
    rw [ht.coil, ht.kept, (sampleTagged_steady r b s).coilFitted, sampleTagged_band]
  · have hp : posFitted s p = false ∨ p.row ≠ r := by
      simpa only [Bool.not_eq_true] using Decidable.not_and_iff_or_not.mp h
    rw [sampleEnds_cls_other r b s hp]
    have hchild : (sampleEnds r b s).coil p = (sampleTaken r b s).coil p :=
      congrArg (fun c : ChildUnit => c.coils.get p) (sampleEnds_changes r b s).child
    rw [hchild, (sampleTaken_aside r b s hp).coil]
    simp

theorem sampleEnds_entries : (sampleEnds r b s).child.entries = (sampleTagged r b s).child.entries
    ∧ (sampleEnds r b s).child.tagTimers = (sampleTagged r b s).child.tagTimers := by
  rw [(sampleEnds_changes r b s).child]
  exact evaluateSeats_entries b _ _

theorem sampleEnds_evidence (p : Pos) : evidence (sampleEnds r b s) p = evidence (sampleTagged r b s) p :=
  evidence_of_urgent (sampleEnds_entries r b s).1 (sampleEnds_coil r b s p)

theorem sampleEnds_urgentKept : UrgentKept (sampleTagged r b s).body.queue (sampleEnds r b s).body.queue :=
  (evaluateSeats_changes b _ (sampleTagged r b s)).quiet.urgent.trans (sampleEnds_quiet r b s).urgent

theorem sampleEnds_line : (sampleEnds r b s).line = (sampleTagged r b s).line :=
  (sampleEnds_changes r b s).line.trans (evaluateSeats_changes b _ _).line

theorem sampleEnds_pub_locked (hl : s.pub.locked = false) (p : Pos) :
    (sampleEnds r b s).pub.table.get p = ((sampleEnds r b s).cls.get p).settled := by
  have hpub : (evaluateEach (sampleOthers r b s) (sampleTaken r b s)).pub = s.pub :=
    ((evaluateEach_changes _ _).pub.trans (evaluateSeats_changes b _ _).pub).trans
      ((sampleTagged_changes r b s).pub.trans (sampleDebounced_changes r b s).pub)
  rw [sampleEnds_cls_eq]
  exact endWithBatch_table (by rw [hpub]; exact hl) p

end

/-! ### The row -/

/-- A move of the row's record from the end of the exchange to the tag status stands at the end of the event. -/
theorem sampleEnds_moved {r : Row} {b : List Byte} {s : State} {f : RowRecord → RowRecord}
    (h : RowMoved r f (endExchange s) (sampleTagged r b s)) : (sampleEnds r b s).line.exchange = none
      ∧ (sampleEnds r b s).row r = f (s.row r) ∧ ∀ q, q ≠ r → (sampleEnds r b s).row q = s.row q := by
  have hm : RowMoved r f (endExchange s) (sampleEnds r b s) := h.andLeave (sampleEnds_line r b s)
  exact ⟨hm.exchange, hm.row, fun q hq => hm.other hq⟩

theorem sampleEnds_row (r : Row) (b : List Byte) (s : State) : (sampleEnds r b s).line.exchange = none
    ∧ (∃ v, (sampleEnds r b s).row r = { (s.row r).takeSample b with tagRead := v })
    ∧ ∀ q, q ≠ r → (sampleEnds r b s).row q = s.row q := by
  obtain ⟨v, h⟩ := sampleTagged_row r b s
  obtain ⟨h1, h2, h3⟩ := sampleEnds_moved h
  exact ⟨h1, ⟨v, h2⟩, h3⟩

/-! ### The list, the coils and the URGENT notices -/

/-- At the end of the sample the list and the marks are those of `u`, beside the urgent requests that the changes of the band
and of the anchors raise; its URGENT notices wait (R63, R65). -/
def TagsAs (s u t : State) : Prop := t.child.entries = u.child.entries
  ∧ (∀ p, t.coil p = { u.coil p with urgent := (u.coil p).urgent || (coilFitted s p &&
      (decide ((t.cls.get p).band ≠ (s.cls.get p).band)
        || decide ((t.cls.get p).left.engaged ≠ (s.cls.get p).left.engaged)
        || decide ((t.cls.get p).right.engaged ≠ (s.cls.get p).right.engaged))) })
  ∧ (u.body.queue.length ≤ 15 → ∀ e ∈ u.body.queue, e.urgent = true → Waits t.body e.notice)

theorem requests_join (u c l r d : Bool) : ((u || (c && (l || r))) || (c && d)) = (u || (c && (d || l || r))) := by
  revert u c l r d
  decide

theorem Echo.tagsAs {r : Row} {b : List Byte} {s u : State} {timers : PerRow Timer}
    (h : Echo (anchorRequest r b s) timers u (sampleTagged r b s)) :
    TagsAs s u (sampleEnds r b s) ∧ (sampleEnds r b s).child.tagTimers = timers := by
  obtain ⟨hent, htim⟩ := sampleEnds_entries r b s
  refine ⟨⟨hent.trans h.entries, fun p => ?_, fun hl e he hu => ?_⟩, htim.trans h.timers⟩
  · obtain ⟨hleft, hright⟩ := sampleEnds_anchors r b s p
    rw [sampleEnds_coil, h.coil]
    unfold anchorRequest anchorsMoved
    rw [← hleft, ← hright]
    dsimp only
    rw [requests_join]
  · exact waits_of_urgent (((h.queue hl).urgent.trans (sampleEnds_urgentKept r b s)) e he hu)

section
variable {r : Row} {b : List Byte} {s : State}

/-- A tag status that is disregarded leaves the read in flight, its timer, the list and the marks (R65). -/
theorem sampleEnds_disregarded (h : ∀ y k n res, (s.row r).tagRead = some y → parseTagStatus b = .done k n res →
    ¬ (k = y.seat.num ∧ n = y.number)) : ((sampleEnds r b s).row r).tagRead = (s.row r).tagRead
      ∧ (sampleEnds r b s).child.tagTimers = s.child.tagTimers ∧ TagsAs s s (sampleEnds r b s) := by
  have e := sampleTagged_disregarded h
  have hecho := sampleDebounced_echo r b s
  have hmoved := sampleDebounced_row r b s
  rw [← e] at hecho hmoved
  obtain ⟨htags, htimers⟩ := hecho.tagsAs
  obtain ⟨_, hrow, _⟩ := sampleEnds_moved hmoved
  exact ⟨by rw [hrow]; rfl, htimers, htags⟩

/-- A DONE of the read in flight ends it, and its result acts unless the read is discarded (R15, R65). -/
theorem sampleEnds_done {y : TagRead} {res : TagResult} (hy : (s.row r).tagRead = some y)
    (hst : parseTagStatus b = .done y.seat.num y.number res) : ((sampleEnds r b s).row r).tagRead = none
      ∧ (sampleEnds r b s).child.tagTimers = s.child.tagTimers.modify r (fun _ => none)
      ∧ TagsAs s (if y.discard then s else takeResult ⟨r, y.seat⟩ res s) (sampleEnds r b s) := by
  obtain ⟨htags, htimers⟩ := (sampleTagged_done_echo hy hst).tagsAs
  obtain ⟨_, hrow, _⟩ := sampleEnds_moved (sampleTagged_done_row hy hst)
  exact ⟨by rw [hrow], htimers, htags⟩

end

/-! ### The row's positions and the positions elsewhere -/

section
variable {r : Row} {b : List Byte} {s : State} {p : Pos}

/-- A fitted position's load state took its part, and its Classifier's state was debounced, banded and sampled. -/
theorem sampleEnds_seat (hp : p.row = r) (hf : posFitted s p = true) :
    (sampleEnds r b s).load.get p = (s.load.get p).take (loadSettings s p) (parseSeat b p.seat)
    ∧ ((sampleEnds r b s).cls.get p).band = sampleBand s p (parseSeat b p.seat)
    ∧ (sampleEnds r b s).cls.get p = { (s.cls.get p).debounce (anchorsFitted s p) (parseSeat b p.seat) with
        sampled := true, band := ((sampleEnds r b s).cls.get p).band
        previous := ((sampleEnds r b s).cls.get p).previous, dwell := ((sampleEnds r b s).cls.get p).dwell
        settled := ((sampleEnds r b s).cls.get p).settled } := by
  have ht := sampleEnds_taken r b s hp hf
  obtain ⟨hstraps, hset, _, _⟩ := sampleTagged_steady r b s
  have hls : loadSettings (sampleTagged r b s) p = loadSettings s p := by
    unfold loadSettings tensionFitted
    rw [sensorFlag_congr hstraps (by rw [hset]), hset]
  have hband : sampleBand (sampleTagged r b s) p (parseSeat b p.seat) = sampleBand s p (parseSeat b p.seat) := by
    unfold sampleBand
    rw [sampleTagged_band, hset, sampleTagged_load, hls]
  refine ⟨?_, ?_, ?_⟩
  · rw [ht.load, hls, sampleTagged_load]
  · rw [ht.kept, ← hband]
  · have hk := ht.kept
    rw [sampleTagged_cls, sampleDebounced_cls r b s hp hf] at hk
    rw [hk]

/-- In RUN and REST its candidate is formed once, by R90's table, and settles by the dwell (R94 to R96). -/
theorem sampleEnds_settles (hp : p.row = r) (hf : posFitted s p = true) (ha : awake s = true) :
    let f := decide (faultedCells (parseSeat b p.seat).cells < 3)
    let c := (s.cls.get p).settle (tableRecord (sampleEnds r b s) p) f (dwellLimit s.settings.active p)
    ((sampleEnds r b s).cls.get p).previous = some (tableRecord (sampleEnds r b s) p)
    ∧ ((sampleEnds r b s).cls.get p).settled = c.settled ∧ ((sampleEnds r b s).cls.get p).dwell = c.dwell := by
  have hst := sampleTagged_steady r b s
  have hcls := (sampleEnds_taken r b s hp hf).cls (hst.awake.trans ha)
  obtain ⟨_, hprev, hdwell, hsettled⟩ :=
    (s.cls.get p).debounce_rest (anchorsFitted s p) (parseSeat b p.seat)
  rw [sampleTagged_cls, sampleDebounced_cls r b s hp hf, hst.2.1] at hcls
  dsimp only
  rw [hcls]
  refine ⟨(settle_formed _ _ _ _).1, settle_congr ?_ ?_ ?_ _ _ _⟩
  · exact hprev
  · exact hdwell
  · exact hsettled

/-- A position elsewhere is evaluated where its evidence changed, and else keeps its Classifier's state (R71, R94). -/
theorem sampleEnds_elsewhere (hp : p.row ≠ r) :
    (evidence s p = evidence (sampleEnds r b s) p → (sampleEnds r b s).cls.get p = s.cls.get p)
    ∧ (evidence s p ≠ evidence (sampleEnds r b s) p → posFitted s p = true → awake s = true →
        ((sampleEnds r b s).cls.get p).previous = some (tableRecord (sampleEnds r b s) p)) := by
  have hst : Steady s (sampleTaken r b s) := (sampleTagged_steady r b s).trans
    ((evaluateSeats_changes b _ _).steady (evaluateSeats_changes b _ _).quiet)
  rw [sampleEnds_evidence]
  refine ⟨fun he => ?_, fun he hf ha => ?_⟩
  · have hm : p ∉ sampleOthers r b s := fun hm => ((mem_sampleOthers r b s).mp hm).2 he.symm
    rw [(sampleEnds_aside r b s hm).cls, (sampleTaken_aside r b s (.inr hp)).cls, sampleTagged_cls,
      sampleDebounced_cls_other r b s (.inr hp)]
  · have hm := (mem_sampleOthers r b s).mpr ⟨hp, Ne.symm he⟩
    have hj := (judgedAt_evaluateEach hm ((hst.posFitted p).trans hf)).leave (endWithBatch_changes _)
      (endWithBatch_quiet _).awake
    have ha' : awake (sampleEnds r b s) = true :=
      (sampleEnds_quiet r b s).awake.trans (hst.awake.trans ha)
    exact (hj ha').1

end

end Sys2Proof.Machine

namespace Sys2Proof.Certificates

open Sys2Proof.Machine

/-- Settles O21: the delivery is followed from the debounce over the tag status to each position's part, and the result of the
tag read acts on the debounced state as on the state before it. -/
theorem sampleIsDelivered : Obligations.SampleIsDelivered := by
  intro s x b hx hk ho hj
  obtain ⟨hexchange, ⟨v, hrow⟩, hothers⟩ := sampleEnds_row x.row b s
  have hexec := answerCompletes_sample hx hk ho hj
  refine ⟨sampleEnds x.row b s, congrArg Host.Outcome.next hexec, hexchange, ?_, ?_, fun k => ?_, hothers,
    fun p hf hp => ?_, fun p hp => sampleEnds_load_other x.row b s hp, ⟨fun y k n res hy hst => ⟨?_, fun hne => ?_⟩, ?_⟩,
    fun p hp => ?_, hexec ▸ answerCompletes_changes b s⟩
  · rw [hrow]
    exact ho
  · rw [hrow]
    rfl
  · rw [hrow]
    exact RowRecord.takeSample_latch b (s.row x.row) k
  · obtain ⟨hload, hband, hcls⟩ := sampleEnds_seat (b := b) hp hf
    obtain ⟨hage, hstale, hcount⟩ := take_restarts (s.load.get p) (loadSettings s p) (parseSeat b p.seat)
    obtain ⟨hbuckle, hprev, hfaults, hleft, hright⟩ := debounce_words hf (s.cls.get p) (parseSeat b p.seat)
    refine ⟨by rw [hcls], by rw [hload, hage], by rw [hload, hstale], by rw [hload, hcount]; rfl, fun h3 => ?_,
      fun h3 => ?_, ?_, ?_, ?_, ?_, ?_, fun ha => ?_⟩
    · rw [hload, take_faulted h3]
      exact ⟨rfl, rfl, rfl, rfl, rfl, hband.trans (sampleBand_faulted h3)⟩
    · rw [hload, take_good h3]
      obtain ⟨h1, h2, h4, h5, h6, h7, h8, h9⟩ := takeGood_words hf (s.load.get p) (parseSeat b p.seat)
      refine ⟨h1, h2, h4, h5, h6, h7, h8, h9, ?_⟩
      rw [hband, sampleBand_good h3, take_good h3]
      exact nextBand_eq _ _ _ _ _
    · rw [hcls]
      exact hbuckle
    · rw [hcls]
      exact hprev
    · rw [hcls]
      exact hfaults
    · rw [hcls]
      exact hleft
    · rw [hcls]
      exact hright
    · obtain ⟨hformed, hsettled, hdwell⟩ := sampleEnds_settles (b := b) hp hf ha
      exact ⟨hformed, hsettled, hdwell, fun hl => sampleEnds_pub_locked x.row b s hl p⟩
  · rintro rfl rfl
    exact sampleEnds_done hy hst
  · refine sampleEnds_disregarded (fun y' k' n' res' hy' hst' => ?_)
    obtain rfl : y = y' := Option.some.inj (hy.symm.trans hy')
    obtain ⟨rfl, rfl, rfl⟩ : k = k' ∧ n = n' ∧ res = res' := by simpa using hst.symm.trans hst'
    exact fun h => hne.elim (fun hk => hk h.1) (fun hn => hn h.2)
  · intro h
    refine sampleEnds_disregarded (fun y k n res hy hst => ?_)
    obtain h | h | h := h
    · rw [h] at hy
      nomatch hy
    · rw [h] at hst
      nomatch hst
    · rw [h] at hst
      nomatch hst
  · have hc := sampleEnds_cls_other x.row b s (.inr hp)
    refine ⟨by rw [hc], by rw [hc], ?_⟩
    exact sampleEnds_elsewhere hp

end Sys2Proof.Certificates
end

section
/-! PROOFS. The filter step moves F toward E and never past it (R52). -/

namespace Sys2Proof.Machine

/-- A gap that is not negative gives a step between 0 and the gap, and a positive gap a positive step. -/
theorem filterStep_of_nonneg (shift : Nat) {gap : Int} (h : 0 ≤ gap) :
    0 ≤ filterStep shift gap ∧ filterStep shift gap ≤ gap ∧ (0 < gap → 0 < filterStep shift gap) := by
  have hlow : 0 ≤ gap.tdiv (2 ^ shift) := Int.tdiv_nonneg h (by positivity)
  have hhigh : gap.tdiv (2 ^ shift) ≤ gap := Int.tdiv_le_self _ h
  unfold filterStep
  dsimp only
  split
  · omega
  · split <;> omega

/-- The step has the sign of the gap. -/
theorem filterStep_neg (shift : Nat) (gap : Int) : filterStep shift (-gap) = -filterStep shift gap := by
  unfold filterStep
  dsimp only
  rw [Int.neg_tdiv]
  by_cases hq : gap.tdiv (2 ^ shift) = 0
  · simp only [hq, neg_zero, ne_eq, not_true_eq_false, if_false, neg_pos, neg_lt_zero]
    obtain hneg | rfl | hpos := lt_trichotomy gap 0
    · rw [if_pos hneg, if_neg (Int.not_lt.mpr hneg.le), if_pos hneg, neg_neg]
    · rfl
    · rw [if_neg (Int.not_lt.mpr hpos.le), if_pos hpos, if_pos hpos]
  · rw [if_pos (neg_ne_zero.mpr hq), if_pos hq]

/-- A gap that is not positive gives a step between the gap and 0, and a negative gap a negative step. -/
theorem filterStep_of_nonpos (shift : Nat) {gap : Int} (h : gap ≤ 0) :
    gap ≤ filterStep shift gap ∧ filterStep shift gap ≤ 0 ∧ (gap < 0 → filterStep shift gap < 0) := by
  obtain ⟨hlow, hhigh, hmoves⟩ := filterStep_of_nonneg shift (gap := -gap) (by omega)
  rw [filterStep_neg] at hlow hhigh hmoves
  omega

/-- Undivided, the step is the whole gap. -/
theorem filterStep_zero_shift (gap : Int) : filterStep 0 gap = gap := by
  unfold filterStep
  dsimp only
  rw [pow_zero, Int.tdiv_one]
  split <;> omega

/-- The update adds the step: no result is negative, so none is cut at 0. -/
theorem filterUpdate_eq (shift f e : Nat) :
    ((filterUpdate shift f e : Nat) : Int) = f + filterStep shift ((e : Int) - f) := by
  refine Int.toNat_of_nonneg ?_
  obtain h | h := Nat.le_total f e
  · have := filterStep_of_nonneg shift (gap := (e : Int) - f) (by omega)
    omega
  · have := filterStep_of_nonpos shift (gap := (e : Int) - f) (by omega)
    omega

/-- From below, F rises, and not past E. -/
theorem filterUpdate_rises (shift : Nat) {f e : Nat} (h : f ≤ e) :
    f ≤ filterUpdate shift f e ∧ filterUpdate shift f e ≤ e ∧ (f < e → f < filterUpdate shift f e) := by
  have hstep := filterStep_of_nonneg shift (gap := (e : Int) - f) (by omega)
  have heq := filterUpdate_eq shift f e
  omega

/-- From above, F falls, and not past E. -/
theorem filterUpdate_falls (shift : Nat) {f e : Nat} (h : e ≤ f) :
    e ≤ filterUpdate shift f e ∧ filterUpdate shift f e ≤ f ∧ (e < f → filterUpdate shift f e < f) := by
  have hstep := filterStep_of_nonpos shift (gap := (e : Int) - f) (by omega)
  have heq := filterUpdate_eq shift f e
  omega

theorem filterUpdate_ne (shift : Nat) {f e : Nat} (h : f ≠ e) : filterUpdate shift f e ≠ f := by
  obtain h | h := Nat.lt_or_gt_of_ne h
  · obtain ⟨_, _, hmoves⟩ := filterUpdate_rises shift h.le
    exact (hmoves h).ne'
  · obtain ⟨_, _, hmoves⟩ := filterUpdate_falls shift (Nat.le_of_lt h)
    exact (hmoves h).ne

theorem filterUpdate_zero_shift (f e : Nat) : filterUpdate 0 f e = e := by
  have heq := filterUpdate_eq 0 f e
  rw [filterStep_zero_shift] at heq
  omega

/-- F stays under a bound of F and E. -/
theorem filterUpdate_le (shift : Nat) {f e bound : Nat} (hf : f ≤ bound) (he : e ≤ bound) :
    filterUpdate shift f e ≤ bound := by
  obtain h | h := Nat.le_total f e
  · obtain ⟨_, hle, _⟩ := filterUpdate_rises shift h
    exact hle.trans he
  · obtain ⟨_, hle, _⟩ := filterUpdate_falls shift h
    exact hle.trans hf

end Sys2Proof.Machine

namespace Sys2Proof.Certificates

open Sys2Proof.Machine

/-- Settles O30: the step lies between 0 and the gap, on the gap's side, so F plus the step lies between F and E. -/
theorem filterStaysBetween : Obligations.FilterStaysBetween := by
  intro shift f e
  refine ⟨?_, fun h => ?_, fun h => ?_, filterUpdate_ne shift, filterUpdate_zero_shift f e, filterUpdate_le shift⟩
  · rw [filterUpdate_eq]
    unfold filterStep
    simp only [sub_pos, sub_neg, Nat.cast_lt]
  · obtain ⟨hlow, hhigh, _⟩ := filterUpdate_rises shift h
    exact ⟨hlow, hhigh⟩
  · obtain ⟨hlow, hhigh, _⟩ := filterUpdate_falls shift h
    exact ⟨hlow, hhigh⟩

end Sys2Proof.Certificates
end

section
/-! PROOFS. A position's age runs out: it becomes stale, is judged and published (R56, R90, R96, R104). -/

namespace Sys2Proof.Machine

/-- A sampled position of an ONLINE row is STALE_SAMPLES by line 8 of R90's table where no line above it holds. -/
theorem candidate_stale {s : State} {p : Pos} (hf : posFitted s p = true) (hrow : (s.row p.row).state = .online)
    (hsampled : (s.cls.get p).sampled = true) (hvar : s.straps.var.toNat < 6)
    (hfault : s.settings.posFault.get p = false) (huncal : s.settings.uncalibrated.get p = false)
    (hstale : (s.load.get p).stale = true) : candidate s p = .indeterminate .staleSamples := by
  unfold candidate
  dsimp only
  rw [if_neg (by simp [hf]), if_neg (by simp [hrow]), if_neg (by simp [variantFault_of_lt hvar]),
    if_neg (by simp [hfault]), if_neg (by simp [huncal]), if_neg (by simp [hrow, hsampled]), if_neg (by simp [hrow]),
    if_pos hstale]

theorem goStale_cls (p : Pos) (s : State) :
    (goStale p s).cls = (evaluate false p (s.onLoad p LoadState.becomeStale)).cls := (endWithBatch_changes _).cls

theorem goStale_cls_other {p q : Pos} (s : State) (h : q ≠ p) : (goStale p s).cls.get q = s.cls.get q := by
  rw [goStale_cls, evaluate_other false _ h]
  rfl

/-- In RUN and REST a position that becomes stale settles at STALE_SAMPLES at once, unless a higher line of R90 holds. -/
theorem goStale_settled {s : State} {p : Pos} (hf : posFitted s p = true) (ha : awake s = true)
    (hrow : (s.row p.row).state = .online) (hsampled : (s.cls.get p).sampled = true) (hvar : s.straps.var.toNat < 6)
    (hfault : s.settings.posFault.get p = false) (huncal : s.settings.uncalibrated.get p = false) :
    ((goStale p s).cls.get p).settled = .indeterminate .staleSamples := by
  have hf' : posFitted (s.onLoad p LoadState.becomeStale) p = true := hf
  have ha' : awake (s.onLoad p LoadState.becomeStale) = true := ha
  have hstale : ((s.onLoad p LoadState.becomeStale).load.get p).stale = true := by
    rw [State.onLoad_load, PerPos.get_modify_self]
    rfl
  rw [goStale_cls, evaluate_cls, if_pos ⟨rfl, hf', ha'⟩,
    candidate_stale hf' hrow hsampled hvar hfault huncal hstale, settle_atOnce _ rfl]

/-- Without the lock the batch of the event publishes what is settled then (R104). -/
theorem goStale_table {s : State} (hl : s.pub.locked = false) (p q : Pos) :
    (goStale p s).pub.table.get q = ((goStale p s).cls.get q).settled := by
  rw [goStale_cls]
  exact endWithBatch_table (by rw [(evaluate_changes false p _).pub]; exact hl) q

/-- The state in which a position's age has just passed its limit. -/
def aged (p : Pos) (s : State) : State := s.onLoad p (agePastLimit s p)

theorem aged_load_self (p : Pos) (s : State) : (aged p s).load.get p = agePastLimit s p (s.load.get p) :=
  PerPos.get_modify_self _ _ _

theorem aged_load_other {p q : Pos} (s : State) (h : q ≠ p) : (aged p s).load.get q = s.load.get q :=
  PerPos.get_modify_ne _ _ h

theorem ageRunsOut_running {s : State} {p : Pos} (hf : posFitted s p = true)
    (hmode : (s.load.get p).ageMode = .running) (hstale : (s.load.get p).stale = false) :
    ageRunsOut p s = goStale p (aged p s) := if_pos ⟨hf, hmode, hstale⟩

end Sys2Proof.Machine

namespace Sys2Proof.Certificates

open Sys2Proof.Machine

/-- Settles O26: the position goes stale in the state in which its age has passed the limit, which only the load state of
that position tells from the state before. -/
theorem positionGoesStale : Obligations.PositionGoesStale := by
  intro s p hf hmode hstale
  have hchanges : ChangesOnly staleBlocks s (goStale p (aged p s)) :=
    (changes_onLoad s p _).widen.andThen (goStale_changes p (aged p s))
  refine ⟨goStale p (aged p s), congrArg Host.Outcome.next (ageRunsOut_running hf hmode hstale), ?_,
    fun q hq => ⟨?_, goStale_cls_other _ hq⟩, fun ha hrow hsampled hvar hfault huncal => ?_, hchanges⟩
  · rw [goStale_load, PerPos.get_modify_self, aged_load_self]
    rfl
  · rw [goStale_load, PerPos.get_modify_ne _ _ hq, aged_load_other s hq]
  · have hsettled : ((goStale p (aged p s)).cls.get p).settled = .indeterminate .staleSamples :=
      goStale_settled hf ha hrow hsampled hvar hfault huncal
    exact ⟨hsettled, fun hl => (goStale_table (s := aged p s) hl p p).trans hsettled⟩

end Sys2Proof.Certificates
end

section
/-! PROOFS. The child seat list keeps its form while an entry vacates its position: at most one entry stands at each position
and each contest is by an entry that stands elsewhere (R69, R72, R73, R76). -/

namespace Sys2Proof.Machine

/-! ### Entries that stand apart, but for those on the move -/

/-- Entries whose tags are not on the move stand at different positions (R69, R73). -/
def StandApart (m : List TagId) (c : ChildUnit) : Prop := ∀ e ∈ c.entries, ∀ f ∈ c.entries, e.tag ∉ m → f.tag ∉ m →
  e.state ≠ .missing → f.state ≠ .missing → e.pos = f.pos → e = f

/-- No entry stands at the position, but for those on the move (R73). -/
def FreeOf (m : List TagId) (p : Pos) (c : ChildUnit) : Prop := ∀ e ∈ c.entries, e.tag ∉ m → standsAt p e = false

theorem StandApart.widen {m : List TagId} {c : ChildUnit} (h : StandApart m c) (x : TagId) : StandApart (x :: m) c :=
  fun e he f hf hem hfm => h e he f hf (fun hm => hem (List.mem_cons_of_mem x hm)) (fun hm => hfm (List.mem_cons_of_mem x hm))

theorem OneStanding.standApart {c : ChildUnit} (h : OneStanding c) : StandApart [] c :=
  fun _ he _ hf _ _ hse hsf hp => h.unique he hf hse hsf hp

theorem StandApart.oneStanding {c : ChildUnit} (h : StandApart [] c) (ht : TagsInv c) : OneStanding c := by
  intro p
  have hn : (c.entries.filter (standsAt p)).Nodup := ht.of_map.filter _
  have hone : ∀ e ∈ c.entries.filter (standsAt p), ∀ f ∈ c.entries.filter (standsAt p), e = f := by
    intro e he f hf
    obtain ⟨he, hse⟩ := List.mem_filter.mp he
    obtain ⟨hf, hsf⟩ := List.mem_filter.mp hf
    obtain ⟨hpe, hse⟩ := standsAt_iff.mp hse
    obtain ⟨hpf, hsf⟩ := standsAt_iff.mp hsf
    exact h e he f hf List.not_mem_nil List.not_mem_nil hse hsf (hpe.trans hpf.symm)
  match hl : c.entries.filter (standsAt p) with
  | [] => exact Nat.zero_le _
  | [e] => exact Nat.le_refl _
  | e :: f :: l =>
    rw [hl] at hn hone
    have hef : e = f := hone e List.mem_cons_self f (List.mem_cons_of_mem e List.mem_cons_self)
    exact absurd (hef ▸ List.mem_cons_self) (List.nodup_cons.mp hn).1

/-! ### An entry is placed -/

/-- Of two lists of entries the second has the entry of one tag placed at a position, and the rest as they were. -/
structure Places (x : TagId) (p : Pos) (f : Entry → Entry) : Prop where
  other  : ∀ e, e.tag ≠ x → f e = e
  tag    : ∀ e, (f e).tag = e.tag
  placed : ∀ e, e.tag = x → (f e).pos = p ∧ (f e).state = .present

section
variable {x : TagId} {p : Pos} {f : Entry → Entry} (hf : Places x p f) {c d : ChildUnit} (hd : d.entries = c.entries.map f)
include hf hd

/-- An entry placed at a position that is free of others stands apart from them (R73). -/
theorem Places.standApart {m : List TagId} (ht : TagsInv c) (h : StandApart (x :: m) c) (hp : FreeOf (x :: m) p c) :
    StandApart m d := by
  intro a' ha' b' hb' ham hbm hsa hsb hpos
  rw [hd] at ha' hb'
  obtain ⟨a, ha, rfl⟩ := List.mem_map.mp ha'
  obtain ⟨b, hb, rfl⟩ := List.mem_map.mp hb'
  rw [hf.tag] at ham hbm
  -- another entry does not stand where the placed one stands
  have apart : ∀ e ∈ c.entries, ∀ g : Entry, e.tag ≠ x → e.tag ∉ m → (f e).state ≠ .missing → g.tag = x →
      (f e).pos ≠ (f g).pos := by
    intro e he g hex hem hs hgx hpos
    rw [hf.other e hex, (hf.placed g hgx).1] at hpos
    rw [hf.other e hex] at hs
    have hno := hp e he (List.not_mem_cons_of_ne_of_not_mem hex hem)
    rw [standsAt_iff.mpr ⟨hpos, hs⟩] at hno
    nomatch hno
  by_cases hax : a.tag = x <;> by_cases hbx : b.tag = x
  · rw [ht.unique ha hb (hax.trans hbx.symm)]
  · exact absurd hpos.symm (apart b hb a hbx hbm hsb hax)
  · exact absurd hpos (apart a ha b hax ham hsa hbx)
  · rw [hf.other a hax] at hsa hpos ⊢
    rw [hf.other b hbx] at hsb hpos ⊢
    exact h a ha b hb (List.not_mem_cons_of_ne_of_not_mem hax ham) (List.not_mem_cons_of_ne_of_not_mem hbx hbm) hsa hsb hpos

/-- The contests still stand where the placed entry's tag contests its new position no more (R72). -/
theorem Places.contestsStand (h : ContestsStand c) (hc : ∀ z y, (d.coils.get z).contest = some y →
    (c.coils.get z).contest = some y ∧ (y = x → z ≠ p)) : ContestsStand d := by
  intro z y hz
  obtain ⟨hzc, hzp⟩ := hc z y hz
  obtain ⟨e, he, rfl, hs, hpos⟩ := h z y hzc
  refine ⟨f e, hd ▸ List.mem_map_of_mem he, hf.tag e, ?_⟩
  by_cases hx : e.tag = x
  · obtain ⟨hpp, hst⟩ := hf.placed e hx
    rw [hpp, hst]
    exact ⟨nofun, fun h => hzp hx h.symm⟩
  · rw [hf.other e hx]
    exact ⟨hs, hpos⟩

end

theorem places_placeTag (x : TagId) (p : Pos) (n : BitVec 32) : Places x p (placeTag x p n) :=
  ⟨fun _ h => if_neg h, placeTag_tag x p n, fun e h => by
    rw [show placeTag x p n e = _ from if_pos h]
    exact ⟨rfl, rfl⟩⟩

/-! ### An entry becomes MISSING -/

/-- The contests stand when a tag's entry becomes MISSING, for those by the tag clear (R72). -/
theorem makeMissing_contestsStand (x : TagId) (q : Pos) (n : Nat) {s : State} (h : ContestsStand s.child) :
    ContestsStand (makeMissing x q n s).child := by
  intro z y hz
  have hc : (s.coil z).contest = some y ∧ y ≠ x := by
    have hz' : ((makeMissing x q n s).coil z).contest = some y := hz
    rw [makeMissing_coil] at hz'
    split at hz'
    · nomatch hz'
    · rename_i hne
      exact ⟨hz', fun hyx => hne (hyx ▸ hz')⟩
  obtain ⟨hzs, hyx⟩ := hc
  obtain ⟨e, he, rfl, hrest⟩ := h z y hzs
  rw [(makeMissing_entries x q n s).1]
  exact ⟨e, List.mem_map.mpr ⟨e, he, if_neg hyx⟩, rfl, hrest⟩

theorem makeMissing_standApart {m : List TagId} (x : TagId) (q : Pos) (n : Nat) {s : State} (h : StandApart m s.child) :
    StandApart m (makeMissing x q n s).child := by
  intro a' ha' b' hb' ham hbm hsa hsb hpos
  rw [(makeMissing_entries x q n s).1] at ha' hb'
  obtain ⟨a, ha, rfl⟩ := List.mem_map.mp ha'
  obtain ⟨b, hb, rfl⟩ := List.mem_map.mp hb'
  have hsame := missTag_stands hsa
  have hsame' := missTag_stands hsb
  rw [hsame] at ham hsa hpos ⊢
  rw [hsame'] at hbm hsb hpos ⊢
  exact h a ha b hb ham hbm hsa hsb hpos

/-! ### The chain of displacements (R73) -/

/-- What the chain keeps of the list while the tags of `m` are on the move. -/
structure ListMoving (m : List TagId) (c : ChildUnit) : Prop where
  tags     : TagsInv c
  apart    : StandApart m c
  contests : ContestsStand c

theorem ListMoving.widen {m : List TagId} {c : ChildUnit} (h : ListMoving m c) (x : TagId) : ListMoving (x :: m) c :=
  ⟨h.tags, h.apart.widen x, h.contests⟩

/-- The positions whose contest is by a tag that is not on the move: what the chain can still go through. -/
def openContests (m : List TagId) (s : State) : List Pos :=
  allPos.filter (fun p => (s.coil p).contest.any (fun x => !m.contains x))

theorem openContests_cons (x : TagId) (m : List TagId) (s : State) :
    openContests (x :: m) s = (openContests m s).filter (fun p => (s.coil p).contest != some x) := by
  unfold openContests
  rw [List.filter_filter]
  refine List.filter_congr (fun p _ => ?_)
  cases (s.coil p).contest with
  | none => rfl
  | some y => by_cases hy : y = x <;> simp [hy]

theorem openContests_lt {x : TagId} {m : List TagId} {p : Pos} {s : State} (hp : (s.coil p).contest = some x) (hx : x ∉ m) :
    (openContests (x :: m) s).length < (openContests m s).length := by
  rw [openContests_cons, List.length_filter_lt_length_iff_exists]
  refine ⟨p, ?_, by simp [hp]⟩
  unfold openContests
  simp [hp, hx]

theorem openContests_length_lt (m : List TagId) (s : State) : (openContests m s).length < 16 :=
  Nat.lt_succ_of_le (List.length_filter_le _ allPos)

/-- Nothing comes to stand at a position that is contested, if at all, by a tag on the move (R73). -/
theorem vacate_reserved_place (n : Nat) (m : List TagId) (q : Pos) (v : Vacating) (s : State) :
    ∀ z, (∀ x, (s.coil z).contest = some x → x ∈ m) → ∀ f ∈ (vacate n m q v s).child.entries, standsAt z f = true →
      f.tag ∉ m → f ∈ s.child.entries := by
  refine vacate_induct (P := fun _ m _ _ s t => ∀ z, (∀ x, (s.coil z).contest = some x → x ∈ m) →
    ∀ f ∈ t.child.entries, standsAt z f = true → f.tag ∉ m → f ∈ s.child.entries) ?_ ?_ ?_ n m q v s
  · exact fun _ _ _ _ _ _ _ _ hf _ _ => hf
  · intro _ _ q _ s e c _ _ z _ f hf hs _
    rw [(makeMissing_entries e.tag q c s).1, List.mem_map] at hf
    obtain ⟨x, hx, rfl⟩ := hf
    rwa [missTag_stands (standsAt_iff.mp hs).2]
  · intro _ m q v s e p ps t hv hc ih z hz f hf hs hfm
    have hzp : z ≠ p := by
      rintro rfl
      obtain ⟨-, -, hem⟩ := vacating_some hv
      exact hem (hz e.tag (contestedBy_head hc))
    rw [movedTo_entries, List.mem_map] at hf
    obtain ⟨x, hx, rfl⟩ := hf
    have hplaces := places_placeTag e.tag p t.monitor.seconds
    by_cases ht : x.tag = e.tag
    · exact absurd ((standsAt_iff.mp hs).1.symm.trans (hplaces.placed x ht).1) hzp
    · rw [hplaces.other x ht] at hs hfm ⊢
      exact ih z (fun y hy => List.mem_cons_of_mem _ (hz y hy)) x hx hs (List.not_mem_cons_of_ne_of_not_mem ht hfm)

/-- The entry standing at q vacates it: the list keeps its form, and, where an uncontested entry becomes MISSING, q is free
afterwards. The open contests bound the chain, and that no tag at rest contests q keeps a displaced entry from q (R73). -/
theorem vacate_listMoving (n : Nat) (m : List TagId) (q : Pos) (v : Vacating) (s : State) (h : ListMoving m s.child)
    (hn : (openContests m s).length < n) (hq : ∀ x, (s.coil q).contest = some x → x ∈ m) :
    ListMoving m (vacate n m q v s).child ∧ (v.missing ≠ none → FreeOf m q (vacate n m q v s).child) := by
  induction n generalizing m q v with
  | zero => exact absurd hn (Nat.not_lt_zero _)
  | succ n ih =>
    cases hv : vacating m q s with
    | none =>
      rw [vacate_nobody hv]
      refine ⟨h, fun _ e he hem => ?_⟩
      have hno := List.find?_eq_none.mp hv e he
      simpa [hem] using hno
    | some e =>
      obtain ⟨hmem, hstands, hem⟩ := vacating_some hv
      obtain ⟨hpos, hst⟩ := standsAt_iff.mp hstands
      cases hc : contestedBy s e.tag with
      | nil =>
        cases hm : v.missing with
        | none =>
          rw [vacate_stays hv hc hm]
          exact ⟨h, fun hx => absurd rfl hx⟩
        | some c =>
          rw [vacate_misses hv hc hm]
          have hent := (makeMissing_entries e.tag q c s).1
          refine ⟨⟨h.tags.ofMap (missTag_tag e.tag) hent, makeMissing_standApart _ _ _ h.apart,
            makeMissing_contestsStand _ _ _ h.contests⟩, fun _ f hf hfm => ?_⟩
          rw [hent] at hf
          obtain ⟨g, hg, rfl⟩ := List.mem_map.mp hf
          refine eq_false_of_ne_true (fun hs => ?_)
          obtain ⟨hgp, hgs⟩ := standsAt_iff.mp hs
          have hsame := missTag_stands hgs
          rw [hsame] at hgp hgs hfm
          obtain rfl := h.apart g hg e hmem hfm hem hgs hst (hgp.trans hpos.symm)
          exact absurd (hsame ▸ show (missTag g.tag g).state = .missing by rw [missTag, if_pos rfl]) hgs
      | cons p ps =>
        rw [vacate_contested hv hc]
        have hp := contestedBy_head hc
        obtain ⟨hu, hfree⟩ := ih (e.tag :: m) p ⟨v.moved, some causeDisplaced⟩ (h.widen e.tag)
          (Nat.lt_of_lt_of_le (openContests_lt hp hem) (Nat.le_of_lt_succ hn))
          (fun x hx => by rw [hp] at hx; exact Option.some.inj hx ▸ List.mem_cons_self)
        have hreserved := vacate_reserved_place n (e.tag :: m) p ⟨v.moved, some causeDisplaced⟩ s q
          (fun x hx => List.mem_cons_of_mem _ (hq x hx))
        generalize vacate n (e.tag :: m) p ⟨v.moved, some causeDisplaced⟩ s = u at hu hfree hreserved
        have hplaces := places_placeTag e.tag p u.monitor.seconds
        have hent := movedTo_entries e.tag q p v.moved u
        refine ⟨⟨hu.tags.ofMap hplaces.tag hent, hplaces.standApart hent hu.tags hu.apart (hfree nofun),
          hplaces.contestsStand hent hu.contests (fun z y hz => ?_)⟩, fun _ f hf hfm => ?_⟩
        · have hz' : ((movedTo e.tag q p v.moved u).coil z).contest = some y := hz
          rw [movedTo_contest] at hz'
          split at hz'
          · nomatch hz'
          · rename_i hzp
            exact ⟨hz', fun _ => hzp⟩
        · rw [hent] at hf
          obtain ⟨g, hg, rfl⟩ := List.mem_map.mp hf
          refine eq_false_of_ne_true (fun hs => ?_)
          by_cases hge : g.tag = e.tag
          · have hpq : p = q := (hplaces.placed g hge).1.symm.trans (standsAt_iff.mp hs).1
            exact hem (hq e.tag (hpq ▸ hp))
          · rw [hplaces.other g hge] at hs hfm
            have hgs := hreserved g hg hs (List.not_mem_cons_of_ne_of_not_mem hge hfm)
            obtain ⟨hgp, hgst⟩ := standsAt_iff.mp hs
            exact hge (congrArg Entry.tag (h.apart g hgs e hmem hfm hem hgst hst (hgp.trans hpos.symm)))

end Sys2Proof.Machine
end

section
/-! PROOFS. The form of the child seat list is kept where contests stand or clear, entries become MISSING and positions are
vacated (R13, R62 to R66, R72, R73, R80). -/

namespace Sys2Proof.Machine

/-! ### The list is kept -/

/-- From `s` to `t` the child seat list keeps its form (R69, R72, R76). -/
def ListKept (s t : State) : Prop := ListInv s.child → ListInv t.child

theorem ListKept.refl (s : State) : ListKept s s := id

theorem ListKept.andThen {s t u : State} (h1 : ListKept s t) (h2 : ListKept t u) : ListKept s u := h2 ∘ h1

theorem listKept_ite {s t u : State} {c : Prop} [Decidable c] (h1 : ListKept s t) (h2 : ListKept s u) :
    ListKept s (if c then t else u) := by
  split
  · exact h1
  · exact h2

theorem listKept_forEach {α : Type} {f : α → State → State} (h : ∀ a s, ListKept s (f a s)) :
    ∀ (l : List α) (s : State), ListKept s (forEach l f s)
  | [], s => ListKept.refl s
  | a :: l, s => (h a s).andThen (listKept_forEach h l (f a s))

/-- A change that leaves the Child Seat Unit. -/
theorem ChangesOnly.listKept {bs : List Block} {s t : State} (h : ChangesOnly bs s t)
    (hc : bs.contains Block.child = false) : ListKept s t := fun hl => (h.child hc).symm ▸ hl

/-- A kept list with an event's end that leaves the Child Seat Unit. -/
theorem ListKept.leave {bs : List Block} {s t u : State} (h1 : ListKept s t) (h2 : ChangesOnly bs t u)
    (hc : bs.contains Block.child = false) : ListKept s u := h1.andThen (h2.listKept hc)

/-! ### The list's form from its parts -/

theorem ListInv.moving {c : ChildUnit} (h : ListInv c) (m : List TagId) : ListMoving m c := by
  obtain ⟨ht, ho, -, hc⟩ := h
  induction m with
  | nil => exact ⟨ht, ho.standApart, hc⟩
  | cons x m ih => exact ih.widen x

theorem ListMoving.listInv {c : ChildUnit} (h : ListMoving [] c) (hl : c.entries.length ≤ 16) : ListInv c :=
  ⟨h.tags, h.apart.oneStanding h.tags, hl, h.contests⟩

/-- Entries changed one by one, with no tag moved and none made to stand, and contests that stand. -/
theorem ListInv.ofMap {c d : ChildUnit} (h : ListInv c) {f : Entry → Entry} (ht : ∀ e, (f e).tag = e.tag)
    (hf : ∀ e, (f e).state ≠ .missing → f e = e) (hd : d.entries = c.entries.map f) (hc : ContestsStand d) : ListInv d := by
  obtain ⟨h1, h2, h3, -⟩ := h
  exact ⟨h1.ofMap ht hd, h2.ofMap hf hd, by rw [hd, List.length_map]; exact h3, hc⟩

/-- The same entries with contests that stand as they were or clear. -/
theorem listKept_of_contests {s t : State} (he : t.child.entries = s.child.entries)
    (hc : ∀ p, (t.coil p).contest = (s.coil p).contest ∨ (t.coil p).contest = none) : ListKept s t := by
  intro h
  refine h.ofMap (f := id) (fun _ => rfl) (fun _ _ => rfl) (by rw [he, List.map_id]) (fun p x hp => ?_)
  have hp' : (t.coil p).contest = some x := hp
  obtain ⟨-, -, -, hs⟩ := h
  obtain e | e := hc p
  · rw [he]
    exact hs p x (e.symm.trans hp')
  · rw [e] at hp'
    nomatch hp'

/-- A coil changed with its contest kept or cleared. -/
theorem listKept_onCoil (s : State) (p : Pos) (f : Coil → Coil)
    (hf : ∀ c, (f c).contest = c.contest ∨ (f c).contest = none) : ListKept s (s.onCoil p f) :=
  listKept_of_contests rfl (fun q => by
    rw [State.coil_onCoil]
    split
    · exact hf _
    · exact .inl rfl)

/-! ### Requests, contests and tag reads -/

theorem raiseUrgent_listKept (p : Pos) (s : State) : ListKept s (raiseUrgent p s) :=
  listKept_ite (listKept_onCoil s p _ (fun _ => .inl rfl)) (ListKept.refl s)

theorem clearContest_listKept (p : Pos) (s : State) : ListKept s (setContest p none s) :=
  listKept_onCoil s p _ (fun _ => .inr rfl)

theorem makeMissing_listKept (x : TagId) (q : Pos) (n : Nat) (s : State) : ListKept s (makeMissing x q n s) := by
  intro h
  refine h.ofMap (missTag_tag x) (fun _ => missTag_stands) (makeMissing_entries x q n s).1 ?_
  obtain ⟨-, -, -, hc⟩ := h
  exact makeMissing_contestsStand x q n hc

theorem clearTagRead_listKept (r : Row) (s : State) : ListKept s (clearTagRead r s) :=
  listKept_of_contests rfl (fun _ => .inl rfl)

theorem abandonRead_listKept (r : Row) (s : State) : ListKept s (abandonRead r s) :=
  listKept_of_contests (abandonRead_entries r s) (fun p => .inl (abandonRead_contest r s p))

theorem startRead_listKept (p : Pos) (s : State) : ListKept s (startRead p s) :=
  (listKept_onCoil s p (fun c => { c with urgent := false, due := none, scan := some (scanInterval s) })
    (fun _ => .inl rfl)).andThen (listKept_of_contests rfl (fun _ => .inl rfl))

theorem scanExpires_listKept (p : Pos) (n : Nat) (s : State) : ListKept s (scanExpires p n s) :=
  listKept_ite (listKept_onCoil s p _ (fun _ => .inl rfl)) (ListKept.refl s)

theorem clearFaults_listKept (p : Pos) (s : State) : ListKept s (clearFaults p s) :=
  listKept_onCoil s p _ (fun _ => .inl rfl)

theorem countFault_listKept (p : Pos) (s : State) : ListKept s (countFault p s) :=
  listKept_onCoil s p _ (fun _ => .inl rfl)

theorem childEnterOnline_listKept (p : Pos) (s : State) : ListKept s (childEnterOnline p s) :=
  listKept_ite (((clearFaults_listKept p s).andThen
    (listKept_onCoil _ p (fun c => { c with scan := some (scanInterval s), due := none }) (fun _ => .inl rfl))).andThen
    (raiseUrgent_listKept p _)) (clearFaults_listKept p s)

theorem coilAdded_listKept (p : Pos) (s : State) : ListKept s (coilAdded p s) :=
  (listKept_ite (listKept_onCoil s p (fun c => { c with scan := some (scanInterval s), due := none }) (fun _ => .inl rfl))
    (ListKept.refl s)).andThen (raiseUrgent_listKept p _)

theorem raiseAllUrgent_listKept (s : State) : ListKept s (raiseAllUrgent s) := listKept_forEach raiseUrgent_listKept _ s

/-! ### An entry vacates its position (R73) -/

theorem vacate_length (n : Nat) (m : List TagId) (q : Pos) (v : Vacating) (s : State) :
    (vacate n m q v s).child.entries.length = s.child.entries.length := by
  refine vacate_induct (P := fun _ _ _ _ s t => t.child.entries.length = s.child.entries.length) ?_ ?_ ?_ n m q v s
  · exact fun _ _ _ _ _ => rfl
  · intro _ _ q _ s e c _ _
    rw [(makeMissing_entries e.tag q c s).1, List.length_map]
  · intro _ _ q v s e p ps t _ _ ih
    rw [movedTo_entries, List.length_map]
    exact ih

/-- The entry at an uncontested position vacates it (R73). -/
theorem vacates_listInv {q : Pos} (v : Vacating) {s : State} (h : ListInv s.child) (hq : (s.coil q).contest = none) :
    ListInv (vacates q v s).child ∧ (v.missing ≠ none → FreeOf [] q (vacates q v s).child) := by
  obtain ⟨hm, hfree⟩ := vacate_listMoving 16 [] q v s (h.moving []) (openContests_length_lt [] s)
    (fun x hx => by rw [hq] at hx; nomatch hx)
  obtain ⟨-, -, hl, -⟩ := h
  exact ⟨hm.listInv (by rw [vacate_length]; exact hl), hfree⟩

theorem forEach_vacates_listKept (v : Vacating) (l : List Pos) (s : State) (hc : ∀ p ∈ l, (s.coil p).contest = none) :
    ListKept s (forEach l (fun p => vacates p v) s) := by
  induction l generalizing s with
  | nil => exact ListKept.refl s
  | cons p l ih =>
    intro h
    exact ih _ (fun q hq => (vacate_contestsClear 16 [] p v s).none (hc q (List.mem_cons_of_mem p hq)))
      (vacates_listInv v h (hc p List.mem_cons_self)).1

theorem childRowLeaves_listKept (r : Row) (b : Bool) (s : State) : ListKept s (childRowLeaves r b s) := by
  have h1 : ListKept s (coilsLeft r s) := listKept_forEach (fun p t => listKept_onCoil t p _ (fun _ => .inr rfl)) _ s
  refine h1.andThen (forEach_vacates_listKept _ _ _ (fun p hp => ?_))
  rw [coilsLeft_coil, if_pos ((mem_rowPositions r p).mp hp)]
  rfl

end Sys2Proof.Machine
end

section
/-! PROOFS. The form of the child seat list is kept by a tag read's result (R67, R72, R74 to R78). -/

namespace Sys2Proof.Machine

/-! ### Several contests clear -/

theorem clearContests_coil {l : List Pos} (hl : l.Nodup) (s : State) (p : Pos) :
    (forEach l (fun p => setContest p none) s).coil p = if p ∈ l then { s.coil p with contest := none } else s.coil p :=
  forEach_get State.coil (upd := fun _ k => { k with contest := none }) (K := fun _ => True) (fun _ _ _ => trivial)
    (fun p t q _ => setContest_coil p none t q) l s hl trivial p

theorem clearContests_entries (l : List Pos) (s : State) :
    (forEach l (fun p => setContest p none) s).child.entries = s.child.entries
      ∧ (forEach l (fun p => setContest p none) s).child.tagTimers = s.child.tagTimers :=
  forEach_entries (f := fun p => setContest p none) (fun _ _ => ⟨rfl, rfl⟩) l s

/-! ### FOUND (R74 to R77) -/

/-- The entry of a tag, found at p with its orientation. -/
def foundTag (x : TagId) (p : Pos) (o : Orientation) (n : BitVec 32) (e : Entry) : Entry :=
  if e.tag = x then { e with pos := p, state := .present, confirmed := n, orient := o } else e

theorem places_foundTag (x : TagId) (p : Pos) (o : Orientation) (n : BitVec 32) : Places x p (foundTag x p o n) := by
  refine ⟨fun e h => if_neg h, fun e => ?_, fun e h => ?_⟩
  · unfold foundTag
    split <;> rfl
  · rw [show foundTag x p o n e = _ from if_pos h]
    exact ⟨rfl, rfl⟩

theorem foundConfirm_entries (p : Pos) (x : TagId) (o : Orientation) (s : State) :
    (foundConfirm p x o s).child.entries = s.child.entries.map (foundTag x p o s.monitor.seconds) := by
  show (s.child.entries.map _).map _ = _
  rw [List.map_map]
  refine List.map_congr_left (fun e _ => ?_)
  unfold foundTag
  by_cases h : e.tag = x <;> simp [h]

theorem foundConfirm_coil (p : Pos) (x : TagId) (o : Orientation) (s : State) (q : Pos) :
    (foundConfirm p x o s).coil q = s.coil q := rfl

/-- X found at a position that is free of others takes it; X must contest it no more (R72, R75 to R77). -/
theorem found_listInv {p : Pos} {x : TagId} {o : Orientation} {s t : State} (h : ListMoving [x] s.child)
    (hl : s.child.entries.length ≤ 16) (hfree : FreeOf [x] p s.child)
    (he : t.child.entries = (foundConfirm p x o s).child.entries)
    (hc : ∀ z y, (t.coil z).contest = some y → (s.coil z).contest = some y ∧ (y = x → z ≠ p)) : ListInv t.child := by
  have hplaces := places_foundTag x p o s.monitor.seconds
  have hent := he.trans (foundConfirm_entries p x o s)
  exact ListMoving.listInv ⟨h.tags.ofMap hplaces.tag hent, hplaces.standApart hent h.tags h.apart hfree,
    hplaces.contestsStand hent h.contests hc⟩ (by rw [hent, List.length_map]; exact hl)

/-- X stands at p: no other does (R75). -/
theorem ListInv.freeOf {c : ChildUnit} (h : ListInv c) {e : Entry} (he : e ∈ c.entries) (hs : e.state ≠ .missing) :
    FreeOf [e.tag] e.pos c := by
  intro f hf hft
  refine eq_false_of_ne_true (fun hst => hft ?_)
  obtain ⟨hp, hfs⟩ := standsAt_iff.mp hst
  obtain ⟨-, ho, -, -⟩ := h
  rw [ho.unique hf he hfs hs hp]
  exact List.mem_singleton_self _

/-- No contest is by a tag without a standing entry (R72). -/
theorem ListInv.no_contest {s : State} (h : ListInv s.child) {x : TagId}
    (hx : ∀ e ∈ s.child.entries, e.tag = x → e.state = .missing) (p : Pos) : (s.coil p).contest ≠ some x := by
  intro hp
  obtain ⟨-, -, -, hc⟩ := h
  obtain ⟨e, he, ht, hs, -⟩ := hc p x hp
  exact hs (hx e he ht)

theorem entryOf_some {s : State} {x : TagId} {e : Entry} (h : entryOf s x = some e) : e ∈ s.child.entries ∧ e.tag = x :=
  ⟨List.mem_of_find?_eq_some h, by simpa using List.find?_some h⟩

theorem entryOf_mem {s : State} (h : TagsInv s.child) {e : Entry} (he : e ∈ s.child.entries) : entryOf s e.tag = some e := by
  cases hf : entryOf s e.tag with
  | none => exact absurd (List.mem_map_of_mem he) (entryOf_none hf)
  | some f =>
    obtain ⟨hm, ht⟩ := entryOf_some hf
    rw [h.unique hm he ht]

/-- X stands at p and is confirmed there (R75). -/
theorem foundConfirm_listInv {p : Pos} {x : TagId} (o : Orientation) {s : State} (h : ListInv s.child) {e : Entry}
    (he : e ∈ s.child.entries) (ht : e.tag = x) (hs : e.state ≠ .missing) (hp : e.pos = p) :
    ListInv (foundConfirm p x o s).child := by
  subst ht hp
  have hfree := h.freeOf he hs
  have hm := h.moving [e.tag]
  obtain ⟨hta, -, hl, hc⟩ := h
  refine found_listInv hm hl hfree rfl (fun z y hz => ⟨hz, ?_⟩)
  rintro rfl rfl
  obtain ⟨f, hf, hft, -, hfp⟩ := hc _ _ hz
  exact hfp (congrArg Entry.pos (hta.unique hf he hft))

/-- Sixteen entries do not all stand, for the positions are fifteen (R76). -/
theorem ListInv.missing_of_full {c : ChildUnit} (h : ListInv c) (hl : 16 ≤ c.entries.length) :
    ∃ e ∈ c.entries, e.state = .missing := by
  refine Classical.byContradiction (fun hno => ?_)
  have hstand : ∀ e ∈ c.entries, e.state ≠ .missing := fun e he hs => hno ⟨e, he, hs⟩
  obtain ⟨ht, ho, -, -⟩ := h
  have hn : (c.entries.map (·.pos)).Nodup :=
    List.Nodup.map_on (fun e he f hf hp => ho.unique he hf (hstand e he) (hstand f hf) hp) ht.of_map
  have hle : (c.entries.map (·.pos)).length ≤ allPos.length :=
    (List.subperm_of_subset hn (fun p _ => mem_allPos p)).length_le
  rw [List.length_map, show allPos.length = 15 from rfl] at hle
  omega

/-- The list with room for one more, its oldest MISSING entry evicted where it is full (R76). -/
def roomFor (l : List Entry) : List Entry := if 16 ≤ l.length then evictMissing l else l

theorem roomFor_sublist (l : List Entry) : (roomFor l).Sublist l := by
  unfold roomFor
  split
  · exact List.eraseP_sublist
  · exact List.Sublist.refl l

theorem mem_roomFor {l : List Entry} {e : Entry} (h : e.state ≠ .missing) : e ∈ roomFor l ↔ e ∈ l := by
  unfold roomFor
  split
  · exact List.mem_eraseP_of_neg (by simpa using h)
  · exact Iff.rfl

theorem ListInv.roomFor_length {c : ChildUnit} (h : ListInv c) : (roomFor c.entries).length + 1 ≤ 16 := by
  unfold roomFor
  split
  · rename_i hl
    obtain ⟨e, he, hs⟩ := h.missing_of_full hl
    obtain ⟨-, -, hle, -⟩ := h
    have hlen := List.length_eraseP_of_mem (p := fun e : Entry => e.state == .missing) he (by simp [hs])
    unfold evictMissing
    omega
  · omega

/-- A tag that is absent is appended at a position that is free (R76). -/
theorem append_listInv {c : ChildUnit} (h : ListInv c) {e : Entry} (hx : e.tag ∉ c.entries.map (·.tag))
    (hfree : FreeOf [] e.pos c) : ListInv { c with entries := roomFor c.entries ++ [e] } := by
  have hlen := h.roomFor_length
  obtain ⟨ht, ho, -, hc⟩ := h
  have htags : TagsInv { c with entries := roomFor c.entries ++ [e] } := by
    have := tagsInv_append e (decide (16 ≤ c.entries.length)) hx ht
    simpa only [decide_eq_true_eq, roomFor] using this
  have hmem : ∀ f ∈ roomFor c.entries ++ [e], f ∈ c.entries ∨ f = e := fun f hf =>
    (List.mem_append.mp hf).imp (fun hm => (roomFor_sublist _).subset hm) List.mem_singleton.mp
  have hother : ∀ f ∈ c.entries, f.state ≠ .missing → f.pos ≠ e.pos := fun f hf hs hp => by
    have := hfree f hf List.not_mem_nil
    rw [standsAt_iff.mpr ⟨hp, hs⟩] at this
    nomatch this
  refine ⟨htags, StandApart.oneStanding (fun a ha b hb _ _ hsa hsb hp => ?_) htags, by simpa using hlen, fun z y hz => ?_⟩
  · obtain ha | ha := hmem a ha <;> obtain hb | hb := hmem b hb
    · exact ho.unique ha hb hsa hsb hp
    · exact absurd (hb ▸ hp) (hother a ha hsa)
    · exact absurd (ha ▸ hp.symm) (hother b hb hsb)
    · rw [ha, hb]
  · obtain ⟨f, hf, hft, hs, hp⟩ := hc z y hz
    exact ⟨f, List.mem_append_left _ ((mem_roomFor hs).mpr hf), hft, hs, hp⟩

/-- X, absent or MISSING, is found at p, which X alone may contest (R76). -/
theorem foundPlace_listInv {p : Pos} {x : TagId} (o : Orientation) {s : State} (h : ListInv s.child)
    (hx : ∀ e ∈ s.child.entries, e.tag = x → e.state = .missing) (hp : ∀ y, (s.coil p).contest = some y → y = x) :
    ListInv (foundPlace p x o s).child := by
  have hnone : (s.coil p).contest = none := by
    cases hc : (s.coil p).contest with
    | none => rfl
    | some y => exact absurd (hp y hc ▸ hc) (h.no_contest hx p)
  obtain ⟨hu, hfree⟩ := vacates_listInv ⟨causeAbsenceConfirmed, some causeDisplaced⟩ h hnone
  have hnx : ∀ z, ((vacates p ⟨causeAbsenceConfirmed, some causeDisplaced⟩ s).coil z).contest ≠ some x := fun z hz => by
    obtain e | e := ((vacate_contestsClear 16 [] p _ s) z).2
    · exact h.no_contest hx z (e.symm.trans hz)
    · exact nomatch e.symm.trans hz
  unfold foundPlace
  dsimp only
  generalize vacates p ⟨causeAbsenceConfirmed, some causeDisplaced⟩ s = u at hu hfree hnx
  have hfree := hfree nofun
  show ListInv (State.child (match entryOf u x with | some _ => _ | none => _))
  cases he : entryOf u x with
  | some e =>
    obtain ⟨-, -, hle, -⟩ := id hu
    refine found_listInv (hu.moving [x]) hle (fun f hf _ => hfree f hf List.not_mem_nil) rfl (fun z y hz => ⟨hz, ?_⟩)
    rintro rfl
    exact absurd hz (hnx z)
  | none => exact append_listInv hu (entryOf_none he) hfree

/-- X, standing elsewhere, moves to p, which X alone may contest, and every contest by X clears (R77). -/
theorem foundMove_listInv {p : Pos} {x : TagId} (q : Pos) (o : Orientation) (n : Nat) {s : State} (h : ListInv s.child)
    (hp : ∀ y, (s.coil p).contest = some y → y = x) : ListInv (foundMove p q x o n s).child := by
  obtain ⟨hm, hfree⟩ := vacate_listMoving 16 [x] p ⟨causeAbsenceConfirmed, some causeDisplaced⟩ s (h.moving [x])
    (openContests_length_lt [x] s) (fun y hy => List.mem_singleton.mpr (hp y hy))
  have hlen := vacate_length 16 [x] p ⟨causeAbsenceConfirmed, some causeDisplaced⟩ s
  obtain ⟨-, -, hl, -⟩ := h
  unfold foundMove
  dsimp only
  generalize vacate 16 [x] p ⟨causeAbsenceConfirmed, some causeDisplaced⟩ s = u at hm hfree hlen
  refine found_listInv hm (hlen ▸ hl) (hfree nofun)
    (clearContests_entries (contestedBy (foundConfirm p x o u) x) (foundConfirm p x o u)).1 (fun z y hz => ?_)
  have hz' := (congrArg Coil.contest (clearContests_coil (contestedBy_nodup _ x) _ z)).symm.trans hz
  simp only [mem_contestedBy, foundConfirm_coil] at hz'
  split at hz'
  · nomatch hz'
  · rename_i hne
    exact ⟨hz', fun hy => absurd (hy ▸ hz') hne⟩

/-- p is marked contested by X, which stands elsewhere (R77). -/
theorem foundContest_listInv {p : Pos} {s : State} (h : ListInv s.child) {e : Entry} (he : e ∈ s.child.entries)
    (hs : e.state ≠ .missing) (hp : e.pos ≠ p) : ListInv (foundContest p e.pos e.tag s).child := by
  refine raiseUrgent_listKept e.pos _ (h.ofMap (f := id) (fun _ => rfl) (fun _ _ => rfl) (by rw [List.map_id]; rfl)
    (fun z y hz => ?_))
  obtain ⟨-, -, -, hc⟩ := h
  have hz' : ((setContest p (some e.tag) s).coil z).contest = some y := hz
  rw [setContest_coil] at hz'
  split at hz'
  · rename_i hzp
    exact ⟨e, he, Option.some.inj hz', hs, hzp ▸ hp⟩
  · exact hc z y hz'

/-- FOUND X at p, which X alone may contest (R74). -/
theorem takeFound_listInv {p : Pos} {x : TagId} (o : Orientation) {s : State} (h : ListInv s.child)
    (hp : ∀ y, (s.coil p).contest = some y → y = x) : ListInv (takeFound p x o s).child := by
  unfold takeFound
  split
  · rename_i hn
    exact foundPlace_listInv o h (fun e he ht => absurd (ht ▸ List.mem_map_of_mem he) (entryOf_none hn)) hp
  · rename_i e he
    obtain ⟨hm, rfl⟩ := entryOf_some he
    obtain ⟨ht, -, -, -⟩ := id h
    split
    · rename_i hs
      exact foundPlace_listInv o h (fun f hf hft => ht.unique hf hm hft ▸ hs) hp
    · rename_i hs
      split
      · rename_i hpos
        exact foundConfirm_listInv o h hm rfl hs hpos
      · rename_i hpos
        split
        · exact foundMove_listInv _ o _ h hp
        · split
          · exact foundMove_listInv _ o _ h hp
          · exact foundContest_listInv h hm hs hpos

theorem contestBeforeFound_listKept (p : Pos) (x : TagId) (s : State) : ListKept s (contestBeforeFound p x s) := by
  unfold contestBeforeFound
  split
  · exact ListKept.refl s
  · refine listKept_ite (clearContest_listKept p s) ?_
    split
    · exact listKept_ite (raiseUrgent_listKept _ s) (ListKept.refl s)
    · exact ListKept.refl s

/-- Before a FOUND X the contest at p by another tag has cleared (R72). -/
theorem contestBeforeFound_contest (p : Pos) (x : TagId) (s : State) {y : TagId}
    (h : ((contestBeforeFound p x s).coil p).contest = some y) : y = x := by
  unfold contestBeforeFound at h
  split at h
  · rename_i hn
    rw [hn] at h
    nomatch h
  · rename_i z hz
    split at h
    · rw [setContest_coil, if_pos rfl] at h
      nomatch h
    · rename_i hne
      have hs : (s.coil p).contest = some y := by
        split at h
        · split at h
          · rwa [raiseUrgent_contest] at h
          · exact h
        · exact h
      rw [hz] at hs
      exact (Option.some.inj hs).symm.trans (Classical.not_not.mp hne)

theorem takeResult_listKept (p : Pos) (res : TagResult) (s : State) : ListKept s (takeResult p res s) := by
  cases res with
  | fault => exact countFault_listKept p s
  | nothing =>
    intro h
    refine (vacates_listInv _ (clearContest_listKept p _ (clearFaults_listKept p s h)) ?_).1
    rw [setContest_coil, if_pos rfl]
  | found x o =>
    intro h
    exact takeFound_listInv o (contestBeforeFound_listKept p x _ (clearFaults_listKept p s h))
      (fun _ hy => contestBeforeFound_contest p x _ hy)

theorem completeRead_listKept (r : Row) (t : TagRead) (res : TagResult) (s : State) :
    ListKept s (completeRead r t res s) :=
  listKept_ite (clearTagRead_listKept r s) ((clearTagRead_listKept r s).andThen (takeResult_listKept _ _ _))

theorem takeTagStatus_listKept (r : Row) (st : TagStatus) (s : State) : ListKept s (takeTagStatus r st s) := by
  unfold takeTagStatus
  split
  · exact listKept_ite (completeRead_listKept r _ _ s) (ListKept.refl s)
  · exact ListKept.refl s

end Sys2Proof.Machine
end

section
/-! PROOFS. The form of the child seat list is kept where the list is cleared, at sleep entry and wake, and where a coil's
flag is cleared (R15, R81, R82). -/

namespace Sys2Proof.Machine

/-! ### Clearing, sleep, wake and a coil that goes -/

/-- A list without contests has none that could not stand. -/
theorem contestsStand_of_none {c : ChildUnit} (h : ∀ p, (c.coils.get p).contest = none) : ContestsStand c :=
  fun p x hp => by rw [h p] at hp; nomatch hp

theorem clearChildren_entries (s : State) : (clearChildren s).child.entries = [] := by
  unfold clearChildren
  rw [raiseAllUrgent_entries]
  exact (clearContests_entries allPos _).1

theorem clearChildren_coil (s : State) (p : Pos) : (clearChildren s).coil p
    = { s.coil p with contest := none, urgent := (s.coil p).urgent || coilFitted s p } := by
  have hc := (changes_onChild s (fun c => { c with entries := [] })).andThen
    (changesOnly_forEach (bs := [.child]) (fun p t => setContest_changes p none t) allPos _)
  unfold clearChildren
  rw [raiseAllUrgent_coil, clearContests_coil allPos_nodup, if_pos (mem_allPos p)]
  unfold coilFitted
  rw [sensorFlag_congr hc.straps (by rw [hc.settings])]
  rfl

theorem clearChildren_listKept (s : State) : ListKept s (clearChildren s) := fun _ => by
  refine ⟨?_, fun p => ?_, ?_, contestsStand_of_none (fun p => ?_)⟩
  · unfold TagsInv
    rw [clearChildren_entries]
    exact List.nodup_nil
  · rw [clearChildren_entries]
    exact Nat.zero_le _
  · rw [clearChildren_entries]
    exact Nat.zero_le _
  · exact congrArg Coil.contest (clearChildren_coil s p)

theorem standsAt_provisionalEntry (p : Pos) (e : Entry) : standsAt p (provisionalEntry e) = standsAt p e := by
  unfold provisionalEntry
  split
  · rename_i h
    simp [standsAt, h]
    rfl
  · rfl

theorem childSleep_listKept (s : State) : ListKept s (childSleep s) := by
  rintro ⟨ht, ho, hl, -⟩
  refine ⟨ht.ofMap (f := provisionalEntry) (fun e => ?_) rfl, fun p => ?_, ?_, contestsStand_of_none (fun p => ?_)⟩
  · unfold provisionalEntry
    split <;> rfl
  · show ((s.child.entries.map provisionalEntry).filter (standsAt p)).length ≤ 1
    rw [List.filter_map, List.length_map, show standsAt p ∘ provisionalEntry = standsAt p from
      funext (standsAt_provisionalEntry p)]
    exact ho p
  · exact (List.length_map _).trans_le hl
  · show ((s.child.coils.mapIdx (fun _ => Coil.leaveOnline)).get p).contest = none
    rw [PerPos.get_mapIdx]
    rfl

theorem childWake_listKept (s : State) : ListKept s (childWake s) := by
  refine (listKept_forEach (f := wakeEntry) (fun p t => ?_) allPos s).andThen (raiseAllUrgent_listKept _)
  unfold wakeEntry
  split
  · exact listKept_ite (makeMissing_listKept _ p _ t) (ListKept.refl t)
  · exact ListKept.refl t

theorem coilRemoved_listKept (p : Pos) (s : State) : ListKept s (coilRemoved p s) := by
  have h : ListKept s (standingMissed p s) := by
    unfold standingMissed
    split
    · exact makeMissing_listKept _ p _ s
    · exact ListKept.refl s
  rw [coilRemoved_eq]
  exact (h.andThen (listKept_onCoil _ p _ (fun _ => .inr rfl))).leave (changes_onRow _ _ _) rfl

end Sys2Proof.Machine
end

section
/-! PROOFS. Every command, every idle step and so every step keeps the form of the child seat list (R69, R72, R76). -/

namespace Sys2Proof.Machine

/-! ### Classifier and rows -/

theorem updateBand_listKept (p : Pos) (f : Bool) (s : State) : ListKept s (updateBand p f s) :=
  listKept_ite ((changes_onCls s p _).listKept rfl)
    (((changes_onCls s p _).listKept rfl).andThen (raiseUrgent_listKept p _))

theorem takeAnchors_listKept (p : Pos) (l r : AnchorReading) (s : State) : ListKept s (takeAnchors p l r s) := by
  unfold takeAnchors
  exact (listKept_ite ((changes_onCls s p _).listKept rfl)
    (((changes_onCls s p _).listKept rfl).andThen (raiseUrgent_listKept p _))).leave
    (afterSeatChange_changes false s p _) rfl

theorem positionsLeaveOnline_listKept (r : Row) (b : Bool) (s : State) : ListKept s (positionsLeaveOnline r b s) :=
  (listKept_forEach (fun p t => ((changes_onLoad t p _).listKept rfl).leave (changes_onCls _ p _) rfl)
    _ s).andThen (childRowLeaves_listKept r b _)

theorem preparePosition_listKept (p : Pos) (s : State) : ListKept s (preparePosition p s) :=
  ((((changes_onLoad s p _).listKept rfl).leave (changes_onCls _ p _) rfl).andThen
    (childEnterOnline_listKept p _)).leave (afterSeatChange_changes false s p _) rfl

theorem enterOnline_listKept (r : Row) (s : State) : ListKept s (enterOnline r s) := by
  have h : ListKept s (onlineNoticed r s) := ((changes_onRow s r _).listKept rfl).leave
    (notify_changes _ _) rfl
  rw [enterOnline_eq]
  exact (h.andThen (listKept_forEach preparePosition_listKept _ _)).leave (evaluateRow_changes r s _) rfl

theorem positionsFall_listKept (r : Row) (w : Bool) (b s : State) : ListKept s (positionsFall r w b s) :=
  (listKept_ite ((positionsLeaveOnline_listKept r false s).leave (changesOnly_forEach loseBuckle_changes _ _) rfl)
    (ListKept.refl s)).leave (evaluateRow_changes r b _) rfl

theorem enterFailed_listKept (r : Row) (c : RowCause) (s : State) : ListKept s (enterFailed r c s) :=
  ((((abandonRead_listKept r s).leave (changes_onRow _ r _) rfl).leave (notify_changes _ _) rfl).leave
    (notify_changes _ _) rfl).andThen (positionsFall_listKept r _ s _)

theorem enterRecovering_listKept (r : Row) (c : RowCause) (s : State) : ListKept s (enterRecovering r c s) := by
  have h : ListKept s (s.onRow r (fun x => { x with recovery := min 3 (x.recovery + 1) })) :=
    (changes_onRow s r _).listKept rfl
  exact listKept_ite (h.andThen (enterFailed_listKept r _ _))
    ((((h.andThen (abandonRead_listKept r _)).leave (changes_onRow _ r _) rfl).leave (notify_changes _ _) rfl).andThen
      (positionsFall_listKept r _ s _))

/-- A change of the row's record, after which the row may go to RECOVERING. -/
theorem recoverAfter_listKept (r : Row) (c : RowCause) (f : RowRecord → RowRecord) {u : State} (s : State) {b : Prop}
    [Decidable b] (hu : ListKept s u) : ListKept s (if b then enterRecovering r c (s.onRow r f) else u) :=
  listKept_ite (((changes_onRow s r f).listKept rfl).andThen (enterRecovering_listKept r c _)) hu

theorem removeRow_listKept (r : Row) (s : State) : ListKept s (removeRow r s) := by
  have h : ListKept s (removalNoticed r s) := ((((discardExchange_changes r s).listKept rfl).andThen
    (abandonRead_listKept r _)).leave (changes_onRow _ r _) rfl).leave (notify_changes _ _) rfl
  rw [removeRow_eq]
  exact (((h.andThen (positionsLeaveOnline_listKept r true _)).leave
    (changesOnly_forEach removePosition_changes _ _) rfl).leave
    (evaluateRow_changes r s _) rfl).leave (endWithBatch_changes _) rfl

theorem senseReadsUnmated_listKept (r : Row) (s : State) : ListKept s (senseReadsUnmated r s) :=
  listKept_ite ((changes_onPins s _).listKept rfl) (listKept_ite
    (((changes_onPins s _).listKept rfl).leave (changes_onRow _ r _) rfl)
    (((changes_onPins s _).listKept rfl).andThen (removeRow_listKept r _)))

theorem rowArrives_listKept (r : Row) (s : State) : ListKept s (rowArrives r s) := by
  unfold rowArrives
  refine listKept_ite ?_ (ListKept.refl s)
  exact ((((((changes_onRow s r _).listKept rfl).leave (notify_changes _ _) rfl).leave
    (evaluateRow_changes r s _) rfl).leave
    (publish_changes _) rfl).leave (changesOnly_forEach (evaluateLists_changes false) _ _) rfl).leave
    (endWithBatch_changes _) rfl

theorem settleExpires_listKept (r : Row) (s : State) : ListKept s (settleExpires r s) := by
  unfold settleExpires
  split
  · exact listKept_ite ((changes_onRow s r _).listKept rfl)
      ((enterFailed_listKept r _ s).leave (endWithBatch_changes _) rfl)
  · exact (((changes_onRow s r _).listKept rfl).leave (evaluateRow_changes r s _) rfl).leave (endWithBatch_changes _) rfl
  · exact ListKept.refl s

/-! ### Exchanges, samples and slots -/

theorem enterChecking_listKept (r : Row) (i : Identity) (s : State) : ListKept s (enterChecking r i s) :=
  listKept_ite (((changes_onRow s r _).listKept rfl).andThen (enterOnline_listKept r _))
    (((changes_onRow s r _).listKept rfl).leave (evaluateRow_changes r s _) rfl)

theorem probeFails_listKept (r : Row) (s : State) : ListKept s (probeFails r s) :=
  recoverAfter_listKept r _ _ s ((changes_onRow s r _).listKept rfl)

theorem attemptFails_listKept (r : Row) (s : State) : ListKept s (attemptFails r s) :=
  recoverAfter_listKept r _ _ s (((changes_onRow s r _).listKept rfl).leave (changes_onRow _ r _) rfl)

theorem sampleFails_listKept (r : Row) (s : State) : ListKept s (sampleFails r s) :=
  recoverAfter_listKept r _ _ s ((changes_onRow s r _).listKept rfl)

theorem entryPasses_listKept (r : Row) (s : State) : ListKept s (entryPasses r s) :=
  listKept_ite ((changes_onRow s r _).listKept rfl) (enterOnline_listKept r s)

theorem walkStep_listKept (r : Row) (v : Word16) (s : State) : ListKept s (walkStep r v s) := by
  unfold walkStep
  dsimp only
  split
  · exact listKept_ite (entryPasses_listKept r s)
      (listKept_ite ((changes_onRow s r _).listKept rfl) (attemptFails_listKept r s))
  · exact (changes_onRow s r _).listKept rfl
  · exact listKept_ite (entryPasses_listKept r s) (attemptFails_listKept r s)

theorem debounceSeat_listKept (r : Row) (b : List Byte) (k : Seat) (s : State) : ListKept s (debounceSeat r b k s) :=
  listKept_ite ((((changes_onRow s r _).listKept rfl).leave (takeBuckle_changes _ _ _) rfl).andThen
    (takeAnchors_listKept _ _ _ _))
    ((changes_onRow s r _).listKept rfl)

theorem evaluateSeat_listKept (b : List Byte) (p : Pos) (s : State) : ListKept s (evaluateSeat b p s) := by
  have h : ListKept s ((s.onLoad p (fun l => l.take (loadSettings s p) (parseSeat b p.seat))).onCls p
      (fun c => { c with sampled := true })) := ((changes_onLoad s p _).listKept rfl).leave (changes_onCls _ p _) rfl
  unfold evaluateSeat
  dsimp only
  split
  · exact (h.andThen (updateBand_listKept p _ _)).leave (evaluate_changes true p _) rfl
  · exact h.leave (evaluate_changes false p _) rfl

theorem deliverSample_listKept (r : Row) (b : List Byte) (s : State) : ListKept s (deliverSample r b s) :=
  (((((changes_onRow s r _).listKept rfl).andThen (listKept_forEach (debounceSeat_listKept r b) _ _)).andThen
    (takeTagStatus_listKept r _ _)).andThen (listKept_forEach (evaluateSeat_listKept b) _ _)).leave
    (evaluateEach_changes _ _) rfl

theorem exchangeFails_listKept (x : Exchange) (s : State) : ListKept s (exchangeFails x s) := by
  unfold exchangeFails
  split
  · exact sampleFails_listKept x.row s
  · exact probeFails_listKept x.row s
  · exact listKept_ite (ListKept.refl s) (attemptFails_listKept x.row s)
  · exact listKept_ite (ListKept.refl s) (attemptFails_listKept x.row s)
  · exact ListKept.refl s

theorem exchangeGood_listKept (x : Exchange) (b : List Byte) (s : State) : ListKept s (exchangeGood x b s) := by
  unfold exchangeGood
  split
  · exact deliverSample_listKept x.row b s
  · exact enterChecking_listKept x.row _ s
  · exact listKept_ite (ListKept.refl s) (walkStep_listKept x.row _ s)
  · exact listKept_ite (ListKept.refl s) (walkStep_listKept x.row _ s)
  · exact ListKept.refl s

theorem answerCompletes_listKept (b : List Byte) (s : State) : ListKept s (answerCompletes b s) := by
  have fails : ∀ x, ListKept s (endWithBatch (exchangeFails x (endExchange s))) := fun x =>
    (((endExchange_changes s).listKept rfl).andThen (exchangeFails_listKept x _)).leave (endWithBatch_changes _) rfl
  unfold answerCompletes
  split
  · exact ListKept.refl s
  · split
    · exact (((endExchange_changes s).listKept rfl).andThen (exchangeGood_listKept _ b _)).leave
        (endWithBatch_changes _) rfl
    · exact fails _
    · exact fails _

theorem exchangeTimesOut_listKept (s : State) : ListKept s (exchangeTimesOut s) := by
  unfold exchangeTimesOut
  split
  · exact ListKept.refl s
  · exact (((endExchange_changes s).listKept rfl).andThen (exchangeFails_listKept _ _)).leave (endWithBatch_changes _) rfl

theorem sendSample_listKept (r : Row) (s : State) : ListKept s (sendSample r s) := by
  unfold sendSample
  refine listKept_ite ((sendPoll_changes r _ s).listKept rfl) ?_
  split
  · exact (sendPoll_changes r _ s).listKept rfl
  · exact ((startRead_listKept _ s).leave (changes_onRow _ r _) rfl).leave (sendPoll_changes r _ _) rfl

theorem carrySlot_listKept (r : Row) (s : State) : ListKept s (carrySlot r s) := by
  unfold carrySlot
  refine listKept_ite (ListKept.refl s) ?_
  split
  case h_3 => exact sendSample_listKept r s
  case h_2 => exact (sendWalk_changes r s).listKept rfl
  case h_1 => exact listKept_ite ((sendPoll_changes r _ s).listKept rfl) (ListKept.refl s)
  all_goals exact ListKept.refl s

theorem takeSlot_listKept (s : State) : ListKept s (takeSlot s) := by
  unfold takeSlot
  dsimp only
  split
  · exact ((changes_onLine s _).listKept rfl).andThen (carrySlot_listKept _ _)
  · exact (changes_onLine s _).listKept rfl

theorem slotExpires_listKept (s : State) : ListKept s (slotExpires s) := by
  unfold slotExpires
  split
  · exact (exchangeTimesOut_listKept s).andThen (takeSlot_listKept _)
  · exact ListKept.refl s
  · exact ListKept.refl s

/-! ### Monitor -/

theorem abandonAll_listKept (s : State) : ListKept s (abandonAll s) := listKept_forEach abandonRead_listKept _ s

theorem setHold_listKept (s : State) : ListKept s (setHold s) := by
  unfold setHold
  refine listKept_ite ?_ ((changes_onMonitor s _).listKept rfl)
  exact (((((changes_onMonitor s _).listKept rfl).leave (changes_onMonitor _ (fun m => { m with hold := true })) rfl).leave
    (changes_onLine _ (fun l => { l with timer := .suspended, exchange := none })) rfl).leave
    (onLoads_changes _ (fun l => l.mapIdx (fun _ l => l.freeze))) rfl).andThen (abandonAll_listKept _)

theorem endWakeSettle_listKept (s : State) : ListKept s (endWakeSettle s) := by
  unfold endWakeSettle
  refine listKept_ite ?_ (ListKept.refl s)
  exact (((wokeUp_changes s).listKept rfl).andThen (childWake_listKept _)).leave (evaluateStart_changes _) rfl

/-- At sleep entry the Child Seat Unit is as `childSleep` leaves it (R82). -/
theorem enterSleep_listKept (s : State) : ListKept s (enterSleep s) :=
  (abandonAll_listKept s).andThen (childSleep_listKept _)

theorem restExpires_listKept (s : State) : ListKept s (restExpires s) :=
  listKept_ite (listKept_ite ((changes_onMonitor s _).listKept rfl) (enterSleep_listKept s)) (ListKept.refl s)

/-- Reset empties the list (R69, R174). -/
theorem resetPart_listKept (cause : ResetCause) (straps : Straps) (s : State) : ListKept s (resetPart cause straps s) :=
  fun _ => ⟨List.nodup_nil, fun _ => Nat.zero_le _, Nat.zero_le _, contestsStand_of_none (fun p => by
    show ((PerPos.all Coil.reset).get p).contest = none
    rw [PerPos.get_all]
    rfl)⟩

/-! ### Service requests and the completion of a write -/

theorem listKept_outsideReset {f : State → State} (s : State) (h : ListKept s (f s)) : ListKept s (outsideReset s f) :=
  listKept_ite (ListKept.refl s) h

theorem receive_listKept {f : State → State} (s : State) (h : ListKept s (f s)) : ListKept s (receive f s) :=
  listKept_outsideReset s (listKept_ite ((wake_changes s).listKept rfl) (listKept_ite (ListKept.refl s) h))

theorem takeService_listKept (k : Byte) (l : List Byte) {f : State → State} (h : ∀ t, ListKept t (f t)) (s : State) :
    ListKept s (takeService k l f s) := by
  have hr := (restartRest_changes s).listKept rfl
  exact receive_listKept s <| listKept_ite hr (listKept_ite ((hr.andThen (h _)).leave (arbitrate_changes _) rfl)
    ((hr.leave (sendReply_changes _ _) rfl).leave (arbitrate_changes _) rfl))

theorem answerClear_listKept (s : State) : ListKept s (answerClear s) :=
  listKept_ite ((sendReply_changes _ s).listKept rfl) (listKept_ite ((sendReply_changes _ s).listKept rfl)
    ((((((sendReply_changes _ s).listKept rfl).andThen (clearChildren_listKept _)).leave
      (evaluateEvidence_changes _ _) rfl).leave
      (publish_changes _) rfl).leave (takeReminders_changes _) rfl))

theorem sensorsChanged_listKept (b : State) (p : Pos) (s : State) : ListKept s (sensorsChanged b p s) := by
  have h : ListKept s (anchorsCleared b p s) := (anchorsCleared_changes b p s).listKept rfl
  exact listKept_ite ((h.andThen (coilRemoved_listKept p _)).leave (evaluateEvidence_changes _ _) rfl)
    (listKept_ite (h.andThen (coilAdded_listKept p _)) h)

theorem checkTableReplaced_listKept (s : State) : ListKept s (checkTableReplaced s) := by
  unfold checkTableReplaced
  refine ((changes_onLine s _).listKept rfl).andThen (listKept_forEach (fun r t => ?_) _ _)
  exact listKept_ite (((changes_onRow t r _).listKept rfl).andThen (enterOnline_listKept r _))
    ((changes_onRow t r _).listKept rfl)

theorem positionEffects_listKept (b : State) (p : Pos) (i : Nat) (s : State) : ListKept s (positionEffects b p i s) :=
  have h : ListKept s (if i = 19 then sensorsChanged b p s else s) :=
    listKept_ite (sensorsChanged_listKept b p s) (ListKept.refl s)
  (listKept_ite (h.leave (gainWritten_changes p _) rfl) h).leave (revalidate_changes p _) rfl

theorem tableEffects_listKept (g i : Nat) (s : State) : ListKept s (tableEffects g i s) :=
  have h : ListKept s (if g = 19 then checkTableReplaced s else s) :=
    listKept_ite (checkTableReplaced_listKept s) (ListKept.refl s)
  listKept_ite (h.leave (evaluateAllLists_changes _) rfl) h

theorem writeEffects_listKept (b : State) (g i : Nat) (s : State) : ListKept s (writeEffects b g i s) := by
  unfold writeEffects
  refine (ListKept.leave ?_ (changesOnly_forEach staleAfterWrite_changes _ _) rfl).andThen (tableEffects_listKept g i _)
  split
  · exact positionEffects_listKept b _ i s
  · exact ListKept.refl s

theorem writeSucceeds_listKept (w : WriteInFlight) (s : State) : ListKept s (writeSucceeds w s) :=
  (((((changes_onSettings s _).listKept rfl).andThen (writeEffects_listKept s _ _ _)).leave (publish_changes _) rfl).leave
    (sendWriteReply_changes _ _) rfl).leave (endEvent_changes _) rfl

theorem writeCompletes_listKept (o : WriteOutcome) (s : State) : ListKept s (writeCompletes o s) := by
  unfold writeCompletes
  split
  · exact ListKept.refl s
  · cases o
    case readBackAsWritten => exact writeSucceeds_listKept _ s
    all_goals exact (writeFails_changes _ _ s).listKept rfl

theorem tagReadTimesOut_listKept (r : Row) (s : State) : ListKept s (tagReadTimesOut r s) := by
  unfold tagReadTimesOut
  split
  · exact ListKept.refl s
  · exact listKept_ite (((completeRead_listKept r _ _ s).leave (evaluateEvidence_changes _ _) rfl).leave
      (endWithBatch_changes _) rfl) (ListKept.refl s)

/-! ### Commands -/

theorem takeFrame_listKept {f : State → State} (s : State) (h : ListKept s (f s)) : ListKept s (takeFrame f s) :=
  listKept_outsideReset s (listKept_ite ((wake_changes s).listKept rfl)
    (listKept_ite ((changes_onPort s _).listKept rfl) h))

theorem takeRequest_listKept (c a : Byte) {f : State → State} (s : State) (h : ∀ t, ListKept t (f t)) :
    ListKept s (takeRequest c a f s) :=
  takeFrame_listKept s (listKept_ite (((changes_onPort s _).listKept rfl).andThen (h _))
    ((((changes_onPort s _).listKept rfl).leave (changes_onPort _ _) rfl).leave (respond_changes _ _) rfl))

theorem answerPosition_listKept (a : Byte) (s : State) : ListKept s (answerPosition a s) := by
  unfold answerPosition
  split <;> exact (respond_changes _ s).listKept rfl

theorem answerLock_listKept (a : Byte) (s : State) : ListKept s (answerLock a s) :=
  listKept_ite ((takeLock_respond_changes _ _ s).listKept rfl) ((respond_changes _ s).listKept rfl)

theorem outenRises_listKept (s : State) : ListKept s (outenRises s) :=
  have h : ListKept s (s.onPins (fun u => { u with outen := true })) := (changes_onPins s _).listKept rfl
  listKept_ite (ListKept.refl s) (listKept_ite (h.leave (changes_onCadence _ _) rfl) h)

theorem delayRunsOut_listKept (p : Pos) (s : State) : ListKept s (delayRunsOut p s) :=
  listKept_ite (((enterVisual_changes p s).listKept rfl).leave (endEvent_changes _) rfl) (ListKept.refl s)

theorem audibleRunsOut_listKept (p : Pos) (s : State) : ListKept s (audibleRunsOut p s) :=
  listKept_ite (((silence_changes p 1 s).listKept rfl).leave (endEvent_changes _) rfl) (ListKept.refl s)

theorem ageRunsOut_listKept (p : Pos) (s : State) : ListKept s (ageRunsOut p s) :=
  listKept_ite (((changes_onLoad s p _).listKept rfl).leave (goStale_changes p _) rfl) (ListKept.refl s)

/-- Every command answers a next state, and keeps the list. -/
theorem exec_listKept (c : Instr) (s : State) : ∃ t, exec c s = .next t ∧ ListKept s t := by
  cases c with
  | reset cause straps => exact ⟨_, rfl, resetPart_listKept cause straps s⟩
  | autoloadEnd answer => exact ⟨_, rfl, listKept_outsideReset s ((autoloadEnds_changes answer s).listKept rfl)⟩
  | ignLineChange high => exact ⟨_, rfl, ((ignLineChanges_changes high s).listKept rfl)⟩
  | ignAsserted => exact ⟨_, rfl, listKept_outsideReset s ((ignAsserts_changes s).listKept rfl)⟩
  | ignDeasserted => exact ⟨_, rfl, listKept_outsideReset s ((ignDeasserts_changes s).listKept rfl)⟩
  | holdSet => exact ⟨_, rfl, setHold_listKept s⟩
  | holdCleared => exact ⟨_, rfl, ((clearHold_changes s).listKept rfl)⟩
  | restTimerExpiry => exact ⟨_, rfl, listKept_outsideReset s (restExpires_listKept s)⟩
  | wakeEvent source => exact ⟨_, rfl, listKept_outsideReset s ((takeWakeEvent_changes source s).listKept rfl)⟩
  | endOfWakeSettle => exact ⟨_, rfl, listKept_outsideReset s (endWakeSettle_listKept s)⟩
  | secondsCountTick => exact ⟨_, rfl, listKept_outsideReset s ((secondsTick_changes s).listKept rfl)⟩
  | slotTimerExpiry => exact ⟨_, rfl, slotExpires_listKept s⟩
  | responseWindowExpiry => exact ⟨_, rfl, exchangeTimesOut_listKept s⟩
  | sampleAnswer bytes => exact ⟨_, rfl, answerCompletes_listKept bytes s⟩
  | readIdAnswer bytes => exact ⟨_, rfl, answerCompletes_listKept bytes s⟩
  | readRegAnswer bytes => exact ⟨_, rfl, answerCompletes_listKept bytes s⟩
  | writeRegAnswer bytes => exact ⟨_, rfl, answerCompletes_listKept bytes s⟩
  | senseMated row => exact ⟨_, rfl, ((senseBecomesMated_changes row s).listKept rfl)⟩
  | rowArrival row => exact ⟨_, rfl, rowArrives_listKept row s⟩
  | rowRemoval row => exact ⟨_, rfl, senseReadsUnmated_listKept row s⟩
  | powerSettleExpiry row => exact ⟨_, rfl, settleExpires_listKept row s⟩
  | powerOffTimerExpiry row => exact ⟨_, rfl, ((powerOffExpires_changes row s).listKept rfl)⟩
  | onlineStabilityTimerExpiry row => exact ⟨_, rfl, ((stabilityExpires_changes row s).listKept rfl)⟩
  | positionBecomesStale pos => exact ⟨_, rfl, ageRunsOut_listKept pos s⟩
  | scanTimerExpiry pos moment => exact ⟨_, rfl, scanExpires_listKept pos moment s⟩
  | tagReadTimerExpiry row => exact ⟨_, rfl, tagReadTimesOut_listKept row s⟩
  | lockHoldTimerExpiry => exact ⟨_, rfl, ((holdExpires_changes s).listKept rfl)⟩
  | delayTimerExpiry pos => exact ⟨_, rfl, delayRunsOut_listKept pos s⟩
  | audibleTimerExpiry pos => exact ⟨_, rfl, audibleRunsOut_listKept pos s⟩
  | chimePeriodEnd => exact ⟨_, rfl, ((changes_onCadence s _).listKept rfl)⟩
  | flashPeriodEnd => exact ⟨_, rfl, ((changes_onCadence s _).listKept rfl)⟩
  | cadenceOnPartEnd timer => exact ⟨_, rfl, ((changes_onCadence s _).listKept rfl)⟩
  | outenAsserted => exact ⟨_, rfl, outenRises_listKept s⟩
  | outenDeasserted => exact ⟨_, rfl, ((changes_onPins s _).listKept rfl).leave (changes_onCadence _ _) rfl⟩
  | nop arg => exact ⟨_, rfl, takeRequest_listKept _ arg s (fun t => (respond_changes _ t).listKept rfl)⟩
  | getFront arg => exact ⟨_, rfl, takeRequest_listKept _ arg s (fun t => (respond_changes _ t).listKept rfl)⟩
  | getPosition arg => exact ⟨_, rfl, takeRequest_listKept _ arg s (answerPosition_listKept arg)⟩
  | getStatus arg => exact ⟨_, rfl, takeRequest_listKept _ arg s (fun t => (respond_changes _ t).listKept rfl)⟩
  | lock arg => exact ⟨_, rfl, takeRequest_listKept _ arg s (answerLock_listKept arg)⟩
  | unlock arg => exact ⟨_, rfl, takeRequest_listKept _ arg s (fun t => (answerUnlock_changes t).listKept rfl)⟩
  | frameError => exact ⟨_, rfl, takeFrame_listKept s ((respond_changes _ s).listKept rfl)⟩
  | unknownCommand command arg =>
    exact ⟨_, rfl, takeRequest_listKept command arg s (fun t => (respond_changes _ t).listKept rfl)⟩
  | vehicleState speed gear closures =>
    exact ⟨_, rfl, receive_listKept s ((takeVehicleState_changes speed gear closures s).listKept rfl)⟩
  | freshnessTimerExpiry => exact ⟨_, rfl, ((freshnessExpires_changes s).listKept rfl)⟩
  | degradeTimerExpiry => exact ⟨_, rfl, ((degradeExpires_changes s).listKept rfl)⟩
  | mapTimerExpiry => exact ⟨_, rfl, ((mapExpires_changes s).listKept rfl)⟩
  | mapRequest => exact ⟨_, rfl, receive_listKept s ((takeMapRequest_changes s).listKept rfl)⟩
  | reminderAck mask => exact ⟨_, rfl, receive_listKept s ((takeAck_changes mask s).listKept rfl)⟩
  | readParam id value =>
    exact ⟨_, rfl, takeService_listKept _ _ (fun t => (answerReadParam_changes id value t).listKept rfl) s⟩
  | writeParam id value =>
    exact ⟨_, rfl, takeService_listKept _ _ (fun t => (answerWriteParam_changes id value t).listKept rfl) s⟩
  | clearChildList => exact ⟨_, rfl, takeService_listKept _ _ answerClear_listKept s⟩
  | readChildEntry index =>
    exact ⟨_, rfl, takeService_listKept _ _ (fun t => (answerReadEntry_changes index t).listKept rfl) s⟩
  | readRow row => exact ⟨_, rfl, takeService_listKept _ _ (fun t => (answerReadRow_changes row t).listKept rfl) s⟩
  | unknownServiceRequest kind =>
    exact ⟨_, rfl, takeService_listKept kind _ (fun t => (sendReply_changes _ t).listKept rfl) s⟩
  | writeCompletion outcome => exact ⟨_, rfl, writeCompletes_listKept outcome s⟩
  | transmitAcknowledged => exact ⟨_, rfl, ((transmitAcked_changes s).listKept rfl)⟩
  | busOff => exact ⟨_, rfl, listKept_outsideReset s ((busGoesOff_changes s).listKept rfl)⟩
  | busOffRecovery => exact ⟨_, rfl, ((busRecovers_changes s).listKept rfl)⟩
  | matingDebounceStop row => exact ⟨_, rfl, senseReadsUnmated_listKept row s⟩
  | supplyBelowHoldThreshold edge => exact ⟨_, rfl, ((supplyEdge_changes edge s).listKept rfl)⟩
  | resetRelease => exact ⟨_, rfl, ((releaseReset_changes s).listKept rfl)⟩

/-! ### The idle step -/

/-- The scan timers count, and no contest moves. -/
theorem countTimers_listKept (s : State) : ListKept s (countTimers s) :=
  listKept_of_contests rfl (fun p => .inl (by
    unfold countTimers State.coil
    rw [PerPos.get_mapIdx]))

theorem whenTrue_listKept {c : State → Bool} {f : State → State} (h : ∀ t, ListKept t (f t)) (s : State) :
    ListKept s (whenTrue c f s) := listKept_ite (h s) (ListKept.refl s)

theorem periodExpiries_listKept (chime flash : Bool) (s : State) : ListKept s (periodExpiries chime flash s) :=
  have h : ListKept s (if chime then s.onCadence Cadence.chimeEnds else s) :=
    listKept_ite ((changes_onCadence s _).listKept rfl) (ListKept.refl s)
  listKept_ite (h.leave (changes_onCadence _ _) rfl) h

theorem ignSettles_listKept (s : State) : ListKept s (ignSettles s) :=
  listKept_ite ((changes_onMonitor s _).listKept rfl)
    (listKept_ite ((ignAsserts_changes s).listKept rfl) ((ignDeasserts_changes s).listKept rfl))

theorem rowExpiries_listKept (r : Row) (s : State) : ListKept s (rowExpiries r s) := by
  unfold rowExpiries
  exact (((whenTrue_listKept (rowArrives_listKept r) s).andThen (whenTrue_listKept (settleExpires_listKept r) _)).andThen
    (whenTrue_listKept (fun t => (powerOffExpires_changes r t).listKept rfl) _)).andThen
    (whenTrue_listKept (fun t => (stabilityExpires_changes r t).listKept rfl) _)

theorem positionExpiries_listKept (p : Pos) (s : State) : ListKept s (positionExpiries p s) := by
  unfold positionExpiries
  exact (((whenTrue_listKept (fun t => (goStale_changes p t).listKept rfl) s).andThen
    (whenTrue_listKept (fun t => scanExpires_listKept p t.monitor.now t) _)).andThen
    (whenTrue_listKept (delayRunsOut_listKept p) _)).andThen (whenTrue_listKept (audibleRunsOut_listKept p) _)

theorem bodyExpiries_listKept (s : State) : ListKept s (bodyExpiries s) := by
  unfold bodyExpiries
  exact ((whenTrue_listKept (fun t => (freshnessExpires_changes t).listKept rfl) s).andThen
    (whenTrue_listKept (fun t => (degradeExpires_changes t).listKept rfl) _)).andThen
    (whenTrue_listKept (fun t => (mapExpires_changes t).listKept rfl) _)

theorem lateExpiries_listKept (s : State) : ListKept s (lateExpiries s) := by
  unfold lateExpiries
  exact ((whenTrue_listKept setHold_listKept s).andThen (whenTrue_listKept restExpires_listKept _)).andThen
    (whenTrue_listKept endWakeSettle_listKept _)

theorem monitorExpiries_listKept (s : State) : ListKept s (monitorExpiries s) :=
  (whenTrue_listKept (fun t => (secondsTick_changes t).listKept rfl) s).andThen (whenTrue_listKept ignSettles_listKept _)

theorem takeExpiries_listKept (chime flash : Bool) (s : State) : ListKept s (takeExpiries chime flash s) := by
  unfold takeExpiries
  exact (((((((periodExpiries_listKept chime flash s).andThen (monitorExpiries_listKept _)).andThen
    (listKept_forEach rowExpiries_listKept _ _)).andThen (whenTrue_listKept slotExpires_listKept _)).andThen
    (listKept_forEach (fun r t => whenTrue_listKept (tagReadTimesOut_listKept r) t) _ _)).andThen
    (listKept_forEach positionExpiries_listKept _ _)).andThen
    (whenTrue_listKept (fun t => (holdExpires_changes t).listKept rfl) _)).andThen
    ((bodyExpiries_listKept _).andThen (lateExpiries_listKept _))

theorem tick_listKept (s : State) : ListKept s (tick s) :=
  listKept_ite ((changes_onMonitor s _).listKept rfl) ((countTimers_listKept s).andThen (takeExpiries_listKept _ _ _))

/-! ### The step -/

/-- A step takes the front command, or lets 1 ms pass, and either keeps the list. -/
theorem step_listKept {s t : State} (h : step s = .next t) : ListKept s t := by
  unfold step at h
  split at h
  case h_1 c rest _ =>
    obtain ⟨u, hu, hk⟩ := exec_listKept c { s with pending := rest }
    exact Host.Outcome.next.inj (hu.symm.trans h) ▸ hk
  case h_2 => exact Host.Outcome.next.inj h ▸ tick_listKept s

end Sys2Proof.Machine

namespace Sys2Proof.Certificates

open Sys2Proof.Machine

/-- Settles O56: that tags stand apart is one of the invariants of `Keeps`; the list's whole form is kept by every operation
of the Child Seat Unit, above all by the chain of displacements. -/
theorem everyStepKeepsTagsApart : Obligations.EveryStepKeepsTagsApart :=
  ⟨fun _ _ hs h => (step_keeps h).tags hs, fun _ _ hs h => step_listKept h hs⟩

end Sys2Proof.Certificates
end

section
/-! PROOFS. CLEAR_CHILD_LIST (R81, R113, R164). -/

namespace Sys2Proof.Machine

theorem answerClear_locked {s : State} (h : s.pub.locked = true) : answerClear s = sendReply ⟨3, 2, [], 0⟩ s := if_pos h

theorem answerClear_busy {s : State} (h : s.pub.locked = false) (hw : s.settings.write.isSome = true) :
    answerClear s = sendReply ⟨3, 1, [], 0⟩ s := by
  unfold answerClear
  rw [if_neg (by simp [h]), if_pos hw]
  rfl

/-- The OK reply waits and the list is cleared, before the positions are evaluated. -/
def listCleared (s : State) : State := clearChildren (sendReply ⟨3, 0, [], 0⟩ s)

/-- The evaluations and the batch that follow a cleared list, up to the arbiter's choice. -/
def clearingEnds (s : State) : State :=
  arbitrate (takeReminders (publish (evaluateEvidence (sendReply ⟨3, 0, [], 0⟩ s) (listCleared s))))

theorem answerClear_clears {s : State} (h : s.pub.locked = false) (hw : s.settings.write = none) :
    arbitrate (answerClear s) = clearingEnds s := by
  unfold answerClear
  rw [if_neg (by simp [h]), if_neg (by simp [hw])]
  rfl

theorem clearingEnds_changes (s : State) :
    ChangesOnly evaluationBlocks (listCleared s) (clearingEnds s) :=
  (((evaluateEvidence_changes _ _).widen.andThen (publish_changes _)).andThen (takeReminders_changes _)).andThen
    (arbitrate_changes _)

theorem clearingEnds_quiet (s : State) : Quiet (listCleared s) (clearingEnds s) :=
  (((evaluateEvidence_changes _ _).quiet.andThen (publish_quiet _)).andThen (takeReminders_changes _).quiet).andThen
    (arbitrate_quiet _)

theorem listCleared_changes (s : State) : ChangesOnly [.child, .body] s (listCleared s) :=
  (sendReply_changes _ s).widen.andThen (clearChildren_changes _)

/-! ### What the clearing leaves (R63, R81) -/

theorem listCleared_entries (s : State) : (listCleared s).child.entries = [] := by
  unfold listCleared
  rw [clearChildren_entries]

theorem listCleared_coil (s : State) (p : Pos) : (listCleared s).coil p
    = { s.coil p with contest := none, urgent := (s.coil p).urgent || coilFitted s p } := by
  unfold listCleared
  rw [clearChildren_coil]
  rfl

theorem listCleared_tagTimers (s : State) : (listCleared s).child.tagTimers = s.child.tagTimers := by
  unfold listCleared clearChildren raiseAllUrgent
  rw [(forEach_entries raiseUrgent_entries allPos _).2, (clearContests_entries allPos _).2]
  rfl

theorem listCleared_reply (s : State) : (listCleared s).body.reply = some ⟨3, 0, [], 0⟩ := by
  unfold listCleared
  rw [(clearChildren_changes _).body]
  rfl

theorem exec_clearChildList {s : State} (h : Serving s) :
    exec .clearChildList s = .next (arbitrate (answerClear (restartRest s))) :=
  congrArg Host.Outcome.next (takeService_serving h _ _ _)

end Sys2Proof.Machine

namespace Sys2Proof.Certificates

open Sys2Proof.Machine

/-- Settles O46: the lock is judged first and the write in flight next; then the list, the contests and the urgent requests are
those of `clearChildren`, which the evaluations after it leave. -/
theorem childListIsCleared : Obligations.ChildListIsCleared := by
  intro s hs
  have hrest := restartRest_changes s
  have hexec := exec_clearChildList hs
  refine ⟨fun hl hw => ⟨clearingEnds (restartRest s), ?_, ?_, fun p => ?_, ?_, ?_, ?_⟩, fun hl => ?_, fun hl hw => ?_⟩
  · rw [hexec, answerClear_clears (by rw [hrest.pub]; exact hl) (by rw [hrest.settings]; exact hw)]
  · rw [(clearingEnds_changes _).child, listCleared_entries]
  · have hcoil : (restartRest s).coil p = s.coil p := by
      unfold State.coil
      rw [hrest.child]
    have hfit : coilFitted (restartRest s) p = coilFitted s p := sensorFlag_congr hrest.straps (by rw [hrest.settings]) 2
    have hends : (clearingEnds (restartRest s)).coil p = (listCleared (restartRest s)).coil p := by
      unfold State.coil
      rw [(clearingEnds_changes _).child]
    rw [hends, listCleared_coil, hcoil, hfit]
  · rw [(clearingEnds_changes _).child, listCleared_tagTimers, hrest.child]
  · rw [(clearingEnds_quiet _).body]
    dsimp only
    rw [listCleared_reply]
  · exact (hrest.widen.andThen (listCleared_changes _)).andThen (clearingEnds_changes _)
  · exact repliesWith_of_exec (hexec.trans (by rw [answerClear_locked (by rw [hrest.pub]; exact hl)]))
  · exact repliesWith_of_exec (hexec.trans (by
      rw [answerClear_busy (by rw [hrest.pub]; exact hl) (by rw [hrest.settings]; exact hw)]))

end Sys2Proof.Certificates
end

section
/-! PROOFS. IGN asserts in REST: the lists of every position that is not held, their signals and their fold (R117 to
R131, R156, R171). -/

namespace Sys2Proof.Machine

/-! ### The evaluation of all lists at the end of an event -/

theorem endEvent_signals (s : State) (p : Pos) : SameSignals s (endEvent s) p :=
  (endEvent_changes s).signals (endEvent_quiet s) p

/-- An evaluation of all lists on the reminders as they stand, up to the event's end (R121 to R129). -/
theorem allListsEvaluated_rem (s : State) (p : Pos) :
    (remHeld (endEvent (evaluateAllLists s)) p = true → (endEvent (evaluateAllLists s)).rem.get p = s.rem.get p)
    ∧ (remHeld (endEvent (evaluateAllLists s)) p = false → RemTimersInv (s.rem.get p) →
      (endEvent (evaluateAllLists s)).rem.get p = listed (endEvent (evaluateAllLists s)) p (s.rem.get p)) := by
  have hs : SameSignals s (endEvent (evaluateAllLists s)) p :=
    (evaluatesLists_self.forEach_signals p allPos s).trans (endEvent_signals _ p)
  rw [hs.remHeld, hs.listed, (endEvent_changes _).rem]
  exact ⟨fun h => evaluatesLists_self.forEach_held allPos h,
    fun h hr => forEach_evaluateLists_rem allPos (mem_allPos p) h hr⟩

theorem allListsEvaluated_results (s : State) (p : Pos) : ResultsStand (endEvent (evaluateAllLists s)) p :=
  (resultsStand_evaluateAllLists p s).congr (endEvent_signals _ p) (by rw [(endEvent_changes _).rem])

/-! ### IGN asserts in REST -/

/-- The part in RUN by IGN, before the lists are evaluated (R156, R171). -/
def ignRun (s : State) : State :=
  ((s.onPins (fun u => { u with ignLine := true })).onMonitor (fun m =>
    { m with ignDebounce := none, ign := true, device := .run, restTimer := none })).onBody Body.ignOn

theorem ignAsserts_rest {s : State} (hi : s.monitor.ign = false) (hd : s.monitor.device = .rest) :
    ignAsserts s = endEvent (evaluateAllLists (ignRun s)) := by
  have hc : ¬ (s.monitor.ign || s.monitor.device == .sleep) = true := by
    rw [hi, hd]
    decide
  refine (if_neg hc).trans ?_
  unfold ignRun State.onMonitor State.onPins
  simp only [hd, if_true]

theorem ignAsserts_rest_quiet {s : State} (hi : s.monitor.ign = false) (hd : s.monitor.device = .rest) :
    Quiet (ignRun s) (ignAsserts s) := by
  rw [ignAsserts_rest hi hd]
  exact (evaluateAllLists_quiet _).andThen (endEvent_quiet _)

/-- A quiet change outside REST leaves the rest timer, and so the Monitor. -/
theorem Quiet.monitor_of_run {s t : State} (h : Quiet s t) (hd : s.monitor.device = .run) : t.monitor = s.monitor := by
  obtain h | h := h.monitor
  · exact h
  · rw [h, restartRest_monitor, hd]
    rfl

theorem ignOn_degrade (b : Body) : b.ignOn.degrade = if b.vehicle.freshness = .stale then some 2000 else b.degrade := by
  unfold Body.ignOn
  split <;> rfl

theorem ignOn_vehicle (b : Body) : b.ignOn.vehicle = b.vehicle := by
  unfold Body.ignOn
  split <;> rfl

/-! ### The lists of a position (R120, R121) -/

theorem isFront_eq (p : Pos) : isFront p = decide (p.num ≤ 3) := by
  obtain ⟨r, k⟩ := p
  cases r <;> cases k <;> rfl

theorem termValue_eq (s : State) (p : Pos) :
    termValue s p = fun w => signal s p (w.toNat % 16) != w.getLsbD 4 := funext fun w => by
  unfold termValue
  cases w.getLsbD 4 <;> simp

theorem startResult_eq (s : State) (p : Pos) : startResult s p
    = foldTerms (fun w => signal s p (w.toNat % 16) != w.getLsbD 4)
      (listTerms s.settings.active (if p.num ≤ 3 then 0 else 2)) := by
  unfold startResult listResult
  rw [termValue_eq, isFront_eq]
  simp only [decide_eq_true_eq]

theorem escalateResult_eq (s : State) (p : Pos) : escalateResult s p
    = foldTerms (fun w => signal s p (w.toNat % 16) != w.getLsbD 4)
      (listTerms s.settings.active (if p.num ≤ 3 then 1 else 3)) := by
  unfold escalateResult listResult
  rw [termValue_eq, isFront_eq]
  simp only [decide_eq_true_eq]

/-- The last term of a list joins the result of those before it (R121, steps 2 and 3). -/
theorem foldTerms_concat (value : Word16 → Bool) (first last : Word16) (terms : List Word16) :
    foldTerms value (first :: terms ++ [last]) = (if last.getLsbD 5 then foldTerms value (first :: terms) || value last
      else foldTerms value (first :: terms) && value last) := List.foldl_concat _ _ _ _

/-! ### The signals (R117 to R119, R156) -/

/-- The copy that the Body Port presents: of a DEGRADED one speed 255, gear DRIVE and every closure closed (R156). -/
theorem presented_fields (b : Body) :
    (presented b).speed.toNat = (if b.vehicle.freshness = .degraded then 255 else b.vehicle.speed.toNat)
    ∧ (presented b).gear = (if b.vehicle.freshness = .degraded then .drive else b.vehicle.gear)
    ∧ (presented b).closures = (if b.vehicle.freshness = .degraded then Closures.closed else b.vehicle.closures)
    ∧ (presented b).freshness = b.vehicle.freshness := by
  unfold presented
  by_cases h : b.vehicle.freshness = .degraded
  · rw [if_pos h, if_pos h, if_pos h, if_pos h, h]
    exact ⟨rfl, rfl, rfl, rfl⟩
  · rw [if_neg h, if_neg h, if_neg h, if_neg h]
    exact ⟨rfl, rfl, rfl, rfl⟩

theorem signal_moving (s : State) (p : Pos) : signal s p 3
    = (decide (s.body.vehicle.freshness = .degraded)
      || decide (s.body.vehicle.gear = .drive ∨ s.body.vehicle.gear = .reverse)) := by
  show ((presented s.body).gear == .drive || (presented s.body).gear == .reverse) = _
  obtain ⟨-, hg, -, -⟩ := presented_fields s.body
  rw [hg]
  by_cases h : s.body.vehicle.freshness = .degraded
  · simp [h]
  · cases hv : s.body.vehicle.gear <;> simp [h]

theorem signal_sliding (s : State) (p : Pos) : signal s p 5
    = (decide (s.body.vehicle.freshness = .degraded)
      || !(s.body.vehicle.closures.slidingLeft || s.body.vehicle.closures.slidingRight)) := by
  show slidingClosed (presented s.body).closures = _
  obtain ⟨-, -, hc, -⟩ := presented_fields s.body
  rw [hc]
  by_cases h : s.body.vehicle.freshness = .degraded
  · simp [h, slidingClosed, Closures.closed]
  · simp [h, slidingClosed]

theorem signal_closures (s : State) (p : Pos) : signal s p 4
    = (decide (s.body.vehicle.freshness = .degraded) || (signal s p 5 && !(s.body.vehicle.closures.frontLeft
      || s.body.vehicle.closures.frontRight || s.body.vehicle.closures.rear))) := by
  rw [signal_sliding]
  show allClosed (presented s.body).closures = _
  obtain ⟨-, -, hc, -⟩ := presented_fields s.body
  rw [hc]
  by_cases h : s.body.vehicle.freshness = .degraded
  · simp [h, allClosed, slidingClosed, Closures.closed]
  · simp only [h, allClosed, slidingClosed, if_false, decide_false, Bool.false_or, Bool.not_or]
    ac_rfl

/-- The anchors flag of a fitted position is bit 1 of its twentieth word (R14, R68). -/
theorem beltRequired_eq (s : State) (p : Pos) : beltRequired s p
    = (posFitted s p && decide ((s.row p.row).state ≠ .absent) && match s.pub.table.get p with
      | .smallOccupant | .adult => true
      | .childSeat | .childSeatRear | .childSeatForward =>
        !((wordAt (posWords s.settings.active p) 19).testBit 1 && (s.cls.get p).left.engaged && (s.cls.get p).right.engaged)
      | .indeterminate _ => decide (p.num ≤ 3)
      | .vacant | .object | .notInstalled | .notFitted => false) := by
  unfold beltRequired anchored anchorsFitted sensorFlag
  rw [isFront_eq, bne, beq_eq_decide, ← decide_not]
  cases posFitted s p
  · rfl
  · cases s.pub.table.get p <;> rfl

end Sys2Proof.Machine

namespace Sys2Proof.Certificates

open Sys2Proof.Machine

/-- Settles O9: the part is in RUN before its lists are evaluated, and the evaluation moves the reminders alone; the signals
are those of the copy that the Body Port presents. -/
theorem ignAssertsInRest : Obligations.IgnAssertsInRest := by
  refine ⟨?assertion, fun s p => ⟨startResult_eq s p, escalateResult_eq s p⟩, ?signals,
    fun value first last terms => ⟨rfl, rfl, foldTerms_concat value first last terms⟩⟩
  case assertion =>
    intro s hr hi hd
    have he := ignAsserts_rest hi hd
    have hq := ignAsserts_rest_quiet hi hd
    have hrem : (ignRun s).rem = s.rem := rfl
    refine ⟨ignAsserts s, ?_, ?_, ?_, ?_, fun p hh => ?_, fun p hh => ?_, ignAsserts_changes s⟩
    · exact congrArg Host.Outcome.next (outsideReset_apply hr ignAsserts)
    · rw [hq.monitor_of_run rfl]
      rfl
    · rw [hq.body]
      exact ignOn_degrade _
    · rw [hq.body]
      exact ignOn_vehicle _
    · rw [he] at hh ⊢
      obtain ⟨hs, hesc⟩ := allListsEvaluated_results (ignRun s) p hh
      exact ⟨hs, hesc, (allListsEvaluated_rem (ignRun s) p).2 hh⟩
    · rw [he] at hh ⊢
      exact (allListsEvaluated_rem (ignRun s) p).1 hh
  case signals =>
    intro s p
    dsimp only
    obtain ⟨hspeed, -, -, hfresh⟩ := presented_fields s.body
    have speed : (if decide (s.body.vehicle.freshness = .degraded) = true then 255 else s.body.vehicle.speed.toNat)
        = (presented s.body).speed.toNat := by rw [hspeed]; simp only [decide_eq_true_eq]
    rw [speed, ← signal_sliding s p]
    refine ⟨rfl, rfl, rfl, signal_moving s p, signal_closures s p, rfl, ?_, rfl, beltRequired_eq s p, ?_⟩
    · show ((presented s.body).freshness == .fresh) = _
      rw [hfresh, beq_eq_decide]
    · show ((s.cls.get p).buckle != .latched) = _
      rw [bne, beq_eq_decide, ← decide_not]

end Sys2Proof.Certificates
end

section
/-! PROOFS. What a completed read's result does to the child seat list and the contests, case by case (R67, R72 to R79). -/

namespace Sys2Proof.Machine

/-! ### One entry changed -/

/-- An entry replaced in its place in the order. -/
def putEntry (e e' : Entry) (s : State) : State :=
  s.onChild (fun c => { c with entries := c.entries.map (fun d => if d = e then e' else d) })

/-- An entry at the end of the list. -/
def appendEntry (e : Entry) (s : State) : State := s.onChild (fun c => { c with entries := c.entries ++ [e] })

/-- A change of a tag's entries is the change of the one that the list holds (R69). -/
theorem onEntry_eq_putEntry {s : State} (h : TagsInv s.child) {e : Entry} (he : e ∈ s.child.entries)
    (f : Entry → Entry) : onEntry e.tag f s = putEntry e (f e) s := by
  have hl : s.child.entries.map (fun d => if d.tag = e.tag then f d else d)
      = s.child.entries.map (fun d => if d = e then f e else d) := List.map_congr_left fun d hd => by
    by_cases hde : d = e
    · rw [if_pos hde, if_pos (congrArg Entry.tag hde), hde]
    · rw [if_neg hde, if_neg (fun ht => hde (h.unique hd he ht))]
  exact congrArg (fun l => s.onChild (fun c => { c with entries := l })) hl

/-- The entry of a tag that is found at p (R75 to R77). -/
def foundEntry (p : Pos) (o : Orientation) (n : BitVec 32) (e : Entry) : Entry :=
  { e with state := .present, orient := o, pos := p, confirmed := n }

theorem foundConfirm_eq_onEntry (p : Pos) (x : TagId) (o : Orientation) (s : State) :
    foundConfirm p x o s = onEntry x (foundEntry p o s.monitor.seconds) s := by
  have hl := foundConfirm_entries p x o s
  show s.onChild (fun c => { c with entries := (foundConfirm p x o s).child.entries }) = _
  rw [hl]
  rfl

theorem foundConfirm_eq_putEntry {s : State} (h : TagsInv s.child) {e : Entry} (he : e ∈ s.child.entries) (p : Pos)
    (o : Orientation) : foundConfirm p e.tag o s = putEntry e (foundEntry p o s.monitor.seconds e) s := by
  rw [foundConfirm_eq_onEntry, onEntry_eq_putEntry h he]

theorem entryOf_absent {s : State} {x : TagId} (h : ∀ e ∈ s.child.entries, e.tag ≠ x) : entryOf s x = none :=
  List.find?_eq_none.mpr fun e he => by simpa using h e he

/-! ### An entry gives way (R73, R78) -/

theorem vacating_of_free {m : List TagId} {q : Pos} {s : State} (h : standing s q = none) : vacating m q s = none :=
  List.find?_eq_none.mpr fun e he hs => List.find?_eq_none.mp h e he (Bool.and_eq_true _ _ ▸ hs).1

theorem vacate_free {n : Nat} {m : List TagId} {q : Pos} {v : Vacating} {s : State} (h : standing s q = none) :
    vacate (n + 1) m q v s = s := vacate_nobody (vacating_of_free h)

theorem vacating_nil (q : Pos) (s : State) : vacating [] q s = standing s q := by
  unfold vacating standing
  simp

theorem contestedBy_of_nobody {s : State} {x : TagId} (h : ∀ q, (s.coil q).contest ≠ some x) : contestedBy s x = [] :=
  List.eq_nil_iff_forall_not_mem.mpr fun q hq => h q (mem_contestedBy.mp hq)

theorem contestedBy_of_one {s : State} {x : TagId} {q : Pos} (h : ∀ r, (s.coil r).contest = some x ↔ r = q) :
    ∃ ps, contestedBy s x = q :: ps := by
  cases hc : contestedBy s x with
  | nil => exact absurd (hc ▸ mem_contestedBy.mpr ((h q).mpr rfl)) List.not_mem_nil
  | cons r ps => exact ⟨ps, by rw [(h r).mp (contestedBy_head hc)]⟩

/-- An entry that contests no position becomes MISSING (R73). -/
theorem vacates_uncontested {s : State} (h : TagsInv s.child) {q : Pos} {e : Entry} (hs : standing s q = some e)
    (hc : ∀ r, (s.coil r).contest ≠ some e.tag) (moved cause : Nat) : vacates q ⟨moved, some cause⟩ s
      = notify (childNotice .childSeatMissing q q.num 0 e.tag cause) (putEntry e { e with state := .missing } s) := by
  obtain ⟨he, -⟩ := standing_some hs
  have hnone := contestedBy_of_nobody hc
  unfold vacates
  rw [vacate_misses ((vacating_nil q s).trans hs) hnone rfl]
  unfold makeMissing
  rw [hnone, ← onEntry_eq_putEntry h he (fun d => { d with state := .missing })]
  rfl

/-- An entry moves to the one position that its tag contests, where no other stands (R73). -/
theorem vacates_contesting {s : State} (h : TagsInv s.child) {q p : Pos} {e : Entry} (hs : standing s q = some e)
    (hp : standing s p = none) (hc : ∀ r, (s.coil r).contest = some e.tag ↔ r = p) (v : Vacating) : vacates q v s
      = notify (childNotice .childSeatMoved p q.num p.num e.tag v.moved) (setContest p none
        (putEntry e { e with state := .present, pos := p, confirmed := s.monitor.seconds } s)) := by
  obtain ⟨he, -⟩ := standing_some hs
  obtain ⟨ps, hps⟩ := contestedBy_of_one hc
  have hclear : ∀ r, ((notify (childNotice .childSeatMoved p q.num p.num e.tag v.moved)
      (setContest p none (placeEntry e.tag p s))).coil r).contest ≠ some e.tag := fun r => by
    show ((setContest p none (placeEntry e.tag p s)).coil r).contest ≠ _
    rw [setContest_coil]
    split
    · nofun
    · rename_i hr
      exact fun hcr => hr ((hc r).mp hcr)
  unfold vacates
  rw [vacate_contested ((vacating_nil q s).trans hs) hps, vacate_free hp]
  unfold movedTo
  rw [if_pos (contestedBy_of_nobody hclear)]
  unfold placeEntry
  rw [onEntry_eq_putEntry h he]

theorem vacate_tags (n : Nat) (m : List TagId) (q : Pos) (v : Vacating) (s : State) :
    (vacate n m q v s).child.entries.map (·.tag) = s.child.entries.map (·.tag) := by
  have hmap : ∀ {f : Entry → Entry} (l : List Entry), (∀ e, (f e).tag = e.tag) →
      (l.map f).map (·.tag) = l.map (·.tag) := fun l hf => by
      rw [List.map_map]
      exact List.map_congr_left (fun e _ => hf e)
  refine vacate_induct (P := fun _ _ _ _ s t => t.child.entries.map (·.tag) = s.child.entries.map (·.tag))
    ?_ ?_ ?_ n m q v s
  · exact fun _ _ _ _ _ => rfl
  · intro _ _ q _ s e c _ _
    rw [(makeMissing_entries e.tag q c s).1, hmap _ (missTag_tag e.tag)]
  · intro _ _ q v s e p ps t _ _ ih
    rw [movedTo_entries, hmap _ (placeTag_tag e.tag p _), ih]

/-! ### FOUND X, by where X is (R74 to R77) -/

section
variable {s : State} (h : TagsInv s.child) {e : Entry} (he : e ∈ s.child.entries) {p : Pos} (o : Orientation)
include h he

/-- X stands at p (R75). -/
theorem takeFound_standing (hs : e.state ≠ .missing) (hp : e.pos = p) :
    takeFound p e.tag o s = putEntry e (foundEntry p o s.monitor.seconds e) s := by
  unfold takeFound
  rw [entryOf_mem h he]
  dsimp only
  rw [if_neg hs, if_pos hp, foundConfirm_eq_putEntry h he]

/-- X stands elsewhere, is PRESENT and its row is ONLINE (R77). -/
theorem takeFound_contest (hs : e.state = .present) (hp : e.pos ≠ p) (hr : (s.row e.pos.row).state = .online) :
    takeFound p e.tag o s = foundContest p e.pos e.tag s := by
  unfold takeFound
  rw [entryOf_mem h he]
  dsimp only
  rw [if_neg (by rw [hs]; nofun), if_neg hp, if_neg (by rw [hs]; nofun), if_neg (not_not_intro hr)]

/-- X stands elsewhere and is PROVISIONAL, or PRESENT in a row that is not ONLINE (R77). -/
theorem takeFound_moves (hp : e.pos ≠ p)
    (hs : e.state = .provisional ∨ (e.state = .present ∧ (s.row e.pos.row).state ≠ .online)) :
    takeFound p e.tag o s = foundMove p e.pos e.tag o
      (if e.state = .provisional then causeUnconfirmedEntry else causeOldRowLeft) s := by
  unfold takeFound
  rw [entryOf_mem h he]
  dsimp only
  obtain hs | ⟨hs, hr⟩ := hs
  · rw [if_neg (by rw [hs]; nofun), if_neg hp, if_pos hs, if_pos hs]
  · have hn : ¬ e.state = .provisional := by rw [hs]; nofun
    rw [if_neg (by rw [hs]; nofun), if_neg hp, if_neg hn, if_neg hn, if_pos hr]

/-- X is MISSING and no other stands at p (R76). -/
theorem takeFound_returns (hs : e.state = .missing) (hp : standing s p = none) : takeFound p e.tag o s
      = notify (childNotice .childSeatAdded p 0 p.num e.tag causeTagFound)
        (putEntry e (foundEntry p o s.monitor.seconds e) s) := by
  unfold takeFound
  rw [entryOf_mem h he]
  dsimp only
  rw [if_pos hs]
  unfold foundPlace vacates
  rw [vacate_free hp]
  dsimp only
  rw [entryOf_mem h he]
  dsimp only
  rw [foundConfirm_eq_putEntry h he]

end

/-- X, standing elsewhere, has moved to p, where no other stands, and contests no position any more (R77). -/
theorem foundMove_free {s : State} {p : Pos} (hp : standing s p = none) (q : Pos) (x : TagId) (o : Orientation)
    (cause : Nat) : foundMove p q x o cause s
      = notify (childNotice .childSeatMoved p q.num p.num x cause)
      (forEach (contestedBy s x) (fun r => setContest r none) (foundConfirm p x o s)) := by
  unfold foundMove
  rw [vacate_free hp]
  rfl

theorem contestsOfFound_coil (p : Pos) (x : TagId) (o : Orientation) (s : State) (q : Pos) :
    (forEach (contestedBy s x) (fun r => setContest r none) (foundConfirm p x o s)).coil q
      = { s.coil q with contest := if (s.coil q).contest = some x then none else (s.coil q).contest } := by
  rw [clearContests_coil (contestedBy_nodup s x), foundConfirm_coil]
  simp only [mem_contestedBy]
  split <;> rfl

/-- X is absent: an entry standing at p gives way, and X is appended to a list that is not full (R76). -/
theorem takeFound_appends {s : State} {x : TagId} (hx : ∀ e ∈ s.child.entries, e.tag ≠ x)
    (hl : s.child.entries.length < 16) (p : Pos) (o : Orientation) : takeFound p x o s
      = notify (childNotice .childSeatAdded p 0 p.num x causeTagFound) (appendEntry
        ⟨x, o, .present, p, s.monitor.seconds, s.monitor.seconds⟩ (vacates p ⟨causeAbsenceConfirmed, some causeDisplaced⟩ s)) := by
  have htags := vacate_tags 16 [] p ⟨causeAbsenceConfirmed, some causeDisplaced⟩ s
  have hlen := vacate_length 16 [] p ⟨causeAbsenceConfirmed, some causeDisplaced⟩ s
  unfold takeFound
  rw [entryOf_absent hx]
  unfold foundPlace vacates
  dsimp only
  generalize vacate 16 [] p ⟨causeAbsenceConfirmed, some causeDisplaced⟩ s = u at htags hlen
  have hu : entryOf u x = none := entryOf_absent fun e he ht => by
    have hm : x ∈ u.child.entries.map (·.tag) := ht ▸ List.mem_map_of_mem he
    rw [htags] at hm
    obtain ⟨d, hd, hdt⟩ := List.mem_map.mp hm
    exact hx d hd hdt
  rw [hu]
  unfold appendEntry State.onChild
  dsimp only
  rw [if_neg (by omega)]

/-- The oldest MISSING entry is the first (R76). -/
theorem evictMissing_first {l r : List Entry} {e : Entry} (he : e.state = .missing)
    (hl : ∀ d ∈ l, d.state ≠ .missing) : evictMissing (l ++ e :: r) = l ++ r := by
  unfold evictMissing
  rw [List.eraseP_append_right _ (fun d hd => by simpa using hl d hd), List.eraseP_cons_of_pos (by simpa using he)]

/-- X is absent from a list of 16, and no other stands at p (R76). -/
theorem takeFound_evicts {s : State} {x : TagId} (hx : ∀ e ∈ s.child.entries, e.tag ≠ x)
    (hl : s.child.entries.length = 16) {p : Pos} (hp : standing s p = none) (o : Orientation) : takeFound p x o s
      = notify (childNotice .childSeatAdded p 0 p.num x causeTagFound) (s.onChild (fun c => { c with
        entries := evictMissing c.entries ++ [⟨x, o, .present, p, s.monitor.seconds, s.monitor.seconds⟩] })) := by
  unfold takeFound
  rw [entryOf_absent hx]
  unfold foundPlace vacates
  rw [vacate_free hp]
  dsimp only
  rw [entryOf_absent hx]
  unfold State.onChild
  dsimp only
  rw [if_pos (by omega)]

/-! ### Contests before a FOUND X (R72) -/

theorem clearFaults_contest (p : Pos) (s : State) : ((clearFaults p s).coil p).contest = (s.coil p).contest := by
  unfold clearFaults
  rw [State.coil_onCoil, if_pos rfl]

theorem contestBeforeFound_none {p : Pos} {x : TagId} {s : State} (h : (s.coil p).contest = none) :
    contestBeforeFound p x s = s := by
  unfold contestBeforeFound
  rw [h]

theorem contestBeforeFound_other {p : Pos} {x y : TagId} {s : State} (h : (s.coil p).contest = some y) (hy : y ≠ x) :
    contestBeforeFound p x s = setContest p none s := by
  unfold contestBeforeFound
  rw [h]
  exact if_pos hy

/-- X stands elsewhere: its own position is asked for. -/
theorem contestBeforeFound_elsewhere {p : Pos} {s : State} (ht : TagsInv s.child) {e : Entry} (he : e ∈ s.child.entries)
    (h : (s.coil p).contest = some e.tag) (hs : e.state ≠ .missing) (hp : e.pos ≠ p) :
    contestBeforeFound p e.tag s = raiseUrgent e.pos s := by
  unfold contestBeforeFound
  rw [h]
  dsimp only
  rw [if_neg (not_not_intro rfl), entryOf_mem ht he]
  exact if_pos ⟨hs, hp⟩

theorem contestBeforeFound_stays {p : Pos} {x : TagId} {s : State} (h : (s.coil p).contest = some x)
    (hx : ∀ e ∈ s.child.entries, e.tag = x → e.state = .missing ∨ e.pos = p) : contestBeforeFound p x s = s := by
  unfold contestBeforeFound
  rw [h]
  dsimp only
  rw [if_neg (not_not_intro rfl)]
  split
  · rename_i e he
    obtain ⟨hm, ht⟩ := entryOf_some he
    exact if_neg (fun ⟨hs, hp⟩ => (hx e hm ht).elim hs hp)
  · rfl

/-! ### NONE (R72, R78) -/

/-- No tag but one elsewhere contests a position, once the contest at p has cleared. -/
theorem clearContest_contest_iff {p : Pos} {x : TagId} {s : State} (q : Pos) :
    ((setContest p none s).coil q).contest = some x ↔ q ≠ p ∧ (s.coil q).contest = some x := by
  rw [setContest_coil]
  split
  · rename_i h
    exact ⟨nofun, fun hq => absurd h hq.1⟩
  · rename_i h
    exact ⟨fun hq => ⟨h, hq⟩, fun hq => hq.2⟩

theorem takeNone_free {p : Pos} {s : State} (h : standing s p = none) : takeNone p s = setContest p none s := by
  have hs : standing (setContest p none s) p = none := h
  unfold takeNone vacates
  exact vacate_free hs

end Sys2Proof.Machine

namespace Sys2Proof.Certificates

open Sys2Proof.Machine

/-- Settles O28: one equation of the model for each case; where an entry gives way, it stands alone at p, and the position that
it moves to is free. -/
theorem tagResultsActOnTheList : Obligations.TagResultsActOnTheList := by
  intro s p x o ht
  refine ⟨rfl, rfl, ?uncontested, ?contestedByOther, ?contestedByX, ?standing, ?contests, ?moves, ?returns, ?appends,
    ?evicts, ?nobody, ?misses, ?gives⟩
  case uncontested =>
    intro hc
    exact congrArg (takeFound p x o) (contestBeforeFound_none ((clearFaults_contest p s).trans hc))
  case contestedByOther =>
    intro y hc hy
    exact congrArg (takeFound p x o) (contestBeforeFound_other ((clearFaults_contest p s).trans hc) hy)
  case contestedByX =>
    intro hc
    have hc' := (clearFaults_contest p s).trans hc
    refine ⟨?_, fun hx => congrArg (takeFound p x o) (contestBeforeFound_stays hc' hx)⟩
    rintro e he rfl hs hp
    exact congrArg (takeFound p e.tag o) (contestBeforeFound_elsewhere (s := clearFaults p s) ht he hc' hs hp)
  case standing =>
    rintro e he rfl hs
    obtain ⟨hp, hm⟩ := standsAt_iff.mp hs
    exact takeFound_standing ht he o hm hp
  case contests =>
    rintro e he rfl hs hp hr
    rw [takeFound_contest ht he o hs hp hr]
    refine ⟨(raiseUrgent_entries e.pos _).1, ?_, ?_, foundContest_changes p e.pos e.tag s⟩
    · refine (raiseUrgent_contest e.pos _ p).trans ?_
      rw [setContest_coil, if_pos rfl]
    · unfold foundContest
      rw [raiseUrgent_coil, if_pos rfl, setContest_coil, if_neg hp, (setContest_steady p _ s).coilFitted]
  case moves =>
    rintro e he rfl hp hfree hs
    obtain ⟨hent, htimers⟩ := clearContests_entries (contestedBy s e.tag) (foundConfirm p e.tag o s)
    refine ⟨_, ?_, ?_, contestsOfFound_coil p e.tag o s, htimers, ?_⟩
    · rw [takeFound_moves ht he o hp hs, foundMove_free hfree]
      split <;> rfl
    · rw [hent, foundConfirm_eq_putEntry ht he]
      rfl
    · exact (foundConfirm_changes p e.tag o s).andThen (changesOnly_forEach (fun r t => setContest_changes r none t) _ _)
  case returns =>
    rintro e he rfl hs hfree
    exact takeFound_returns ht he o hs hfree
  case appends =>
    intro hx hl
    have h := takeFound_appends hx hl p o
    refine ⟨fun hfree => ?_, fun y hy hc => ?_, fun y q hy _ hfree hc => ?_⟩
    · rw [h, vacates, vacate_free hfree]
      rfl
    · rw [h, vacates_uncontested ht hy hc]
      rfl
    · rw [h, vacates_contesting ht hy hfree hc]
      rfl
  case evicts =>
    intro l e r hx hl hfree hes he hmiss
    rw [takeFound_evicts hx hl hfree]
    unfold State.onChild
    dsimp only at hes ⊢
    rw [hes, evictMissing_first he hmiss]
    rfl
  case nobody =>
    intro hfree
    exact takeNone_free hfree
  case misses =>
    intro y hy hc
    exact vacates_uncontested (s := setContest p none s) ht hy
      (fun r hr => (clearContest_contest_iff r).mp hr |>.elim (hc r)) _ _
  case gives =>
    intro y q hy hq hfree hc
    refine vacates_contesting (s := setContest p none s) ht hy hfree (fun r => (clearContest_contest_iff r).trans ?_) _
    exact ⟨fun ⟨hr, h⟩ => (hc r hr).mp h, fun h => h ▸ ⟨hq, (hc q hq).mpr rfl⟩⟩

end Sys2Proof.Certificates
end

section
/-! PROOFS. The band after an F update and after a first sample (R86 to R88). -/

namespace Sys2Proof.Machine

variable {b : BandSet}

/-- The load reaches a band's threshold where the band of a first sample is that one or a higher one (R88). -/
theorem th_le_iff_le_firstBand (h : ThresholdsOrdered b.th1 b.th2 b.th3 b.h) (f : Nat) {k : Nat} (h1 : 1 ≤ k)
    (h3 : k ≤ 3) : b.th k ≤ f ↔ k ≤ firstBand b f := by
  obtain ⟨_, h12, h23⟩ := h
  have hk : k = 1 ∨ k = 2 ∨ k = 3 := by omega
  unfold firstBand BandSet.th
  obtain rfl | rfl | rfl := hk <;> simp only [Nat.reduceLeDiff, if_true, if_false, Nat.reduceEqDiff] <;> split_ifs <;> omega

theorem firstBand_le (b : BandSet) (f : Nat) : firstBand b f ≤ 3 := by
  unfold firstBand
  split_ifs <;> omega

/-- The next climb point is reached where a first sample would take a higher band. -/
theorem climbs_iff (h : ThresholdsOrdered b.th1 b.th2 b.th3 b.h) (f band : Nat) :
    (band < 3 ∧ b.th (band + 1) ≤ f) ↔ band < firstBand b f := by
  have hfirst := firstBand_le b f
  constructor
  · rintro ⟨hlt, hth⟩
    exact (th_le_iff_le_firstBand h f (Nat.le_add_left 1 band) hlt).mp hth
  · intro hlt
    exact ⟨by omega, (th_le_iff_le_firstBand h f (Nat.le_add_left 1 band) (by omega)).mpr hlt⟩

/-- The rises of R87 end at the band of a first sample, unless the band held is higher. -/
theorem riseBand_eq (h : ThresholdsOrdered b.th1 b.th2 b.th3 b.h) (f : Nat) : ∀ (fuel band : Nat),
    3 ≤ band + fuel → riseBand b f fuel band = max band (firstBand b f)
  | 0, band, hfuel => (max_eq_left ((firstBand_le b f).trans hfuel)).symm
  | fuel + 1, band, hfuel => by
    have hreach : (decide (band < 3) && decide (b.th (band + 1) ≤ f)) = true ↔ band < firstBand b f := by
      rw [Bool.and_eq_true, decide_eq_true_eq, decide_eq_true_eq]
      exact climbs_iff h f band
    unfold riseBand
    by_cases hlt : band < firstBand b f
    · rw [if_pos (hreach.mpr hlt), riseBand_eq h f fuel (band + 1) (by omega)]
      omega
    · rw [if_neg (fun hc => hlt (hreach.mp hc)), max_eq_left (not_lt.mp hlt)]

/-- The falls of R87 end at band 0 or at the first band from above whose drop point F reaches. -/
theorem fallBand_stops (b : BandSet) (f : Nat) : ∀ (fuel band : Nat), band ≤ fuel →
    fallBand b f fuel band ≤ band
    ∧ (0 < fallBand b f fuel band → b.th (fallBand b f fuel band) - b.h ≤ f)
    ∧ (fallBand b f fuel band < band → f < b.th (fallBand b f fuel band + 1) - b.h)
  | 0, band, hfuel => ⟨le_rfl, fun hpos => absurd hpos (Nat.not_lt.mpr hfuel), fun hlt => absurd hlt (Nat.lt_irrefl _)⟩
  | fuel + 1, band, hfuel => by
    unfold fallBand
    by_cases hfall : (decide (0 < band) && decide (f < b.th band - b.h)) = true
    · rw [if_pos hfall]
      rw [Bool.and_eq_true, decide_eq_true_eq, decide_eq_true_eq] at hfall
      obtain ⟨hpos, hlow⟩ := hfall
      obtain ⟨hle, hheld, hfell⟩ := fallBand_stops b f fuel (band - 1) (by omega)
      refine ⟨by omega, hheld, fun _ => ?_⟩
      obtain hlt | heq := Nat.lt_or_eq_of_le hle
      · exact hfell hlt
      · rw [heq, Nat.sub_add_cancel hpos]
        exact hlow
    · rw [if_neg hfall]
      rw [Bool.and_eq_true, decide_eq_true_eq, decide_eq_true_eq] at hfall
      exact ⟨le_rfl, fun hpos => not_lt.mp (fun hlow => hfall ⟨hpos, hlow⟩), fun hlt => absurd hlt (Nat.lt_irrefl _)⟩

/-- A band stays where F reaches its drop point. -/
theorem fallBand_of_reached {f band : Nat} (h : 0 < band → b.th band - b.h ≤ f) : ∀ fuel, fallBand b f fuel band = band
  | 0 => rfl
  | fuel + 1 => by
    unfold fallBand
    refine if_neg (fun hfall => ?_)
    rw [Bool.and_eq_true, decide_eq_true_eq, decide_eq_true_eq] at hfall
    exact Nat.not_lt.mpr (h hfall.1) hfall.2

section
variable (h : ThresholdsOrdered b.th1 b.th2 b.th3 b.h) {f band : Nat}
include h

/-- A band with its next climb point reached rises; any other one falls, or stays (R87). -/
theorem moveBand_eq : moveBand b f band = if band < firstBand b f then firstBand b f else fallBand b f 3 band := by
  unfold moveBand
  rw [riseBand_eq h f 3 band (Nat.le_add_left 3 band)]
  dsimp only
  by_cases hlt : band < firstBand b f
  · rw [max_eq_right hlt.le, if_pos hlt.ne', if_pos hlt]
  · rw [max_eq_left (not_lt.mp hlt), if_neg (not_not.mpr rfl), if_neg hlt]

theorem moveBand_climbs (hlt : band < firstBand b f) : moveBand b f band = firstBand b f :=
  (moveBand_eq h).trans (if_pos hlt)

theorem moveBand_of_no_climb (hlt : ¬ band < firstBand b f) : moveBand b f band = fallBand b f 3 band :=
  (moveBand_eq h).trans (if_neg hlt)

theorem moveBand_le (hb : band ≤ 3) : moveBand b f band ≤ 3 := by
  by_cases hlt : band < firstBand b f
  · rw [moveBand_climbs h hlt]
    exact firstBand_le b f
  · rw [moveBand_of_no_climb h hlt]
    obtain ⟨hle, -, -⟩ := fallBand_stops b f 3 band hb
    exact hle.trans hb

end

end Sys2Proof.Machine

namespace Sys2Proof.Certificates

open Sys2Proof.Machine

/-- Settles O29: F is at the next climb point just where a first sample would take a higher band, and the rises end there; the
falls end at the first drop point that F reaches. -/
theorem bandsHoldTheLoad : Obligations.BandsHoldTheLoad := by
  intro b f band hb hvalid
  have h := thresholdsValid_iff.mp hvalid
  have hno : (band < 3 → f < b.th (band + 1)) → ¬ band < firstBand b f := fun hbelow hlt => by
    obtain ⟨h3, hth⟩ := (climbs_iff h f band).mpr hlt
    exact Nat.not_lt.mpr hth (hbelow h3)
  refine ⟨moveBand_le h hb, fun h3 hth => moveBand_climbs h ((climbs_iff h f band).mp ⟨h3, hth⟩),
    fun hbelow hpos hdrop => ?_, fun hbelow hheld => ?_, firstBand_le b f, fun k h1 h3 => th_le_iff_le_firstBand h f h1 h3⟩
  · rw [moveBand_of_no_climb h (hno hbelow)]
    obtain ⟨hle, hheld, hfell⟩ := fallBand_stops b f 3 band hb
    have hlt : fallBand b f 3 band < band := by
      refine lt_of_le_of_ne hle (fun heq => ?_)
      rw [heq] at hheld
      exact Nat.not_lt.mpr (hheld hpos) hdrop
    exact ⟨hlt, hfell hlt, hheld⟩
  · rw [moveBand_of_no_climb h (hno hbelow)]
    exact fallBand_of_reached hheld 3

end Sys2Proof.Certificates
end

section
/-! PROOFS. The dwell law (R95, R96). -/

namespace Sys2Proof.Machine

section
variable {c : ClassState} {cand : ClassRecord}

/-- A candidate that is the settled record ends the count. -/
theorem settle_standing (hs : settlesAtOnce cand = false) (hc : cand = c.settled) (fUpdate : Bool) (limit : Nat) :
    c.settle cand fUpdate limit = { c with previous := some cand, dwell := 0 } := by
  unfold ClassState.settle
  rw [hs]
  exact if_pos hc

/-- Another candidate waits through an evaluation that is no F update; a new one ends the count. -/
theorem settle_noUpdate (hs : settlesAtOnce cand = false) (hc : cand ≠ c.settled) (limit : Nat) :
    c.settle cand false limit
      = { c with previous := some cand, dwell := if c.previous = some cand then c.dwell else 0 } := by
  unfold ClassState.settle
  dsimp only
  rw [hs, if_neg Bool.false_ne_true, if_neg hc, if_neg Bool.false_ne_true]
  split <;> rfl

/-- The consecutive F updates of a candidate, this one included (R95). -/
def dwellCount (c : ClassState) (cand : ClassRecord) : Nat :=
  if c.previous = some cand ∧ 0 < c.dwell then c.dwell + 1 else 1

/-- An F update below the dwell count counts another candidate, and the settled record stands. -/
theorem settle_counts (hs : settlesAtOnce cand = false) (hc : cand ≠ c.settled) {limit : Nat}
    (hn : dwellCount c cand < limit) :
    c.settle cand true limit = { c with previous := some cand, dwell := dwellCount c cand } := by
  unfold ClassState.settle
  rw [hs]
  exact (if_neg hc).trans (if_neg (Nat.not_le.mpr hn))

/-- The F update that reaches the dwell count settles the candidate. -/
theorem settle_reaches (hs : settlesAtOnce cand = false) (hc : cand ≠ c.settled) {limit : Nat}
    (hn : limit ≤ dwellCount c cand) :
    c.settle cand true limit = { c with previous := some cand, settled := cand, dwell := 0 } := by
  unfold ClassState.settle
  rw [hs]
  exact (if_neg hc).trans (if_pos hn)

end

end Sys2Proof.Machine

namespace Sys2Proof.Certificates

open Sys2Proof.Machine

/-- Settles O31: one equation for each branch of the settling. -/
theorem dwellSettles : Obligations.DwellSettles := by
  intro c cand fUpdate limit _
  obtain ⟨hprevious, -⟩ := settle_formed c cand fUpdate limit
  have hrest := settle_rest c cand fUpdate limit
  refine ⟨hprevious, fun hs => ?_, fun hs hc => ⟨?_, ?_⟩, fun hs hc => ?_, by rw [hrest],
    by rw [hrest]⟩
  · rw [settle_atOnce c hs]
    exact ⟨rfl, rfl⟩
  · rintro rfl
    rw [settle_noUpdate hs hc]
    exact ⟨rfl, rfl⟩
  · rintro rfl
    refine ⟨fun hlt => ?_, fun hle => ?_⟩
    · rw [settle_counts hs hc hlt]
      exact ⟨rfl, rfl⟩
    · rw [settle_reaches hs hc hle]
      exact ⟨rfl, rfl⟩
  · rw [settle_standing hs hc]
    exact ⟨rfl, rfl⟩

end Sys2Proof.Certificates
end

section
/-! PROOFS. The debounced buckle of a position, and what follows its change (R97, R98, R119, R121, R123, R161, R171). -/

namespace Sys2Proof.Machine

/-! ### A notice that waits, while one more enters (R161) -/

/-- A notice that enters a queue with room waits where no entry of its kind and subject can take it. -/
theorem Body.enter_waits {b : Body} {n : Notice} (u : Bool) (hl : b.queue.length < 24)
    (hn : NoneWaits b n.kind n.subject) : Waits (b.enter u n) n := by
  have hno : b.queue.any (coalesces n) = false := by
    refine List.any_eq_false.mpr (fun e he hc => hn e he ?_)
    simp only [coalesces, Bool.and_eq_true, beq_iff_eq] at hc
    obtain ⟨⟨_, hkind⟩, hsubject⟩ := hc
    exact ⟨hkind, hsubject⟩
  refine ⟨⟨n, u, false⟩, ?_, rfl⟩
  rw [Body.enter_room u n hl, hno, Bool.and_false, if_neg Bool.false_ne_true]
  exact List.mem_append_right _ (List.mem_singleton_self _)

/-- A notice that waits goes on waiting when one of another kind enters a queue with room. -/
theorem Body.enter_keepsWaiting {b : Body} {n m : Notice} (u : Bool) (hw : Waits b n) (hl : b.queue.length < 24)
    (hk : m.kind ≠ n.kind) : Waits (b.enter u m) n := by
  obtain ⟨e, he, rfl⟩ := hw
  refine ⟨e, ?_, rfl⟩
  rw [Body.enter_room u m hl]
  split
  · refine List.mem_map.mpr ⟨e, he, if_neg (fun hc => ?_)⟩
    simp only [coalesces, Bool.and_eq_true, beq_iff_eq] at hc
    obtain ⟨⟨_, hkind⟩, _⟩ := hc
    exact hk hkind.symm
  · exact List.mem_append_left _ he

/-- The Body Port is left as it was, or takes one REMINDER notice. -/
def MayRemind (s t : State) : Prop :=
  t.body = s.body ∨ ∃ u n, n.kind = .reminder ∧ t.body = s.body.enter u n

theorem MayRemind.waits {s t : State} (h : MayRemind s t) {n : Notice} (hw : Waits s.body n)
    (hl : s.body.queue.length < 24) (hk : n.kind ≠ .reminder) : Waits t.body n := by
  obtain h | ⟨u, m, hm, h⟩ := h <;> rw [h]
  · exact hw
  · exact Body.enter_keepsWaiting u hw hl (fun he => hk (he.symm.trans hm))

theorem enterAudible_mayRemind (p : Pos) (s : State) : MayRemind s (enterAudible p s) := .inr ⟨_, _, rfl, rfl⟩

theorem enterVisual_mayRemind (p : Pos) (s : State) : MayRemind s (enterVisual p s) := by
  unfold enterVisual
  dsimp only
  split
  · exact .inr ⟨_, _, rfl, rfl⟩
  · exact .inl rfl

theorem enterWait_mayRemind (p : Pos) (d : Nat) (s : State) : MayRemind s (enterWait p d s) := by
  unfold enterWait
  split
  · exact enterVisual_mayRemind p s
  · exact .inl rfl

theorem actOnResults_mayRemind (p : Pos) (d : Nat) (s : State) : MayRemind s (actOnResults p d s) := by
  obtain e | e | e | e := actOnResults_cases p d s <;> rw [e]
  · exact .inl rfl
  · exact .inl rfl
  · exact enterWait_mayRemind p d s
  · exact enterAudible_mayRemind p s

/-- One evaluation of a position's lists makes at most one notice, a REMINDER (R121, R135). -/
theorem evaluateLists_mayRemind (u : Bool) (p : Pos) (s : State) : MayRemind s (evaluateLists u p s) := by
  unfold evaluateLists
  split
  · exact .inl rfl
  · exact actOnResults_mayRemind p _ _

/-! ### The lists of a position whose BUCKLE_OPEN changes -/

/-- An evaluation of the lists steps the ladder by the state's signals, with the delay of R123. -/
theorem evaluateLists_ladderStep {u : Bool} {p : Pos} {s : State} (hh : remHeld s p = false)
    (h : RemTimersInv (s.rem.get p)) : (evaluateLists u p s).rem.get p
    = ladderStep (s.rem.get p) (startResult s p) (escalateResult s p) (chooseDelay s p u) (episodeLimit s)
      (audibleTime s) := by
  have hr : (s.onRem p (fun r => { r with start := startResult s p, escalate := escalateResult s p })).rem.get p
      = { s.rem.get p with start := startResult s p, escalate := escalateResult s p } := PerPos.get_modify_self _ _ _
  rw [evaluateLists_notHeld hh, actOnResults_rem p _ (by rw [hr]; exact h), hr]
  rfl

theorem afterSeatChange_unchanged {u : Bool} {b s : State} {p : Pos} (hb : beltRequired b p = beltRequired s p)
    (ho : buckleOpen b p = buckleOpen s p) : afterSeatChange u b p s = s := if_pos ⟨hb, ho⟩

theorem afterSeatChange_opened {u : Bool} {b s : State} {p : Pos} (ho : buckleOpen b p ≠ buckleOpen s p) :
    afterSeatChange u b p s = evaluateLists u p s := by
  refine if_neg (fun hc => ?_)
  obtain ⟨_, hsame⟩ := hc
  exact ho hsame

theorem afterSeatChange_mayRemind (u : Bool) (b : State) (p : Pos) (s : State) :
    MayRemind s (afterSeatChange u b p s) := by
  unfold afterSeatChange
  split
  · exact .inl rfl
  · exact evaluateLists_mayRemind u p s

theorem afterSeatChange_rem_other {p q : Pos} (h : q ≠ p) (u : Bool) (b s : State) :
    (afterSeatChange u b p s).rem.get q = s.rem.get q := by
  unfold afterSeatChange
  split
  · rfl
  · exact evaluateLists_rem_other h u s

theorem buckleOpen_eq_iff (s t : State) (p : Pos) : buckleOpen s p = buckleOpen t p
    ↔ ((s.cls.get p).buckle = .latched ↔ (t.cls.get p).buckle = .latched) := by
  unfold buckleOpen
  rw [Bool.eq_iff_iff, bne_iff_ne, bne_iff_ne, not_iff_not]

/-! ### A buckle reading -/

/-- The reading debounced, before what follows a change of the buckle. -/
def buckleRead (p : Pos) (u : BuckleReading) (s : State) : State := s.onCls p (fun c => c.takeBuckle u)

/-- A change of the debounced buckle noticed and the rest timer restarted, before the lists are evaluated (R98, R171). -/
def buckleNoticed (p : Pos) (u : BuckleReading) (s : State) : State :=
  restartRest (notify (buckleNotice p (s.cls.get p).buckle ((buckleRead p u s).cls.get p).buckle) (buckleRead p u s))

/-- The change was one from LATCHED to OPEN (R123). -/
def unbuckles (p : Pos) (u : BuckleReading) (s : State) : Bool :=
  (s.cls.get p).buckle == .latched && ((buckleRead p u s).cls.get p).buckle == .isOpen

section
variable {p : Pos} {u : BuckleReading} {s : State}

theorem buckleRead_cls (p : Pos) (u : BuckleReading) (s : State) :
    (buckleRead p u s).cls.get p = (s.cls.get p).takeBuckle u := PerPos.get_modify_self _ _ _

theorem takeBuckle_cls_read (p : Pos) (u : BuckleReading) (s : State) :
    (takeBuckle p u s).cls.get p = (buckleRead p u s).cls.get p := by
  rw [takeBuckle_cls, if_pos rfl, buckleRead_cls]

theorem takeBuckle_same (h : (s.cls.get p).buckle = ((buckleRead p u s).cls.get p).buckle) :
    takeBuckle p u s = buckleRead p u s := if_pos h

theorem takeBuckle_changed (h : (s.cls.get p).buckle ≠ ((buckleRead p u s).cls.get p).buckle) :
    takeBuckle p u s = afterSeatChange (unbuckles p u s) s p (buckleNoticed p u s) := if_neg h

theorem buckleNoticed_changes (p : Pos) (u : BuckleReading) (s : State) :
    ChangesOnly [.monitor, .cls, .body] s (buckleNoticed p u s) :=
  ((changes_onCls s p _).widen.andThen (notify_changes _ _)).andThen (restartRest_changes _)

theorem buckleNoticed_quiet (p : Pos) (u : BuckleReading) (s : State) : Quiet s (buckleNoticed p u s) :=
  ((changes_onCls s p _).quiet.andThen (notify_quiet _ _)).andThen (restartRest_quiet _)

theorem buckleNoticed_cls (p : Pos) (u : BuckleReading) (s : State) :
    (buckleNoticed p u s).cls.get p = (s.cls.get p).takeBuckle u := by
  unfold buckleNoticed
  rw [(restartRest_changes _).cls, (notify_changes _ _).cls, buckleRead_cls]

theorem buckleNoticed_monitor (p : Pos) (u : BuckleReading) (s : State) :
    (buckleNoticed p u s).monitor = (restartRest s).monitor := by
  unfold buckleNoticed
  rw [restartRest_monitor, restartRest_monitor]
  rfl

theorem buckleNoticed_body (p : Pos) (u : BuckleReading) (s : State) : ∃ urgent, (buckleNoticed p u s).body
    = s.body.enter urgent (buckleNotice p (s.cls.get p).buckle ((buckleRead p u s).cls.get p).buckle) :=
  ⟨_, (restartRest_changes _).body⟩

theorem buckleNoticed_remHeld (p : Pos) (u : BuckleReading) (s : State) :
    remHeld (buckleNoticed p u s) p = remHeld s p := by
  have hc := buckleNoticed_changes p u s
  unfold remHeld State.row
  rw [posFitted_congr hc.straps, hc.line, (buckleNoticed_quiet p u s).device]

/-- BELT_REQUIRED reads the anchors of the Classifier's state, not its buckle (R118). -/
theorem buckleNoticed_beltRequired (p : Pos) (u : BuckleReading) (s : State) :
    beltRequired s p = beltRequired (buckleNoticed p u s) p := by
  have hc := buckleNoticed_changes p u s
  unfold beltRequired anchored State.row
  rw [posFitted_congr hc.straps, hc.line, hc.pub, (hc.steady (buckleNoticed_quiet p u s)).anchorsFitted p,
    buckleNoticed_cls, ClassState.takeBuckle_rest]

theorem buckleNoticed_chooseDelay (p : Pos) (u : BuckleReading) (s : State) (v : Bool) :
    chooseDelay (buckleNoticed p u s) p v = chooseDelay s p v := by
  have hc := buckleNoticed_changes p u s
  unfold chooseDelay changeDelay startDelay
  rw [hc.rem, hc.settings]

/-- The change's notice waits behind what the evaluation of the lists adds, in a queue with room for both. -/
theorem takeBuckle_waits (h : (s.cls.get p).buckle ≠ ((buckleRead p u s).cls.get p).buckle)
    (hl : s.body.queue.length + 2 ≤ 24) (hn : NoneWaits s.body .buckleChange (.position p)) :
    Waits (takeBuckle p u s).body
      (buckleNotice p (s.cls.get p).buckle ((buckleRead p u s).cls.get p).buckle) := by
  obtain ⟨urgent, hbody⟩ := buckleNoticed_body p u s
  rw [takeBuckle_changed h]
  refine (afterSeatChange_mayRemind _ s p _).waits ?_ ?_ (by nofun)
  · rw [hbody]
    exact Body.enter_waits urgent (by omega) hn
  · rw [hbody]
    exact (Body.enter_queue_length_le _ _ _).trans_lt (by omega)

/-- Where the position is held or its BUCKLE_OPEN stands, no reminder moves. -/
theorem takeBuckle_rem_of_held_or_same (h : remHeld s p = true
    ∨ ((s.cls.get p).buckle = .latched ↔ ((buckleRead p u s).cls.get p).buckle = .latched)) :
    (takeBuckle p u s).rem = s.rem := by
  by_cases hchange : (s.cls.get p).buckle = ((buckleRead p u s).cls.get p).buckle
  · rw [takeBuckle_same hchange]
    rfl
  · rw [takeBuckle_changed hchange]
    have hrem := (buckleNoticed_changes p u s).rem
    obtain hheld | hsame := h
    · unfold afterSeatChange
      rw [evaluateLists_held ((buckleNoticed_remHeld p u s).trans hheld), ite_self, hrem]
    · rw [afterSeatChange_unchanged (buckleNoticed_beltRequired p u s), hrem]
      rw [buckleOpen_eq_iff, buckleNoticed_cls, ← buckleRead_cls]
      exact hsame

/-- Where BUCKLE_OPEN of a position that is not held changes, its reminder steps once, by the signals that stand after. -/
theorem takeBuckle_ladderStep (hh : remHeld s p = false)
    (h : ¬ ((s.cls.get p).buckle = .latched ↔ ((buckleRead p u s).cls.get p).buckle = .latched))
    (hr : RemTimersInv (s.rem.get p)) : (takeBuckle p u s).rem.get p
    = ladderStep (s.rem.get p) (startResult (takeBuckle p u s) p) (escalateResult (takeBuckle p u s) p)
      (chooseDelay s p (unbuckles p u s)) (episodeLimit s) (audibleTime s) := by
  have hc := buckleNoticed_changes p u s
  have hopen : buckleOpen s p ≠ buckleOpen (buckleNoticed p u s) p := by
    rw [ne_eq, buckleOpen_eq_iff, buckleNoticed_cls, ← buckleRead_cls]
    exact h
  have hsignals : SameSignals (buckleNoticed p u s) (evaluateLists (unbuckles p u s) p (buckleNoticed p u s)) p :=
    (evaluateLists_changes _ p _).signals (evaluateLists_quiet _ p _) p
  rw [takeBuckle_changed (fun he => h (by rw [he])), afterSeatChange_opened hopen, hsignals.startResult,
    hsignals.escalateResult, evaluateLists_ladderStep ((buckleNoticed_remHeld p u s).trans hh) (by rw [hc.rem]; exact hr),
    buckleNoticed_chooseDelay, hc.rem]
  unfold episodeLimit audibleTime
  rw [hc.settings]

theorem takeBuckle_rem_other {q : Pos} (h : q ≠ p) (u : BuckleReading) (s : State) :
    (takeBuckle p u s).rem.get q = s.rem.get q := by
  by_cases hchange : (s.cls.get p).buckle = ((buckleRead p u s).cls.get p).buckle
  · rw [takeBuckle_same hchange]
    rfl
  · rw [takeBuckle_changed hchange, afterSeatChange_rem_other h, (buckleNoticed_changes p u s).rem]

theorem takeBuckle_monitor (h : (s.cls.get p).buckle ≠ ((buckleRead p u s).cls.get p).buckle) :
    (takeBuckle p u s).monitor = (restartRest s).monitor := by
  rw [takeBuckle_changed h, (afterSeatChange_changes _ s p _).monitor, buckleNoticed_monitor]

end

end Sys2Proof.Machine

namespace Sys2Proof.Certificates

open Sys2Proof.Machine

/-- Settles O32: the reading moves the Classifier's state of the position alone; a change is noticed first, and the lists of the
position are evaluated after it where BUCKLE_OPEN changed. -/
theorem buckleChanges : Obligations.BuckleChanges := by
  intro s p reading
  dsimp only
  rw [takeBuckle_cls_read]
  refine ⟨?_, fun q hq => ⟨?_, takeBuckle_rem_other hq reading s⟩, fun hsame => ?_, fun hchange => ⟨?_, ?_⟩,
    takeBuckle_rem_of_held_or_same, fun hheld hopen hr => ?_, takeBuckle_changes p reading s⟩
  · obtain ⟨hbuckle, -, hfaults⟩ := takeBuckle_words (s.cls.get p) reading
    rw [buckleRead_cls, ClassState.takeBuckle_rest, hbuckle, hfaults]
    cases reading <;> rfl
  · rw [takeBuckle_cls, if_neg hq]
  · rw [takeBuckle_same hsame]
    exact ⟨rfl, rfl⟩
  · exact takeBuckle_monitor hchange
  · exact takeBuckle_waits hchange
  · rw [takeBuckle_ladderStep hheld hopen hr]
    unfold chooseDelay unbuckles
    simp only [Bool.and_eq_true, beq_iff_eq, and_assoc]

end Sys2Proof.Certificates
end

section
/-! PROOFS. The layouts of OCC_MAP and BELT_MAP, the lamp states and TELLTALE (R84, R134, R139, R147, R157, R177). -/

namespace Sys2Proof.Machine

/-! ### One field for each position -/

/-- Some bits of a number are the low bits of the number shifted down. -/
theorem extractLsb'_ofNat {N i w : Nat} (h : i + w ≤ N) (x : Nat) :
    (BitVec.ofNat N x).extractLsb' i w = BitVec.ofNat w (x >>> i) := by
  apply BitVec.eq_of_getLsbD_eq
  intro k hk
  rw [BitVec.getLsbD_extractLsb', BitVec.getLsbD_ofNat, BitVec.getLsbD_ofNat, Nat.testBit_shiftRight,
    decide_eq_true (show i + k < N by omega), decide_eq_true hk, Bool.true_and]

theorem field_shiftRight (acc w v : Nat) : field acc w v >>> w = acc := by
  unfold field
  rw [Nat.shiftRight_eq_div_pow, Nat.mul_comm, Nat.mul_add_div (Nat.two_pow_pos w),
    Nat.div_eq_of_lt (Nat.mod_lt v (Nat.two_pow_pos w)), Nat.add_zero]

theorem ofNat_field_low (w acc v : Nat) : BitVec.ofNat w (field acc w v) = BitVec.ofNat w v := by
  apply BitVec.eq_of_toNat_eq
  rw [BitVec.toNat_ofNat, BitVec.toNat_ofNat, field, Nat.mul_comm, Nat.mul_add_mod, Nat.mod_mod]

/-- The fields of a list's members, each of w bits, laid out behind those already there. -/
theorem foldl_field_shiftRight {α : Type} (w : Nat) (f : α → Nat) : ∀ (l : List α) (acc : Nat),
    l.foldl (fun a x => field a w (f x)) acc >>> (w * l.length) = acc
  | [], acc => rfl
  | x :: l, acc => by
    rw [List.foldl_cons, List.length_cons, Nat.mul_succ, Nat.shiftRight_add,
      foldl_field_shiftRight w f l, field_shiftRight]

/-- The positions after p in ascending order are the last 15 − p. -/
theorem allPos_split (p : Pos) : ∃ l r, allPos = l ++ p :: r ∧ r.length = 15 - p.num := by
  refine ⟨allPos.take (p.num - 1), allPos.drop p.num, ?_, ?_⟩ <;> obtain ⟨r, k⟩ := p <;> cases r <;> cases k <;> rfl

/-- Of fifteen fields of w bits, one for each position in ascending order, that of p stands above 15 − p others. -/
theorem extractLsb'_foldl_allPos (w : Nat) (f : Pos → Nat) (p : Pos) :
    (BitVec.ofNat (w * 15) (allPos.foldl (fun a q => field a w (f q)) 0)).extractLsb' (w * (15 - p.num)) w
      = BitVec.ofNat w (f p) := by
  obtain ⟨l, r, hsplit, hlength⟩ := allPos_split p
  obtain ⟨hnum, _⟩ := Pos.num_range p
  have hroom : w * (15 - p.num) + w ≤ w * 15 := by
    rw [← Nat.mul_succ]
    exact Nat.mul_le_mul_left w (by omega)
  rw [extractLsb'_ofNat hroom, hsplit, List.foldl_append, List.foldl_cons, ← hlength, foldl_field_shiftRight,
    ofNat_field_low]

/-! ### The words as bits -/

/-- The fifteen classes of OCC_MAP. -/
def occClasses (s : State) : BitVec 60 :=
  BitVec.ofNat 60 (allPos.foldl (fun acc p => field acc 4 (classCode (s.pub.table.get p))) 0)

/-- The fifteen lamp states of BELT_MAP. -/
def beltLamps (s : State) : BitVec 45 :=
  BitVec.ofNat 45 (allPos.foldl (fun acc p => field acc 3 (lampCode s p)) 0)

theorem occMapWord_bits (s : State) : occMapWord s = (occClasses s ++ s.pub.epoch.setWidth 4 : BitVec 64) := by
  unfold occMapWord
  rw [ofNat_field 60 4, ofNat_epochBits, occClasses]

theorem beltMapWord_bits (s : State) : beltMapWord s
    = (beltLamps s ++ BitVec.ofBool (chimeDriven s) ++ BitVec.ofNat 2 (telltaleField s)
        ++ BitVec.ofBool (profileBit s) ++ s.pub.epoch.setWidth 8 ++ BitVec.ofBool s.pub.locked
        ++ BitVec.ofBool s.body.resync ++ BitVec.ofNat 2 (configCode s.settings.config)
        ++ BitVec.ofNat 2 (freshnessCode s.body.vehicle.freshness) ++ 0#1 : BitVec 64) := by
  unfold beltMapWord
  rw [ofNat_field 63 1, ofNat_field 61 2, ofNat_field 59 2, ofNat_field 58 1, ofNat_field 57 1, ofNat_field 49 8,
    ofNat_field 48 1, ofNat_field 46 2, ofNat_field 45 1, ofNat_bit, ofNat_bit, ofNat_bit, ofNat_bit, ofNat_epochBits,
    beltLamps]

theorem occMapWord_class (s : State) (p : Pos) :
    (occMapWord s).extractLsb' (64 - 4 * p.num) 4 = BitVec.ofNat 4 (classCode (s.pub.table.get p)) := by
  obtain ⟨_, hnum⟩ := Pos.num_range p
  rw [occMapWord_bits, BitVec.extractLsb'_append_eq_of_le (by omega),
    show 64 - 4 * p.num - 4 = 4 * (15 - p.num) by omega]
  exact extractLsb'_foldl_allPos 4 (fun q => classCode (s.pub.table.get q)) p

theorem beltMapWord_lamp (s : State) (p : Pos) :
    (beltMapWord s).extractLsb' (64 - 3 * p.num) 3 = BitVec.ofNat 3 (lampCode s p) := by
  obtain ⟨_, hnum⟩ := Pos.num_range p
  rw [beltMapWord_bits]
  repeat rw [BitVec.extractLsb'_append_eq_of_le (by omega)]
  rw [show 64 - 3 * p.num - 1 - 2 - 2 - 1 - 1 - 8 - 1 - 2 - 1 = 3 * (15 - p.num) by omega]
  exact extractLsb'_foldl_allPos 3 (lampCode s) p

/-- The bits of BELT_MAP below the lamp states, field by field. -/
theorem beltMapWord_fields (s : State) :
    (beltMapWord s).getLsbD 18 = chimeDriven s
    ∧ (beltMapWord s).extractLsb' 16 2 = BitVec.ofNat 2 (telltaleField s)
    ∧ (beltMapWord s).getLsbD 15 = profileBit s
    ∧ (beltMapWord s).extractLsb' 7 8 = s.pub.epoch.setWidth 8
    ∧ (beltMapWord s).getLsbD 6 = s.pub.locked
    ∧ (beltMapWord s).getLsbD 5 = s.body.resync
    ∧ (beltMapWord s).extractLsb' 3 2 = BitVec.ofNat 2 (configCode s.settings.config)
    ∧ (beltMapWord s).extractLsb' 1 2 = BitVec.ofNat 2 (freshnessCode s.body.vehicle.freshness)
    ∧ (beltMapWord s).getLsbD 0 = false := by
  rw [beltMapWord_bits]
  refine ⟨?chime, ?telltale, ?profile, ?epoch, ?lock, ?resync, ?config, ?freshness, ?zero⟩
  case telltale | epoch | config | freshness =>
    repeat rw [BitVec.extractLsb'_append_eq_of_le (by decide)]
    exact BitVec.extractLsb'_append_eq_right
  all_goals
    simp only [BitVec.getLsbD_append, BitVec.getLsbD_ofBool, Nat.reduceLT, Nat.reduceSub, if_true, if_false, decide_true,
      Bool.true_and, BitVec.getLsbD_zero]

/-! ### Lamp states (R134) -/

theorem emptyClass_iff (c : ClassRecord) :
    emptyClass c = true ↔ c ∈ [ClassRecord.vacant, .object, .notInstalled, .notFitted] := by
  cases c <;> simp [emptyClass]

theorem occupiedClass_iff (c : ClassRecord) : occupiedClass c = true
    ↔ c ∈ [ClassRecord.smallOccupant, .adult, .childSeat, .childSeatRear, .childSeatForward] := by
  cases c <;> simp [occupiedClass]

/-- A class is empty, occupied or INDETERMINATE, and one of these alone. -/
theorem isIndeterminate_iff {c : ClassRecord} (h : emptyClass c = false) :
    isIndeterminate c = true ↔ ¬ occupiedClass c = true := by
  cases c <;> simp_all [isIndeterminate, occupiedClass, emptyClass]

theorem ofNat_lampCode (s : State) (p : Pos) : BitVec.ofNat 3 (lampCode s p) = lampByTable s p := by
  unfold lampCode lampByTable
  simp only [apply_ite (BitVec.ofNat 3)]
  refine if_congr Iff.rfl rfl (if_congr Iff.rfl rfl ?_)
  refine ite_congr (propext (or_congr_left (emptyClass_iff _))) (fun _ => rfl) (fun hline => ?_)
  have hclass : emptyClass (s.pub.table.get p) = false :=
    eq_false_of_ne_true (fun h => hline (.inl ((emptyClass_iff _).mp h)))
  have hoccupied := occupiedClass_iff (s.pub.table.get p)
  exact if_congr (and_congr_right' (or_congr_right hoccupied)) rfl
    (if_congr (or_congr_left ((isIndeterminate_iff hclass).trans (not_congr hoccupied))) rfl rfl)

/-! ### TELLTALE (R139) -/

/-- A position of row 1 is in one of two states. -/
theorem anyInState_front (c : PerPos RemState) (x y : RemState) : (anyInState c true x || anyInState c true y) = true
    ↔ ∃ p : Pos, p.row = .r1 ∧ (c.get p = x ∨ c.get p = y) := by
  unfold anyInState isFront
  simp only [Bool.or_eq_true, List.any_eq_true, mem_allPos, true_and, Bool.and_eq_true, beq_iff_eq, ← exists_or,
    ← and_or_left]

/-- While the pin follows its level, TELLTALE is that of the row 1 positions in AUDIBLE, else of those in VISUAL or SILENCED. -/
theorem telltaleField_following {s : State} (h : s.cadence.telltaleGate = .following) : telltaleField s
    = if anyInState s.cadence.copy true .audible || anyInState s.cadence.copy true .audible then 2
      else if anyInState s.cadence.copy true .visual || anyInState s.cadence.copy true .silenced then 1 else 0 := by
  unfold telltaleField telltaleState
  rw [if_neg (not_not.mpr h), Bool.or_self]
  split_ifs <;> rfl

end Sys2Proof.Machine

namespace Sys2Proof.Certificates

open Sys2Proof.Machine

/-- Settles O43: each word is its fields' bits one behind another; the lamp state is the table's first line that applies, and
TELLTALE the state of the row 1 positions. -/
theorem mapLayouts : Obligations.MapLayouts := by
  intro s
  dsimp only
  obtain ⟨hchime, htelltale, hprofile, hepoch, hlock, hresync, hconfig, hfreshness, hzero⟩ := beltMapWord_fields s
  rw [hchime, htelltale, hprofile, hconfig, hfreshness]
  simp only [← anyInState_front]
  refine ⟨fun p => ?_, ?_, fun p => (beltMapWord_lamp s p).trans (ofNat_lampCode s p), beq_eq_decide ..,
    fun hgate => ?_, fun hgate => ?_, beq_eq_decide .., hepoch, hlock, hresync, ?_, ?_, hzero⟩
  · rw [occMapWord_class]
    cases s.pub.table.get p <;> rfl
  · rw [occMapWord_bits, BitVec.extractLsb'_append_eq_right]
  · rw [telltaleField, if_pos hgate]
  · rw [telltaleField_following hgate]
    refine ⟨fun ha => ?_, fun ha hv => ?_, fun ha hv => ?_⟩
    · rw [if_pos ha]
    · rw [if_neg ha, if_pos hv]
    · rw [if_neg ha, if_neg hv]
  · cases s.settings.config <;> rfl
  · cases s.body.vehicle.freshness <;> rfl

end Sys2Proof.Certificates
end

section
/-! PROOFS. The Publication Unit under every command and every idle step: marks and table stay exact, and while the lock is
held the table stands (R104, R108, R111, R112). -/

namespace Sys2Proof.Machine

/-! ### The table is kept -/

/-- From `s` to `t` marks and published records stay exact, and a held lock keeps table, epoch and itself. -/
structure TableKept (s t : State) : Prop where
  exact : PublicationInv s → PublicationInv t
  held  : s.pub.locked = true → t.pub.table = s.pub.table ∧ t.pub.epoch = s.pub.epoch ∧ t.pub.locked = true

theorem TableKept.refl (s : State) : TableKept s s := ⟨id, fun hl => ⟨rfl, rfl, hl⟩⟩

theorem TableKept.andThen {s t u : State} (h1 : TableKept s t) (h2 : TableKept t u) : TableKept s u := by
  refine ⟨h2.exact ∘ h1.exact, fun hl => ?_⟩
  obtain ⟨htable, hepoch, hlocked⟩ := h1.held hl
  obtain ⟨htable', hepoch', hlocked'⟩ := h2.held hlocked
  exact ⟨htable'.trans htable, hepoch'.trans hepoch, hlocked'⟩

theorem tableKept_ite {s t u : State} {c : Prop} [Decidable c] (h1 : TableKept s t) (h2 : TableKept s u) :
    TableKept s (if c then t else u) := by
  split
  · exact h1
  · exact h2

theorem tableKept_forEach {α : Type} {f : α → State → State} (h : ∀ a s, TableKept s (f a s)) :
    ∀ (l : List α) (s : State), TableKept s (forEach l f s)
  | [], s => TableKept.refl s
  | a :: l, s => (h a s).andThen (tableKept_forEach h l (f a s))

/-- A change that leaves the Classifier and the Publication Unit. -/
theorem ChangesOnly.tableKept {bs : List Block} {s t : State} (h : ChangesOnly bs s t)
    (hc : bs.contains Block.cls = false) (hp : bs.contains Block.pub = false) : TableKept s t := by
  refine ⟨publicationInv_of_same (h.cls hc) (h.pub hp), fun hl => ?_⟩
  rw [h.pub hp]
  exact ⟨rfl, rfl, hl⟩

/-- A kept table with an event's end that leaves the Classifier and the Publication Unit. -/
theorem TableKept.leave {bs : List Block} {s t u : State} (h1 : TableKept s t) (h2 : ChangesOnly bs t u)
    (hc : bs.contains Block.cls = false) (hp : bs.contains Block.pub = false) : TableKept s u :=
  h1.andThen (h2.tableKept hc hp)

theorem publish_epoch_locked {s : State} (hl : s.pub.locked = true) : (publish s).pub.epoch = s.pub.epoch := by
  unfold publish
  rw [if_pos hl]
  rfl

/-- Whatever has moved in the Classifier, its batch makes the marks and the table exact again (R104, R108). -/
theorem publish_tableKept {s t : State} (h : t.pub = s.pub) : TableKept s (publish t) := by
  refine ⟨fun hi => publish_publicationInv (marksClear_of_same h hi.marksClear), fun hl => ?_⟩
  have hl' : t.pub.locked = true := by rw [h]; exact hl
  rw [publish_table_locked hl', publish_epoch_locked hl', publish_locked, h]
  exact ⟨rfl, rfl, hl⟩

theorem endWithBatch_tableKept {s t : State} (h : t.pub = s.pub) : TableKept s (endWithBatch t) :=
  (publish_tableKept h).leave (endEvent_changes _) rfl rfl

/-- The evaluations at the end of STARTING and of the wake settle publish what they settle (R85, R104). -/
theorem evaluateStart_tableKept {s t : State} (h : t.pub = s.pub) : TableKept s (evaluateStart t) :=
  ((publish_tableKept ((evaluateEach_changes _ t).pub.trans h)).leave (evaluateAllLists_changes _) rfl rfl).leave
    (endEvent_changes _) rfl rfl

/-- A lock that is taken, or whose hold timer restarts, leaves the table (R107). -/
theorem takeLock_tableKept (n : Nat) (s : State) : TableKept s (takeLock n s) := by
  refine ⟨takeLock_publicationInv n, fun _ => ?_⟩
  rw [show (takeLock n s).pub = { s.pub with locked := true, holdTimer := some n } from (afterVanChange_changes s _).pub]
  exact ⟨rfl, rfl, rfl⟩

/-! ### Rows and exchanges -/

theorem rowArrives_tableKept (r : Row) (s : State) : TableKept s (rowArrives r s) := by
  unfold rowArrives
  refine tableKept_ite ?_ (TableKept.refl s)
  have h : (evaluateRow r s (arrivalNoticed r s)).pub = s.pub := (evaluateRow_changes r s _).pub
  exact ((publish_tableKept h).leave (changesOnly_forEach (evaluateLists_changes false) _ _) rfl rfl).andThen
    (endWithBatch_tableKept rfl)

theorem removeRow_tableKept (r : Row) (s : State) : TableKept s (removeRow r s) := by
  rw [removeRow_eq]
  refine endWithBatch_tableKept ?_
  rw [(evaluateRow_changes r s _).pub, (positionsRemoved_changes r s).pub, (removalNoticed_changes r s).pub]

theorem senseReadsUnmated_tableKept (r : Row) (s : State) : TableKept s (senseReadsUnmated r s) := by
  have h : ∀ f, TableKept s (s.onPins f) := fun f => (changes_onPins s f).tableKept rfl rfl
  exact tableKept_ite (h _) (tableKept_ite ((h _).leave (changes_onRow _ r _) rfl rfl)
    ((h _).andThen (removeRow_tableKept r _)))

theorem settleExpires_tableKept (r : Row) (s : State) : TableKept s (settleExpires r s) := by
  unfold settleExpires
  split
  · exact tableKept_ite ((changes_onRow s r _).tableKept rfl rfl)
      (endWithBatch_tableKept (enterFailed_changes r .noSlot s).pub)
  · exact endWithBatch_tableKept (evaluateRow_changes r s _).pub
  · exact TableKept.refl s

theorem answerCompletes_tableKept (b : List Byte) (s : State) : TableKept s (answerCompletes b s) := by
  have fails : ∀ x, TableKept s (endWithBatch (exchangeFails x (endExchange s))) := fun x =>
    endWithBatch_tableKept (exchangeFails_changes x _).pub
  unfold answerCompletes
  split
  · exact TableKept.refl s
  · split
    · exact endWithBatch_tableKept (exchangeGood_changes _ b _).pub
    · exact fails _
    · exact fails _

theorem exchangeTimesOut_tableKept (s : State) : TableKept s (exchangeTimesOut s) := by
  unfold exchangeTimesOut
  split
  · exact TableKept.refl s
  · exact endWithBatch_tableKept (exchangeFails_changes _ _).pub

theorem slotExpires_tableKept (s : State) : TableKept s (slotExpires s) := by
  unfold slotExpires
  split
  · exact (exchangeTimesOut_tableKept s).leave (takeSlot_changes _) rfl rfl
  · exact TableKept.refl s
  · exact TableKept.refl s

theorem tagReadTimesOut_tableKept (r : Row) (s : State) : TableKept s (tagReadTimesOut r s) := by
  unfold tagReadTimesOut
  split
  · exact TableKept.refl s
  · refine tableKept_ite (endWithBatch_tableKept ?_) (TableKept.refl s)
    rw [(evaluateEvidence_changes _ _).pub, (completeRead_changes r _ _ s).pub]

/-! ### Monitor -/

theorem tableKept_outsideReset {f : State → State} (s : State) (h : TableKept s (f s)) : TableKept s (outsideReset s f) :=
  tableKept_ite (TableKept.refl s) h

theorem autoloadEnds_tableKept (a : StoreAnswer) (s : State) : TableKept s (autoloadEnds a s) :=
  tableKept_ite (evaluateStart_tableKept
    (goLive_changes s.monitor.ign { s with settings := autoloaded s a }).pub) (TableKept.refl s)

theorem endWakeSettle_tableKept (s : State) : TableKept s (endWakeSettle s) :=
  tableKept_ite (evaluateStart_tableKept ((childWake_changes _).pub.trans (wokeUp_changes s).pub)) (TableKept.refl s)

theorem goStale_tableKept (p : Pos) (s : State) : TableKept s (goStale p s) :=
  endWithBatch_tableKept (evaluate_changes false p _).pub

theorem ageRunsOut_tableKept (p : Pos) (s : State) : TableKept s (ageRunsOut p s) :=
  tableKept_ite (((changes_onLoad s p _).tableKept rfl rfl).andThen (goStale_tableKept p _)) (TableKept.refl s)

/-- Each position past its limit is an event of its own, and none other settles a record when HOLD clears (R58, R104). -/
theorem clearHold_tableKept (s : State) : TableKept s (clearHold s) := by
  refine tableKept_ite ?_ ((changes_onMonitor s _).tableKept rfl rfl)
  exact ((holdLifted_changes s).tableKept rfl rfl).andThen
    (tableKept_forEach (fun p t => tableKept_ite (goStale_tableKept p t) (TableKept.refl t)) allPos _)

theorem outenRises_tableKept (s : State) : TableKept s (outenRises s) :=
  have h : TableKept s (s.onPins (fun u => { u with outen := true })) := (changes_onPins s _).tableKept rfl rfl
  tableKept_ite (TableKept.refl s) (tableKept_ite (h.leave (changes_onCadence _ _) rfl rfl) h)

theorem delayRunsOut_tableKept (p : Pos) (s : State) : TableKept s (delayRunsOut p s) :=
  tableKept_ite (((enterVisual_changes p s).tableKept rfl rfl).leave (endEvent_changes _) rfl rfl) (TableKept.refl s)

theorem audibleRunsOut_tableKept (p : Pos) (s : State) : TableKept s (audibleRunsOut p s) :=
  tableKept_ite (((silence_changes p 1 s).tableKept rfl rfl).leave (endEvent_changes _) rfl rfl) (TableKept.refl s)

/-! ### Requests -/

theorem takeFrame_tableKept {f : State → State} (s : State) (h : TableKept s (f s)) : TableKept s (takeFrame f s) :=
  tableKept_outsideReset s (tableKept_ite ((wake_changes s).tableKept rfl rfl)
    (tableKept_ite ((changes_onPort s _).tableKept rfl rfl) h))

theorem takeRequest_tableKept (c a : Byte) {f : State → State} (s : State) (h : ∀ t, TableKept t (f t)) :
    TableKept s (takeRequest c a f s) :=
  have hport := (changes_onPort s (fun v => { v with lastRequest := some ⟨c, a⟩ })).tableKept rfl rfl
  takeFrame_tableKept s (tableKept_ite (hport.andThen (h _))
    ((hport.leave (changes_onPort _ _) rfl rfl).leave (respond_changes _ _) rfl rfl))

theorem respond_tableKept (r : Response) (s : State) : TableKept s (respond r s) :=
  (respond_changes r s).tableKept rfl rfl

theorem answerPosition_tableKept (a : Byte) (s : State) : TableKept s (answerPosition a s) := by
  unfold answerPosition
  split <;> exact respond_tableKept _ s

theorem answerLock_tableKept (a : Byte) (s : State) : TableKept s (answerLock a s) :=
  tableKept_ite (((takeLock_tableKept _ s).andThen (respond_tableKept _ _)).leave (endEvent_changes _) rfl rfl)
    (respond_tableKept _ s)

theorem receive_tableKept {f : State → State} (s : State) (h : TableKept s (f s)) : TableKept s (receive f s) :=
  tableKept_outsideReset s (tableKept_ite ((wake_changes s).tableKept rfl rfl) (tableKept_ite (TableKept.refl s) h))

theorem takeService_tableKept (k : Byte) (l : List Byte) {f : State → State} (h : ∀ t, TableKept t (f t)) (s : State) :
    TableKept s (takeService k l f s) := by
  have hr := (restartRest_changes s).tableKept rfl rfl
  exact receive_tableKept s <| tableKept_ite hr (tableKept_ite ((hr.andThen (h _)).leave (arbitrate_changes _) rfl rfl)
    ((hr.leave (sendReply_changes _ _) rfl rfl).leave (arbitrate_changes _) rfl rfl))

theorem answerClear_tableKept (s : State) : TableKept s (answerClear s) := by
  refine tableKept_ite ((sendReply_changes _ s).tableKept rfl rfl)
    (tableKept_ite ((sendReply_changes _ s).tableKept rfl rfl) ?_)
  refine (publish_tableKept ?_).leave (takeReminders_changes _) rfl rfl
  rw [(evaluateEvidence_changes _ _).pub, (clearChildren_changes _).pub, (sendReply_changes _ s).pub]

/-- A completed write publishes what it settles (R104, R170). -/
theorem writeSucceeds_tableKept (w : WriteInFlight) (s : State) : TableKept s (writeSucceeds w s) := by
  have h : (writeEffects s (idGroup w.id) (idIndex w.id) (valueStands w s)).pub = s.pub :=
    (writeEffects_changes s _ _ _).pub.trans (valueStands_changes w s).pub
  exact ((publish_tableKept h).leave (sendWriteReply_changes (writeReply w) _) rfl rfl).leave (endEvent_changes _) rfl rfl

theorem writeCompletes_tableKept (o : WriteOutcome) (s : State) : TableKept s (writeCompletes o s) := by
  unfold writeCompletes
  split
  · exact TableKept.refl s
  · cases o
    case readBackAsWritten => exact writeSucceeds_tableKept _ s
    all_goals exact (writeFails_changes _ _ s).tableKept rfl rfl

/-! ### Commands -/

/-- The commands that may end the lock or replace the table whole: reset, UNLOCK and the hold timer's expiry (R112). -/
def endsLock : Instr → Bool
  | .reset _ _ | .unlock _ | .lockHoldTimerExpiry => true
  | _ => false

/-- Every other command keeps the table. -/
theorem exec_tableKept {c : Instr} (h : endsLock c = false) (s : State) : ∃ t, exec c s = .next t ∧ TableKept s t := by
  cases c with
  | reset cause straps => nomatch h
  | unlock arg => nomatch h
  | lockHoldTimerExpiry => nomatch h
  | autoloadEnd answer => exact ⟨_, rfl, tableKept_outsideReset s (autoloadEnds_tableKept answer s)⟩
  | ignLineChange high => exact ⟨_, rfl, (ignLineChanges_changes high s).tableKept rfl rfl⟩
  | ignAsserted => exact ⟨_, rfl, tableKept_outsideReset s ((ignAsserts_changes s).tableKept rfl rfl)⟩
  | ignDeasserted => exact ⟨_, rfl, tableKept_outsideReset s ((ignDeasserts_changes s).tableKept rfl rfl)⟩
  | holdSet => exact ⟨_, rfl, (setHold_changes s).tableKept rfl rfl⟩
  | holdCleared => exact ⟨_, rfl, clearHold_tableKept s⟩
  | restTimerExpiry => exact ⟨_, rfl, tableKept_outsideReset s ((restExpires_changes s).tableKept rfl rfl)⟩
  | wakeEvent source => exact ⟨_, rfl, tableKept_outsideReset s ((takeWakeEvent_changes source s).tableKept rfl rfl)⟩
  | endOfWakeSettle => exact ⟨_, rfl, tableKept_outsideReset s (endWakeSettle_tableKept s)⟩
  | secondsCountTick => exact ⟨_, rfl, tableKept_outsideReset s ((secondsTick_changes s).tableKept rfl rfl)⟩
  | slotTimerExpiry => exact ⟨_, rfl, slotExpires_tableKept s⟩
  | responseWindowExpiry => exact ⟨_, rfl, exchangeTimesOut_tableKept s⟩
  | sampleAnswer bytes => exact ⟨_, rfl, answerCompletes_tableKept bytes s⟩
  | readIdAnswer bytes => exact ⟨_, rfl, answerCompletes_tableKept bytes s⟩
  | readRegAnswer bytes => exact ⟨_, rfl, answerCompletes_tableKept bytes s⟩
  | writeRegAnswer bytes => exact ⟨_, rfl, answerCompletes_tableKept bytes s⟩
  | senseMated row => exact ⟨_, rfl, (senseBecomesMated_changes row s).tableKept rfl rfl⟩
  | rowArrival row => exact ⟨_, rfl, rowArrives_tableKept row s⟩
  | rowRemoval row => exact ⟨_, rfl, senseReadsUnmated_tableKept row s⟩
  | powerSettleExpiry row => exact ⟨_, rfl, settleExpires_tableKept row s⟩
  | powerOffTimerExpiry row => exact ⟨_, rfl, (powerOffExpires_changes row s).tableKept rfl rfl⟩
  | onlineStabilityTimerExpiry row => exact ⟨_, rfl, (stabilityExpires_changes row s).tableKept rfl rfl⟩
  | positionBecomesStale pos => exact ⟨_, rfl, ageRunsOut_tableKept pos s⟩
  | scanTimerExpiry pos moment => exact ⟨_, rfl, (scanExpires_changes pos moment s).tableKept rfl rfl⟩
  | tagReadTimerExpiry row => exact ⟨_, rfl, tagReadTimesOut_tableKept row s⟩
  | delayTimerExpiry pos => exact ⟨_, rfl, delayRunsOut_tableKept pos s⟩
  | audibleTimerExpiry pos => exact ⟨_, rfl, audibleRunsOut_tableKept pos s⟩
  | chimePeriodEnd => exact ⟨_, rfl, (changes_onCadence s _).tableKept rfl rfl⟩
  | flashPeriodEnd => exact ⟨_, rfl, (changes_onCadence s _).tableKept rfl rfl⟩
  | cadenceOnPartEnd timer => exact ⟨_, rfl, (changes_onCadence s _).tableKept rfl rfl⟩
  | outenAsserted => exact ⟨_, rfl, outenRises_tableKept s⟩
  | outenDeasserted =>
    exact ⟨_, rfl, ((changes_onPins s _).tableKept rfl rfl).leave (changes_onCadence _ _) rfl rfl⟩
  | nop arg => exact ⟨_, rfl, takeRequest_tableKept _ arg s (fun t => respond_tableKept _ t)⟩
  | getFront arg => exact ⟨_, rfl, takeRequest_tableKept _ arg s (fun t => respond_tableKept _ t)⟩
  | getPosition arg => exact ⟨_, rfl, takeRequest_tableKept _ arg s (answerPosition_tableKept arg)⟩
  | getStatus arg => exact ⟨_, rfl, takeRequest_tableKept _ arg s (fun t => respond_tableKept _ t)⟩
  | lock arg => exact ⟨_, rfl, takeRequest_tableKept _ arg s (answerLock_tableKept arg)⟩
  | frameError => exact ⟨_, rfl, takeFrame_tableKept s (respond_tableKept _ s)⟩
  | unknownCommand command arg => exact ⟨_, rfl, takeRequest_tableKept command arg s (respond_tableKept _)⟩
  | vehicleState speed gear closures =>
    exact ⟨_, rfl, receive_tableKept s ((takeVehicleState_changes speed gear closures s).tableKept rfl rfl)⟩
  | freshnessTimerExpiry => exact ⟨_, rfl, (freshnessExpires_changes s).tableKept rfl rfl⟩
  | degradeTimerExpiry => exact ⟨_, rfl, (degradeExpires_changes s).tableKept rfl rfl⟩
  | mapTimerExpiry => exact ⟨_, rfl, (mapExpires_changes s).tableKept rfl rfl⟩
  | mapRequest => exact ⟨_, rfl, receive_tableKept s ((takeMapRequest_changes s).tableKept rfl rfl)⟩
  | reminderAck mask => exact ⟨_, rfl, receive_tableKept s ((takeAck_changes mask s).tableKept rfl rfl)⟩
  | readParam id value =>
    exact ⟨_, rfl, takeService_tableKept _ _ (fun t => (answerReadParam_changes id value t).tableKept rfl rfl) s⟩
  | writeParam id value =>
    exact ⟨_, rfl, takeService_tableKept _ _ (fun t => (answerWriteParam_changes id value t).tableKept rfl rfl) s⟩
  | clearChildList => exact ⟨_, rfl, takeService_tableKept _ _ answerClear_tableKept s⟩
  | readChildEntry index =>
    exact ⟨_, rfl, takeService_tableKept _ _ (fun t => (answerReadEntry_changes index t).tableKept rfl rfl) s⟩
  | readRow row => exact ⟨_, rfl, takeService_tableKept _ _ (fun t => (answerReadRow_changes row t).tableKept rfl rfl) s⟩
  | unknownServiceRequest kind =>
    exact ⟨_, rfl, takeService_tableKept kind _ (fun t => (sendReply_changes _ t).tableKept rfl rfl) s⟩
  | writeCompletion outcome => exact ⟨_, rfl, writeCompletes_tableKept outcome s⟩
  | transmitAcknowledged => exact ⟨_, rfl, (transmitAcked_changes s).tableKept rfl rfl⟩
  | busOff => exact ⟨_, rfl, tableKept_outsideReset s ((busGoesOff_changes s).tableKept rfl rfl)⟩
  | busOffRecovery => exact ⟨_, rfl, (busRecovers_changes s).tableKept rfl rfl⟩
  | matingDebounceStop row => exact ⟨_, rfl, senseReadsUnmated_tableKept row s⟩
  | supplyBelowHoldThreshold edge => exact ⟨_, rfl, (supplyEdge_changes edge s).tableKept rfl rfl⟩
  | resetRelease => exact ⟨_, rfl, (releaseReset_changes s).tableKept rfl rfl⟩

/-! ### The release and reset -/

/-- After reset the settled records are those published, and no mark stands (R102, R174). -/
theorem resetPart_publicationInv (cause : ResetCause) (straps : Straps) (s : State) :
    PublicationInv (resetPart cause straps s) := by
  intro p
  have hu : unpublished (resetPart cause straps s) p = false := by
    unfold unpublished
    rw [resetPart_cls]
    exact bne_self_eq_false _
  rw [hu]
  exact ⟨PerPos.get_all _ p, fun _ => rfl⟩

theorem holdExpires_publicationInv {s : State} (h : PublicationInv s) : PublicationInv (holdExpires s) := by
  unfold holdExpires
  split
  · exact ((endEvent_changes _).tableKept rfl rfl).exact (releaseLock_publicationInv h)
  · exact h

theorem answerUnlock_publicationInv {s : State} (h : PublicationInv s) : PublicationInv (answerUnlock s) := by
  unfold answerUnlock
  split
  · exact ((respond_tableKept _ _).leave (endEvent_changes _) rfl rfl).exact (releaseLock_publicationInv h)
  · exact (respond_tableKept _ s).exact h

/-- UNLOCK where it is taken, and where it is not heard or answered NOT_READY. -/
theorem takeUnlock_publicationInv (arg : Byte) {s : State} (h : PublicationInv s) :
    PublicationInv (takeRequest 0x0B arg answerUnlock s) := by
  unfold takeRequest takeFrame outsideReset
  dsimp only
  split
  · exact h
  · split
    · exact ((wake_changes s).tableKept rfl rfl).exact h
    · split
      · exact ((changes_onPort s _).tableKept rfl rfl).exact h
      · have hport := (changes_onPort s (fun v => { v with lastRequest := some ⟨0x0B, arg⟩ })).tableKept rfl rfl
        split
        · exact answerUnlock_publicationInv (hport.exact h)
        · exact ((hport.leave (changes_onPort _ _) rfl rfl).andThen (respond_tableKept _ _)).exact h

theorem exec_publicationInv (c : Instr) {s : State} (h : PublicationInv s) :
    ∃ t, exec c s = .next t ∧ PublicationInv t := by
  cases hc : endsLock c with
  | false =>
    obtain ⟨t, ht, hk⟩ := exec_tableKept hc s
    exact ⟨t, ht, hk.exact h⟩
  | true =>
    unfold endsLock at hc
    split at hc
    case h_1 cause straps => exact ⟨_, rfl, resetPart_publicationInv cause straps s⟩
    case h_2 arg => exact ⟨_, rfl, takeUnlock_publicationInv arg h⟩
    case h_3 => exact ⟨_, rfl, holdExpires_publicationInv h⟩
    case h_4 => nomatch hc

/-! ### The idle step -/

/-- The hold timer counts, and nothing else of the Publication Unit moves. -/
theorem countTimers_tableKept (s : State) : TableKept s (countTimers s) := ⟨id, fun hl => ⟨rfl, rfl, hl⟩⟩

theorem whenTrue_tableKept {c : State → Bool} {f : State → State} (h : ∀ t, TableKept t (f t)) (s : State) :
    TableKept s (whenTrue c f s) := tableKept_ite (h s) (TableKept.refl s)

theorem periodExpiries_tableKept (chime flash : Bool) (s : State) : TableKept s (periodExpiries chime flash s) :=
  have h : TableKept s (if chime then s.onCadence Cadence.chimeEnds else s) :=
    tableKept_ite ((changes_onCadence s _).tableKept rfl rfl) (TableKept.refl s)
  tableKept_ite (h.leave (changes_onCadence _ _) rfl rfl) h

theorem monitorExpiries_tableKept (s : State) : TableKept s (monitorExpiries s) :=
  (whenTrue_tableKept (fun t => (secondsTick_changes t).tableKept rfl rfl) s).andThen <| whenTrue_tableKept (fun t =>
    tableKept_ite ((changes_onMonitor t _).tableKept rfl rfl)
      (tableKept_ite ((ignAsserts_changes t).tableKept rfl rfl) ((ignDeasserts_changes t).tableKept rfl rfl))) _

theorem rowExpiries_tableKept (r : Row) (s : State) : TableKept s (rowExpiries r s) := by
  unfold rowExpiries
  exact (((whenTrue_tableKept (rowArrives_tableKept r) s).andThen (whenTrue_tableKept (settleExpires_tableKept r) _)).andThen
    (whenTrue_tableKept (fun t => (powerOffExpires_changes r t).tableKept rfl rfl) _)).andThen
    (whenTrue_tableKept (fun t => (stabilityExpires_changes r t).tableKept rfl rfl) _)

theorem positionExpiries_tableKept (p : Pos) (s : State) : TableKept s (positionExpiries p s) := by
  unfold positionExpiries
  exact (((whenTrue_tableKept (goStale_tableKept p) s).andThen
    (whenTrue_tableKept (fun t => (scanExpires_changes p t.monitor.now t).tableKept rfl rfl) _)).andThen
    (whenTrue_tableKept (delayRunsOut_tableKept p) _)).andThen (whenTrue_tableKept (audibleRunsOut_tableKept p) _)

theorem bodyExpiries_tableKept (s : State) : TableKept s (bodyExpiries s) := by
  unfold bodyExpiries
  exact ((whenTrue_tableKept (fun t => (freshnessExpires_changes t).tableKept rfl rfl) s).andThen
    (whenTrue_tableKept (fun t => (degradeExpires_changes t).tableKept rfl rfl) _)).andThen
    (whenTrue_tableKept (fun t => (mapExpires_changes t).tableKept rfl rfl) _)

theorem lateExpiries_tableKept (s : State) : TableKept s (lateExpiries s) := by
  unfold lateExpiries
  exact ((whenTrue_tableKept (fun t => (setHold_changes t).tableKept rfl rfl) s).andThen
    (whenTrue_tableKept (fun t => (restExpires_changes t).tableKept rfl rfl) _)).andThen
    (whenTrue_tableKept endWakeSettle_tableKept _)

theorem whenTrue_publicationInv {c : State → Bool} {f : State → State}
    (hf : ∀ {t}, PublicationInv t → PublicationInv (f t)) {s : State} (h : PublicationInv s) :
    PublicationInv (whenTrue c f s) := by
  unfold whenTrue
  split
  · exact hf h
  · exact h

/-- Of the expiries the lock's hold timer alone may release the lock; those before and after it keep the table. -/
theorem takeExpiries_publicationInv (chime flash : Bool) {s : State} (h : PublicationInv s) :
    PublicationInv (takeExpiries chime flash s) := by
  unfold takeExpiries
  refine ((bodyExpiries_tableKept _).andThen (lateExpiries_tableKept _)).exact
    (whenTrue_publicationInv holdExpires_publicationInv ?_)
  exact ((((((periodExpiries_tableKept chime flash s).andThen (monitorExpiries_tableKept _)).andThen
    (tableKept_forEach rowExpiries_tableKept _ _)).andThen (whenTrue_tableKept slotExpires_tableKept _)).andThen
    (tableKept_forEach (fun r t => whenTrue_tableKept (tagReadTimesOut_tableKept r) t) _ _)).andThen
    (tableKept_forEach positionExpiries_tableKept _ _)).exact h

theorem tick_publicationInv {s : State} (h : PublicationInv s) : PublicationInv (tick s) := by
  unfold tick
  split
  · exact ((changes_onMonitor s _).tableKept rfl rfl).exact h
  · exact takeExpiries_publicationInv _ _ ((countTimers_tableKept s).exact h)

end Sys2Proof.Machine

namespace Sys2Proof.Certificates

open Sys2Proof.Machine

/-- Settles O53: whatever moves a settled record ends with a batch, the lock's release publishes what is pending, and nothing
else touches the Publication Unit. -/
theorem everyStepPublishes : Obligations.EveryStepPublishes := by
  intro s t hs h
  unfold step at h
  split at h
  case h_1 c rest _ =>
    obtain ⟨u, hu, hi⟩ := exec_publicationInv c (s := { s with pending := rest }) hs
    exact Host.Outcome.next.inj (hu.symm.trans h) ▸ hi
  case h_2 => exact Host.Outcome.next.inj h ▸ tick_publicationInv hs

/-- Settles O60: under the lock a batch moves the pending marks alone, and the release is left to the three commands. -/
theorem lockHoldsTheTable : Obligations.LockHoldsTheTable := by
  intro c s hl hc
  have hlock : endsLock c = false := by
    cases c with
    | reset | unlock | lockHoldTimerExpiry => exact hc.elim
    | _ => rfl
  obtain ⟨t, ht, hk⟩ := exec_tableKept hlock s
  exact ⟨t, ht, hk.held hl⟩

end Sys2Proof.Certificates
end

section
/-! PROOFS. A notice enters the queue, by the four cases of R161 (R105, R159, R160, R161). -/

namespace Sys2Proof.Machine

/-! ### The class of a notice (R105, R160) -/

theorem urgentClass_eq (c : Byte) : urgentClass c = decide (4 ≤ c.toNat ∧ c.toNat ≤ 7) := by
  rw [Bool.eq_iff_iff]
  simp only [urgentClass, Bool.or_eq_true, beq_iff_eq, decide_eq_true_eq, ← BitVec.toNat_inj,
    BitVec.reduceToNat]
  omega

theorem noticeUrgent_eq_urgentByMap (g : Groups) (n : Notice) : noticeUrgent g n = urgentByMap g n := by
  unfold noticeUrgent urgentByMap
  simp only [urgentClass_eq, beq_eq_decide]

/-! ### The cases of R161 -/

theorem coalesces_iff (n : Notice) (e : QueueEntry) : coalesces n e = true
    ↔ e.urgent = false ∧ e.notice.kind = n.kind ∧ e.notice.subject = n.subject := by
  simp only [coalesces, Bool.and_eq_true, Bool.not_eq_true', beq_iff_eq, and_assoc]

theorem withdraw_singleton (slot : Option SlotFrame) (e : QueueEntry) :
    withdraw slot [e] = if e.inSlot then none else slot := by
  rw [withdraw, List.any_cons, List.any_nil, Bool.or_false]

/-- A part of the queue in which nothing coalesces is left by case 1 of R161. -/
theorem map_coalesced_of_none {n : Notice} {q : List QueueEntry} (h : ∀ x ∈ q, ¬ coalesces n x = true) :
    q.map (fun x => if coalesces n x then coalesced n x else x) = q :=
  (List.map_congr_left (fun x hx => if_neg (h x hx))).trans (List.map_id' q)

section
variable {b : Body} {n : Notice} {l r : List QueueEntry} {e : QueueEntry}

/-- Of the entries that the invariant keeps apart, a notice coalesces with one at most. -/
theorem QueueInv.coalesces_once (h : QueueInv b) (hq : b.queue = l ++ e :: r) (he : coalesces n e = true) :
    ∀ x ∈ l ++ r, ¬ coalesces n x = true := by
  obtain ⟨_, hpairs, _⟩ := h
  have hsymm : ∀ {x y : QueueEntry}, ¬ sameRoutine x y → ¬ sameRoutine y x := fun hxy hyx => by
    obtain ⟨hy, hx, hkind, hsubject⟩ := hyx
    exact hxy ⟨hx, hy, hkind.symm, hsubject.symm⟩
  rw [hq, List.pairwise_middle hsymm, List.pairwise_cons] at hpairs
  obtain ⟨hapart, _⟩ := hpairs
  obtain ⟨hu, hkind, hsubject⟩ := (coalesces_iff n e).mp he
  intro x hx hc
  obtain ⟨hu', hkind', hsubject'⟩ := (coalesces_iff n x).mp hc
  exact hapart x hx ⟨hu, hu', hkind.trans hkind'.symm, hsubject.trans hsubject'.symm⟩

/-- Case 1: the one entry of a ROUTINE notice's kind and subject takes it over where it stands. -/
theorem Body.enter_coalesces (h : QueueInv b) (hq : b.queue = l ++ e :: r) (he : coalesces n e = true) :
    b.enter false n = { b with
      queue := l ++ coalesced n e :: r, slot := if e.inSlot then none else b.slot } := by
  have hothers := h.coalesces_once hq he
  have hleft : ∀ x ∈ l, ¬ coalesces n x = true := fun x hx => hothers x (List.mem_append_left r hx)
  have hright : ∀ x ∈ r, ¬ coalesces n x = true := fun x hx => hothers x (List.mem_append_right l hx)
  have hany : b.queue.any (coalesces n) = true := List.any_eq_true.mpr ⟨e, by rw [hq]; simp, he⟩
  have hmap : b.queue.map (fun x => if coalesces n x then coalesced n x else x) = l ++ coalesced n e :: r := by
    rw [hq, List.map_append, List.map_cons, map_coalesced_of_none hleft, map_coalesced_of_none hright, if_pos he]
  have hfilter : b.queue.filter (coalesces n) = [e] := by
    rw [hq, List.filter_append, List.filter_cons_of_pos he, List.filter_eq_nil_iff.mpr hleft,
      List.filter_eq_nil_iff.mpr hright, List.nil_append]
  rw [Body.enter, hany, Bool.not_false, Bool.and_self, if_pos rfl, hmap, hfilter, withdraw_singleton]

/-- Case 2: a notice that coalesces with nothing joins the end of a queue with room. -/
theorem Body.enter_joins {u : Bool} (hno : (!u && b.queue.any (coalesces n)) = false) (hl : b.queue.length < 24) :
    b.enter u n = { b with queue := b.queue ++ [⟨n, u, false⟩] } := by
  rw [Body.enter, hno, if_neg Bool.false_ne_true, if_pos hl]

/-- Case 3: a ROUTINE notice that coalesces with nothing is dropped by a full queue. -/
theorem Body.enter_full_routine (hno : b.queue.any (coalesces n) = false) (hl : b.queue.length = 24) :
    b.enter false n = { b with resync := true } := by
  rw [Body.enter, hno, Bool.and_false, if_neg Bool.false_ne_true, if_neg (by omega), Bool.not_false, if_pos rfl]

/-- The queue without its youngest ROUTINE entry, and that entry. -/
theorem youngestRoutine_split (hq : b.queue = l ++ e :: r) (he : e.urgent = false) (hr : ∀ x ∈ r, x.urgent = true) :
    dropYoungestRoutine b.queue = l ++ r ∧ youngestRoutine b.queue = [e] := by
  have hpast : ∀ x ∈ r.reverse, ¬ (!x.urgent) = true := fun x hx => by simp [hr x (List.mem_reverse.mp hx)]
  have hreverse : b.queue.reverse = r.reverse ++ e :: l.reverse := by rw [hq]; simp
  have hstop : (!e.urgent) = true := by rw [he]; rfl
  constructor
  · rw [dropYoungestRoutine, hreverse, List.eraseP_append_right _ hpast,
      List.eraseP_cons_of_pos (p := fun x : QueueEntry => !x.urgent) hstop, List.reverse_append,
      List.reverse_reverse, List.reverse_reverse]
  · rw [youngestRoutine, hreverse, List.find?_append, List.find?_eq_none.mpr hpast, 
      List.find?_cons_of_pos (p := fun x : QueueEntry => !x.urgent) hstop]
    rfl

/-- Case 4: an URGENT notice displaces the youngest ROUTINE entry of a full queue. -/
theorem Body.enter_displaces (hl : b.queue.length = 24) (hq : b.queue = l ++ e :: r) (he : e.urgent = false)
    (hr : ∀ x ∈ r, x.urgent = true) : b.enter true n = { b with
      queue := l ++ r ++ [⟨n, true, false⟩], slot := if e.inSlot then none else b.slot, resync := true } := by
  obtain ⟨hdrop, hyoungest⟩ := youngestRoutine_split hq he hr
  have hany : b.queue.any (fun x => !x.urgent) = true := List.any_eq_true.mpr ⟨e, by rw [hq]; simp, by rw [he]; rfl⟩
  rw [Body.enter, Bool.not_true, Bool.false_and, if_neg Bool.false_ne_true, if_neg (by omega), if_neg Bool.false_ne_true,
    hany, if_pos rfl, hdrop, hyoungest, withdraw_singleton]

/-- Case 4 without a ROUTINE entry: an URGENT notice is dropped by a full queue. -/
theorem Body.enter_full_urgent (hl : b.queue.length = 24) (hall : ∀ x ∈ b.queue, x.urgent = true) :
    b.enter true n = { b with resync := true } := by
  have hany : b.queue.any (fun x => !x.urgent) = false := List.any_eq_false.mpr (fun x hx => by simp [hall x hx])
  rw [Body.enter, Bool.not_true, Bool.false_and, if_neg Bool.false_ne_true, if_neg (by omega), if_neg Bool.false_ne_true,
    hany, if_neg Bool.false_ne_true]

end

end Sys2Proof.Machine

namespace Sys2Proof.Certificates

open Sys2Proof.Machine

/-- Settles O49: the class is that of the map, and each case of R161 is one case of `Body.enter`. -/
theorem noticeEntersTheQueue : Obligations.NoticeEntersTheQueue := by
  refine ⟨fun s n => ?_, fun b n hinv => ⟨fun l e r hq hsame => ?_, fun hnone => ?_, ?_, fun hl => ⟨?_, ?_⟩⟩⟩
  · rw [← noticeUrgent_eq_urgentByMap]
    rfl
  · have hcoalesces := (coalesces_iff n e).mpr hsame
    obtain ⟨hurgent, _⟩ := hsame
    rw [Body.enter_coalesces hinv hq hcoalesces, coalesced, hurgent]
  · have hno : b.queue.any (coalesces n) = false :=
      List.any_eq_false.mpr (fun e he hc => hnone e he ((coalesces_iff n e).mp hc))
    exact ⟨Body.enter_joins (by rw [hno, Bool.and_false]), Body.enter_full_routine hno⟩
  · exact Body.enter_joins rfl
  · exact fun l e r => Body.enter_displaces hl
  · exact Body.enter_full_urgent hl

end Sys2Proof.Certificates
end

section
/-! PROOFS. A batch as one event: the table and the epoch, the CLASS_CHANGE notices that it makes and that wait through the
REMINDER notices behind them, and the reminders of the positions whose BELT_REQUIRED it changes (R103 to R105, R108, R118, R121,
R161, R171). -/

namespace Sys2Proof.Machine

/-! ### An entry while notices enter behind it (R161) -/

/-- An entry stays as it is while a notice of another kind or subject enters a queue with room. -/
theorem Body.mem_enter_of_mem {b : Body} {e : QueueEntry} {m : Notice} (u : Bool) (he : e ∈ b.queue)
    (hl : b.queue.length < 24) (hm : ¬ (e.notice.kind = m.kind ∧ e.notice.subject = m.subject)) :
    e ∈ (b.enter u m).queue := by
  rw [Body.enter_room u m hl]
  split
  · exact List.mem_map.mpr ⟨e, he, if_neg (fun hc => hm ((coalesces_iff m e).mp hc).2)⟩
  · exact List.mem_append_left _ he

/-- A notice that no entry of its kind and subject awaits joins a queue with room as an entry of its own. -/
theorem Body.mem_enter_self {b : Body} {n : Notice} (u : Bool) (hl : b.queue.length < 24)
    (hn : NoneWaits b n.kind n.subject) : ⟨n, u, false⟩ ∈ (b.enter u n).queue := by
  have hno : b.queue.any (coalesces n) = false :=
    List.any_eq_false.mpr (fun e he hc => hn e he ((coalesces_iff n e).mp hc).2)
  rw [Body.enter_joins (by rw [hno, Bool.and_false]) hl]
  exact List.mem_append_right _ (List.mem_singleton_self _)

/-- Whatever its room, a queue takes from a notice no kind and subject but the notice's own. -/
theorem Body.enter_noneWaits {b : Body} {k : NoticeKind} {x : Subject} {m : Notice} (u : Bool) (h : NoneWaits b k x)
    (hm : ¬ (m.kind = k ∧ m.subject = x)) : NoneWaits (b.enter u m) k x := by
  have hnew : ∀ {q : List QueueEntry}, (∀ e ∈ q, e ∈ b.queue) → ∀ e ∈ q ++ [⟨m, u, false⟩],
      ¬ (e.notice.kind = k ∧ e.notice.subject = x) := fun hq e he => by
    obtain he | he := List.mem_append.mp he
    · exact h e (hq e he)
    · rw [List.mem_singleton.mp he]
      exact hm
  unfold Body.enter
  split
  · intro e he
    obtain ⟨x, hx, rfl⟩ := List.mem_map.mp he
    have hsame := h x hx
    split <;> exact hsame
  · split
    · exact hnew (fun _ he => he)
    · split
      · exact h
      · split
        · exact hnew (fun e he => List.mem_reverse.mp (List.mem_of_mem_eraseP (List.mem_reverse.mp he)))
        · exact h

theorem forEach_append_cons {α : Type} (l : List α) (a : α) (r : List α) (f : α → State → State) (s : State) :
    forEach (l ++ a :: r) f s = forEach r f (f a (forEach l f s)) := by
  unfold forEach
  rw [List.foldl_append, List.foldl_cons]

/-- An entry that each of several operations leaves while there is room stays through all of them, where there is room for a
notice of each. -/
theorem mem_queue_forEach {α : Type} {f : α → State → State} {e : QueueEntry}
    (hlength : ∀ a s, (f a s).body.queue.length ≤ s.body.queue.length + 1) : ∀ {l : List α} {s : State},
    (∀ a ∈ l, ∀ t : State, t.body.queue.length < 24 → e ∈ t.body.queue → e ∈ (f a t).body.queue) →
    s.body.queue.length + l.length ≤ 24 → e ∈ s.body.queue → e ∈ (forEach l f s).body.queue
  | [], _, _, _, he => he
  | a :: l, s, hstays, hroom, he => by
    rw [List.length_cons] at hroom
    have hone := hlength a s
    exact mem_queue_forEach hlength (l := l) (s := f a s) (fun c hc => hstays c (List.mem_cons_of_mem a hc)) (by omega)
      (hstays a List.mem_cons_self s (by omega) he)

/-! ### The notices of a batch (R105) -/

/-- The CLASS_CHANGE that a batch makes of a position (R105). -/
def batchNotice (s : State) (p : Pos) : Notice := classNotice p (s.pub.table.get p) (s.cls.get p).settled

/-- A batch with its table moved and its notices made, before the rest timer restarts. -/
def batchNoticed (ps : List Pos) (s : State) : State :=
  forEach ps (fun p => notify (batchNotice s p)) (s.onPub (fun u => { u with
    table := u.table.mapIdx (fun p r => if ps.contains p then (s.cls.get p).settled else r)
    epoch := u.epoch + 1 }))

theorem batchTaken_eq (ps : List Pos) (s : State) : batchTaken ps s = restartRest (batchNoticed ps s) := rfl

theorem batchNoticed_changes (ps : List Pos) (s : State) : ChangesOnly [.pub, .body] s (batchNoticed ps s) :=
  (changes_onPub s _).widen.andThen (changesOnly_forEach (fun p t => notify_changes (batchNotice s p) t) ps _)

theorem forEach_notify_noneWaits (f : Pos → Notice) {k : NoticeKind} {x : Subject} : ∀ {l : List Pos} {s : State},
    (∀ p ∈ l, ¬ ((f p).kind = k ∧ (f p).subject = x)) → NoneWaits s.body k x →
    NoneWaits (forEach l (fun p => notify (f p)) s).body k x
  | [], _, _, h => h
  | p :: l, s, hf, h => forEach_notify_noneWaits f (l := l) (s := notify (f p) s)
      (fun q hq => hf q (List.mem_cons_of_mem p hq)) (Body.enter_noneWaits _ h (hf p List.mem_cons_self))

/-- Each of the notices of several positions joins the queue, where it has room for all of them and none of them waits. -/
theorem mem_forEach_notify {s b : State} {ps : List Pos} (hnodup : ps.Nodup)
    (hroom : s.body.queue.length + ps.length ≤ 24) {p : Pos} (hp : p ∈ ps)
    (hn : NoneWaits s.body .classChange (.position p)) :
    ⟨batchNotice b p, noticeUrgent s.settings.active (batchNotice b p), false⟩
      ∈ (forEach ps (fun q => notify (batchNotice b q)) s).body.queue := by
  obtain ⟨l, r, rfl⟩ := List.append_of_mem hp
  rw [List.length_append, List.length_cons] at hroom
  obtain ⟨honce, _⟩ := List.nodup_cons.mp (List.nodup_middle.mp hnodup)
  have hother : ∀ q ∈ l ++ r, (batchNotice b q).subject ≠ .position p := fun q hq hs =>
    honce (Subject.position.inj hs ▸ hq)
  have hgrows := forEach_queue_length_le (fun q t => notify_queue_length_le (batchNotice b q) t) l s
  have hsettings := (changesOnly_forEach (fun q t => notify_changes (batchNotice b q) t) l s).settings
  have hjoins := Body.mem_enter_self (noticeUrgent s.settings.active (batchNotice b p)) (n := batchNotice b p)
    (b := (forEach l (fun q => notify (batchNotice b q)) s).body) (by omega)
    (forEach_notify_noneWaits _ (fun q hq hc => hother q (List.mem_append_left r hq) hc.2) hn)
  rw [forEach_append_cons]
  refine mem_queue_forEach (fun q t => notify_queue_length_le _ t) (fun q hq t hl he => ?_) ?_ ?_
  · exact Body.mem_enter_of_mem _ he hl (fun hc => hother q (List.mem_append_right l hq) hc.2.symm)
  · have hone := notify_queue_length_le (batchNotice b p) (forEach l (fun q => notify (batchNotice b q)) s)
    omega
  · rw [← hsettings] at hjoins ⊢
    exact hjoins

/-- An entry of another kind stays while the lists of a position are evaluated and the queue has room (R121, R135). -/
theorem MayRemind.mem_queue {s t : State} (h : MayRemind s t) {e : QueueEntry} (he : e ∈ s.body.queue)
    (hl : s.body.queue.length < 24) (hk : e.notice.kind ≠ .reminder) : e ∈ t.body.queue := by
  obtain h | ⟨u, m, hm, h⟩ := h <;> rw [h]
  · exact he
  · exact Body.mem_enter_of_mem u he hl (fun hc => hk (hc.1.trans hm))

/-- In a queue with room for two notices of each of its positions, a batch's CLASS_CHANGE notices all wait at its end. -/
theorem publishBatch_notices {s : State} {ps : List Pos} (hnodup : ps.Nodup)
    (hroom : s.body.queue.length + 2 * ps.length ≤ 24) {p : Pos} (hp : p ∈ ps)
    (hn : NoneWaits s.body .classChange (.position p)) :
    ⟨batchNotice s p, noticeUrgent s.settings.active (batchNotice s p), false⟩ ∈ (publishBatch ps s).body.queue := by
  have hbody : (batchTaken ps s).body = (batchNoticed ps s).body := (restartRest_changes _).body
  have hgrows : (batchNoticed ps s).body.queue.length ≤ s.body.queue.length + 1 * ps.length :=
    forEach_queue_length_le (fun q t => notify_queue_length_le (batchNotice s q) t) ps _
  rw [publishBatch_eq (by simpa using List.ne_nil_of_mem hp)]
  refine mem_queue_forEach (fun q t => afterSeatChange_queue_length_le false s q t)
    (fun q _ t hl he => (afterSeatChange_mayRemind false s q t).mem_queue he hl (by nofun)) ?_ ?_
  · rw [hbody]
    omega
  · rw [hbody]
    exact mem_forEach_notify hnodup (s := s.onPub _) (by rw [State.onPub_body]; omega) hp hn

/-! ### The table, the epoch and the rest timer (R104, R171) -/

theorem publishBatch_pub (ps : List Pos) (s : State) : (publishBatch ps s).pub = { s.pub with
    table := (publishBatch ps s).pub.table, epoch := if ps = [] then s.pub.epoch else s.pub.epoch + 1 } := by
  by_cases h : ps = []
  · rw [h]
    rfl
  · rw [publishBatch_eq (by simpa using h), if_neg h,
      (changesOnly_forEach (afterSeatChange_changes false s) ps _).pub, batchTaken_pub]

theorem publishBatch_monitor {ps : List Pos} (h : ps ≠ []) (s : State) :
    (publishBatch ps s).monitor = (restartRest s).monitor := by
  rw [publishBatch_eq (by simpa using h), (changesOnly_forEach (afterSeatChange_changes false s) ps _).monitor]
  have hc := batchNoticed_changes ps s
  rw [batchTaken_eq, restartRest_monitor, restartRest_monitor, hc.monitor, restTime, restTime, hc.settings]

/-! ### The reminders (R118, R121) -/

section
variable {b : State} {q : Pos}

/-- A position whose BELT_REQUIRED and BUCKLE_OPEN stand keeps its reminder. -/
theorem afterSeatChanges_rem_unchanged : ∀ (ps : List Pos) {s : State}, beltRequired b q = beltRequired s q →
    buckleOpen b q = buckleOpen s q → (forEach ps (afterSeatChange false b) s).rem.get q = s.rem.get q
  | [], _, _, _ => rfl
  | p :: ps, s, hb, ho => by
    show (forEach ps (afterSeatChange false b) (afterSeatChange false b p s)).rem.get q = _
    have hs := (evaluatesLists_afterSeatChange b).signals p q s
    rw [afterSeatChanges_rem_unchanged ps (hb.trans hs.beltRequired.symm) (ho.trans hs.buckleOpen.symm)]
    by_cases hq : q = p
    · subst hq
      rw [afterSeatChange_unchanged hb ho]
    · exact afterSeatChange_rem_other hq false b s

/-- A position of the batch whose BELT_REQUIRED changed has its lists evaluated, and its reminder steps once. -/
theorem afterSeatChanges_rem_changed {ps : List Pos} (hm : q ∈ ps) {s : State} (hb : beltRequired b q ≠ beltRequired s q)
    (hh : remHeld s q = false) (hr : RemTimersInv (s.rem.get q)) :
    (forEach ps (afterSeatChange false b) s).rem.get q = listed s q (s.rem.get q) := by
  induction ps generalizing s with
  | nil => exact absurd hm List.not_mem_nil
  | cons p ps ih =>
    show (forEach ps (afterSeatChange false b) (afterSeatChange false b p s)).rem.get q = _
    have hf := evaluatesLists_afterSeatChange b
    have hs := hf.signals p q s
    by_cases hq : q = p
    · subst hq
      have hone : (afterSeatChange false b q s).rem.get q = listed s q (s.rem.get q) := by
        unfold afterSeatChange
        rw [if_neg (fun hc => hb hc.1), evaluateLists_rem hh hr]
      obtain e | e := hf.forEach_stepped ps (hs.remHeld.trans hh) (by rw [hone]; exact listed_timersInv hr s q)
      · rw [e, hone]
      · rw [e, hone, hs.listed, listed_again]
    · have hone := afterSeatChange_rem_other hq false b s
      rw [ih ((List.mem_cons.mp hm).resolve_left hq) (by rwa [hs.beltRequired]) (hs.remHeld.trans hh)
        (by rw [hone]; exact hr), hs.listed, hone]

end

/-- The signals that a batch leaves when it is taken stand to its end. -/
theorem publishBatch_signals {ps : List Pos} (h : ps ≠ []) (s : State) (p : Pos) :
    SameSignals (batchTaken ps s) (publishBatch ps s) p := by
  rw [publishBatch_eq (by simpa using h)]
  exact (evaluatesLists_afterSeatChange s).forEach_signals p ps _

theorem batchTaken_buckleOpen (ps : List Pos) (s : State) (p : Pos) : buckleOpen s p = buckleOpen (batchTaken ps s) p := by
  unfold buckleOpen
  rw [(batchTaken_changes ps s).cls]

/-- Held positions, and those whose BELT_REQUIRED the batch leaves, keep their reminders. -/
theorem publishBatch_rem_unchanged {ps : List Pos} {s : State} {p : Pos}
    (h : remHeld s p = true ∨ beltRequired (publishBatch ps s) p = beltRequired s p) :
    (publishBatch ps s).rem.get p = s.rem.get p := by
  by_cases hps : ps = []
  · rw [hps]
    rfl
  · have hrem : (batchTaken ps s).rem.get p = s.rem.get p := by rw [(batchTaken_changes ps s).rem]
    have hsignals := publishBatch_signals hps s p
    rw [hsignals.beltRequired] at h
    rw [publishBatch_eq (by simpa using hps), ← hrem]
    obtain hheld | hbelt := h
    · exact (evaluatesLists_afterSeatChange s).forEach_held ps ((batchTaken_remHeld ps s p).trans hheld)
    · exact afterSeatChanges_rem_unchanged ps hbelt.symm (batchTaken_buckleOpen ps s p)

/-- A position that is not held and whose BELT_REQUIRED the batch changes acts on its lists, as they stand at the end. -/
theorem publishBatch_rem_changed {ps : List Pos} {s : State} {p : Pos} (hh : remHeld s p = false)
    (hb : beltRequired (publishBatch ps s) p ≠ beltRequired s p) (hr : RemTimersInv (s.rem.get p)) :
    (publishBatch ps s).rem.get p = ladderStep (s.rem.get p) (startResult (publishBatch ps s) p)
      (escalateResult (publishBatch ps s) p) (startDelay s p) (episodeLimit s) (audibleTime s) := by
  have hps : ps ≠ [] := by
    rintro rfl
    exact hb rfl
  have hc := batchTaken_changes ps s
  have hsignals := publishBatch_signals hps s p
  rw [hsignals.beltRequired] at hb
  have hmem : p ∈ ps := Classical.byContradiction (fun hm => hb (batchTaken_beltRequired hm).symm)
  rw [hsignals.startResult, hsignals.escalateResult, publishBatch_eq (by simpa using hps),
    afterSeatChanges_rem_changed hmem hb.symm ((batchTaken_remHeld ps s p).trans hh) (by rw [hc.rem]; exact hr), hc.rem]
  unfold listed startDelay episodeLimit audibleTime
  rw [hc.settings]

/-! ### The positions of a batch -/

theorem unpublished_eq_decide (s : State) (p : Pos) :
    unpublished s p = decide ((s.cls.get p).settled ≠ s.pub.table.get p) := by
  rw [unpublished, bne, beq_eq_decide, ← decide_not]

/-- Outside the lock one batch takes every position whose settled record differs from its published one (R104). -/
theorem publish_unlocked {s : State} (hl : s.pub.locked = false) :
    publish s = publishBatch (allPos.filter (fun p => decide ((s.cls.get p).settled ≠ s.pub.table.get p))) s := by
  unfold publish
  rw [if_neg (by simp [hl]), funext (unpublished_eq_decide s)]

end Sys2Proof.Machine

namespace Sys2Proof.Certificates

open Sys2Proof.Machine

/-- Settles O33: outside the lock the batch of the changed positions, each part of the state by its own rule; under the lock the
marks. -/
theorem batchIsPublished : Obligations.BatchIsPublished := by
  refine ⟨fun s hl => ?_, fun s hl => ⟨fun p => ?_, ?_⟩⟩
  · dsimp only
    refine ⟨publish_table hl, ?_⟩
    have hnodup := allPos_nodup.filter (fun p => decide ((s.cls.get p).settled ≠ s.pub.table.get p))
    rw [publish_unlocked hl]
    generalize allPos.filter (fun p => decide ((s.cls.get p).settled ≠ s.pub.table.get p)) = moved at hnodup ⊢
    refine ⟨publishBatch_pub moved s, ?_, fun hnone => ?_, fun hroom hn p hp => ?_, fun p => publishBatch_rem_unchanged,
      fun p => publishBatch_rem_changed, publishBatch_changes moved s⟩
    · split
      case isTrue hnone => rw [hnone]; rfl
      case isFalse hsome => exact publishBatch_monitor hsome s
    · rw [hnone]
      rfl
    · exact ⟨_, publishBatch_notices hnodup hroom hp (hn p), rfl, noticeUrgent_eq_urgentByMap _ _⟩
  · rw [← unpublished_eq_decide]
    unfold publish
    rw [if_pos hl]
    exact PerPos.get_mapIdx _ _ p
  · unfold publish
    rw [if_pos hl]
    rfl

end Sys2Proof.Certificates
end

section
/-! PROOFS. The crash lock is taken and released (R106, R107, R109 to R111, R151). -/

namespace Sys2Proof.Machine

/-! ### The lock is taken (R107) -/

theorem takeLock_pub (n : Nat) (s : State) :
    (takeLock n s).pub = { s.pub with locked := true, holdTimer := some n } := (afterVanChange_changes s _).pub

theorem respond_port (r : Response) (s : State) : (respond r s).port = { s.port with response := r } := by
  unfold respond
  rw [(restartRest_changes _).port]
  rfl

/-! ### The lock is released (R110, R111) -/

/-- From `s` to `t` the lock is released: the pending records are published, and the epoch counts a change of the table. -/
def LockReleased (s t : State) : Prop :=
  t.pub.locked = false ∧ t.pub.holdTimer = none
  ∧ (∀ p, t.pub.marks.get p = false
      ∧ t.pub.table.get p = (if s.pub.marks.get p = true then (s.cls.get p).settled else s.pub.table.get p))
  ∧ ((∃ p, t.pub.table.get p ≠ s.pub.table.get p) → t.pub.epoch = s.pub.epoch + 1)
  ∧ ((∀ p, t.pub.table.get p = s.pub.table.get p) → t.pub.epoch = s.pub.epoch)

/-- A release speaks of the Publication Unit, before it of the settled records too, and of nothing else. -/
theorem LockReleased.congr {s u t v : State} (h : LockReleased u t) (hp : u.pub = s.pub) (hc : u.cls = s.cls)
    (ht : v.pub = t.pub) : LockReleased s v := by
  unfold LockReleased at *
  rw [ht, ← hp, ← hc]
  exact h

/-- The positions whose pending records a release publishes. -/
def pendingPositions (s : State) : List Pos := allPos.filter (fun p => s.pub.marks.get p && unpublished s p)

theorem releaseLock_pub (s : State) : (releaseLock s).pub = { (publishBatch (pendingPositions s) s).pub with
    locked := false, holdTimer := none, marks := PerPos.all false } := by
  unfold releaseLock
  exact (afterVanChange_changes _ _).pub

theorem releaseLock_table (s : State) (p : Pos) : (releaseLock s).pub.table.get p
    = if s.pub.marks.get p && unpublished s p then (s.cls.get p).settled else s.pub.table.get p := by
  obtain ⟨_, _, _, htable⟩ := publishBatch_spec (pendingPositions s) s
  rw [releaseLock_pub]
  dsimp only
  rw [htable, pendingPositions, mem_allPos_filter]

theorem releaseLock_epoch (s : State) : (releaseLock s).pub.epoch
    = if pendingPositions s = [] then s.pub.epoch else s.pub.epoch + 1 := by
  rw [releaseLock_pub]
  dsimp only
  rw [publishBatch_pub]

/-- The published record of a position moves at a release where the position is pending and its settled record differs. -/
theorem releaseLock_table_ne_iff (s : State) (p : Pos) :
    (releaseLock s).pub.table.get p ≠ s.pub.table.get p ↔ p ∈ pendingPositions s := by
  have hmem : p ∈ pendingPositions s ↔ (s.pub.marks.get p && unpublished s p) = true := by simp [pendingPositions]
  rw [releaseLock_table, hmem]
  split
  case isTrue h =>
    obtain ⟨_, hu⟩ := Bool.and_eq_true_iff.mp h
    exact iff_of_true (by simpa [unpublished] using hu) h
  case isFalse h => exact iff_of_false (not_not.mpr rfl) h

theorem releaseLock_released (s : State) : LockReleased s (releaseLock s) := by
  refine ⟨by rw [releaseLock_pub], by rw [releaseLock_pub], fun p => ⟨?_, ?_⟩, fun ⟨p, hp⟩ => ?_, fun hsame => ?_⟩
  · rw [releaseLock_pub]
    exact PerPos.get_all _ p
  · rw [releaseLock_table]
    cases hu : unpublished s p with
    | true => rw [Bool.and_true]
    | false =>
      have hsettled : (s.cls.get p).settled = s.pub.table.get p := by simpa [unpublished] using hu
      rw [Bool.and_false, if_neg Bool.false_ne_true, hsettled, ite_self]
  · rw [releaseLock_epoch, if_neg (List.ne_nil_of_mem ((releaseLock_table_ne_iff s p).mp hp))]
  · rw [releaseLock_epoch, if_pos]
    exact List.eq_nil_iff_forall_not_mem.mpr (fun p hp => (releaseLock_table_ne_iff s p).mpr hp (hsame p))

/-! ### The requests -/

section
variable {s : State} (hr : Running s) (hw : s.port.wakingFrame = false) (hp : s.port.ready = true)
include hr hw hp

/-- A LOCK with one of the four hold selects takes the lock and is answered OK (R106, R107). -/
theorem exec_lock {arg : Byte} (ha : arg.toNat ≤ 3) : exec (.lock arg) s = .next (endEvent (respond ⟨0x0A, .ok, 0⟩
    (takeLock (holdTime arg) (s.onPort (fun v => { v with lastRequest := some ⟨0x0A, arg⟩ }))))) := by
  show Host.Outcome.next (takeRequest 0x0A arg (answerLock arg) s) = _
  rw [takeRequest_ready hr hw hp, answerLock, if_pos ha]
  rfl

theorem exec_unlock_held (hl : s.pub.locked = true) (arg : Byte) : exec (.unlock arg) s = .next (endEvent
    (respond ⟨0x0B, .ok, 0⟩ (releaseLock (s.onPort (fun v => { v with lastRequest := some ⟨0x0B, arg⟩ }))))) := by
  show Host.Outcome.next (takeRequest 0x0B arg answerUnlock s) = _
  rw [takeRequest_ready hr hw hp, answerUnlock, State.onPort_pub, if_pos hl]
  rfl

theorem exec_unlock_free (hl : s.pub.locked = false) (arg : Byte) :
    exec (.unlock arg) s = .next (answered s 0x0B arg .ok 0) := by
  show Host.Outcome.next (takeRequest 0x0B arg answerUnlock s) = _
  rw [takeRequest_ready hr hw hp, answerUnlock, if_neg (by simp [hl])]
  rfl

end

theorem exec_lockHoldTimerExpiry {s : State} {n : Nat} (hl : s.pub.locked = true) (hn : s.pub.holdTimer = some n) :
    exec .lockHoldTimerExpiry s = .next (endEvent (releaseLock s)) := by
  show Host.Outcome.next (holdExpires s) = _
  rw [holdExpires, if_pos (by simp [hl, hn])]

/-- What an event's end leaves of a request's answer. -/
theorem endEvent_respond_port (r : Response) (s : State) :
    (endEvent (respond r s)).port = { s.port with response := r } := by
  rw [(endEvent_changes _).port, respond_port]

theorem endEvent_respond_pub (r : Response) (s : State) : (endEvent (respond r s)).pub = s.pub := by
  rw [(endEvent_changes _).pub, (respond_changes r s).pub]

end Sys2Proof.Machine

namespace Sys2Proof.Certificates

open Sys2Proof.Machine

/-- Settles O40: LOCK moves the lock and its hold timer alone; the release is one batch over the pending positions, whether by
UNLOCK or by the hold timer. -/
theorem lockIsTakenAndReleased : Obligations.LockIsTakenAndReleased := by
  refine ⟨fun s arg hr hw hp ha => ⟨_, exec_lock hr hw hp ha, ?_, ?_, ?_⟩, fun s => ?_⟩
  · rw [endEvent_respond_pub, takeLock_pub]
    rfl
  · rw [endEvent_respond_port, (takeLock_changes _ _).port]
    rfl
  · exact (changes_onPort s _).widen.andThen (takeLock_respond_changes (holdTime arg) (fun _ => 0) _)
  · refine ⟨fun arg hr hw hp hl => ⟨_, exec_unlock_held hr hw hp hl arg, ?_, ?_, ?_⟩,
      fun arg hr hw hp hl => exec_unlock_free hr hw hp hl arg, fun n hl hn => ⟨_, exec_lockHoldTimerExpiry hl hn, ?_, ?_⟩⟩
    · exact (releaseLock_released (s.onPort _)).congr rfl rfl (endEvent_respond_pub _ _)
    · rw [endEvent_respond_port, (releaseLock_changes _).port]
      rfl
    · exact (((changes_onPort s _).widen.andThen (releaseLock_changes _)).andThen (respond_changes _ _)).andThen
        (endEvent_changes _)
    · exact (releaseLock_released s).congr rfl rfl (endEvent_changes _).pub
    · exact (releaseLock_changes s).widen.andThen (endEvent_changes _)

end Sys2Proof.Certificates
end

section
/-! PROOFS. The judgement of a WRITE_PARAM (R113, R164, R169). -/

namespace Sys2Proof.Machine

/-! ### The refusals in their order (R169) -/

/-- A request restarts the rest timer before it is judged, and no check reads the rest timer. -/
theorem writeRefusal_restartRest (s : State) (id value : Word16) :
    writeRefusal (restartRest s) id value = writeRefusal s id value := by
  unfold restartRest
  split <;> rfl

/-- The refusal as a reply code, by the conditions of R169 in their order; 0 where none applies. -/
theorem writeRefusal_getD (s : State) (id value : Word16) : (writeRefusal s id value).getD 0
    = if s.pub.locked then 2
      else if ¬ (s.body.vehicle.freshness = .fresh ∧ s.body.vehicle.speed = 0 ∧ s.body.vehicle.gear = .park) then 3
      else if ¬ (id.toNat % 64 < paramCount (id.toNat / 64)) then 6
      else if paramInRange (id.toNat / 64) (id.toNat % 64) value.toNat = false then 4
      else if breaksCrossCheck s id value = true then 5
      else 0 := by
  unfold writeRefusal knownParam idGroup idIndex
  simp only [apply_ite (Option.getD · (0 : BitVec 4)), Option.getD_some, Option.getD_none, Bool.not_eq_true',
    decide_eq_false_iff_not]
  rfl

theorem writeRefusal_ne_zero {s : State} {id value : Word16} {code : BitVec 4} (h : writeRefusal s id value = some code) :
    code ≠ 0 := by
  have hcode : code ∈ [replyRefusedLocked, replyRefusedMoving, replyUnknownParam, replyOutOfRange, replyInconsistent] := by
    unfold writeRefusal at h
    split_ifs at h <;> obtain rfl := Option.some.inj h <;> simp
  intro hzero
  rw [hzero] at hcode
  exact absurd hcode (by decide)

/-- The reply code of a WRITE_PARAM: BUSY first, then the refusals; 0 for a write that is taken. -/
def writeCode (s : State) (id value : Word16) : BitVec 4 :=
  if s.settings.write.isSome then 1 else (writeRefusal s id value).getD 0

/-- A write whose code is not 0 is refused with it. -/
theorem answerWriteParam_refused {s : State} {id value : Word16} (h : writeCode s id value ≠ 0) :
    answerWriteParam id value s = sendReply ⟨2, writeCode s id value, bytesOf16 id ++ bytesOf16 value, 0⟩ s := by
  unfold answerWriteParam writeCode at *
  dsimp only
  split
  case isTrue hw => rfl
  case isFalse hw =>
    rw [if_neg hw] at h
    cases hc : writeRefusal s id value with
    | some code => rfl
    | none => exact absurd (by rw [hc]; rfl) h

/-- A write whose code is 0 becomes the write in flight. -/
theorem answerWriteParam_taken {s : State} {id value : Word16} (h : writeCode s id value = 0) :
    answerWriteParam id value s = s.onSettings (fun u => { u with write := some ⟨id, value⟩ }) := by
  unfold answerWriteParam writeCode at *
  dsimp only
  split
  case isTrue hw =>
    rw [if_pos hw] at h
    exact absurd h (by decide)
  case isFalse hw =>
    rw [if_neg hw] at h
    cases hc : writeRefusal s id value with
    | some code =>
      rw [hc] at h
      exact absurd h (writeRefusal_ne_zero hc)
    | none => rfl

theorem writeCode_restartRest (s : State) (id value : Word16) : writeCode (restartRest s) id value = writeCode s id value := by
  unfold writeCode
  rw [writeRefusal_restartRest, (restartRest_changes s).settings]

theorem exec_writeParam {s : State} (h : Serving s) (id value : Word16) :
    exec (.writeParam id value) s = .next (arbitrate (answerWriteParam id value (restartRest s))) :=
  congrArg Host.Outcome.next (takeService_serving h _ _ _)

end Sys2Proof.Machine

namespace Sys2Proof.Certificates

open Sys2Proof.Machine

/-- Settles O45: the code of the first check that applies is the reply's; with none the write is taken. -/
theorem writeParamIsJudged : Obligations.WriteParamIsJudged := by
  intro s id value hs
  dsimp only
  have hexec := exec_writeParam hs id value
  obtain ⟨_, _, hnone⟩ := hs
  have hrest := restartRest_changes s
  rw [← writeRefusal_getD]
  change (writeCode s id value ≠ 0 → RepliesWith _ s 2 (writeCode s id value) _) ∧ (writeCode s id value = 0 → _)
  rw [← writeCode_restartRest]
  refine ⟨fun hcode => ?_, fun hcode => ⟨_, hexec, ?_⟩⟩
  · exact repliesWith_of_exec (hexec.trans (by rw [answerWriteParam_refused hcode]))
  · rw [answerWriteParam_taken hcode]
    have hends := (changes_onSettings (restartRest s) (fun u => { u with write := some ⟨id, value⟩ })).widen
      (bs := [.body, .settings]) |>.andThen (arbitrate_changes _)
    refine ⟨?_, ?_, hends.monitor, hrest.widen.andThen hends⟩
    · rw [(arbitrate_changes _).settings, State.onSettings_settings, hrest.settings]
    · obtain ⟨hreply, _⟩ := arbitrate_body ((restartRest s).onSettings (fun u => { u with write := some ⟨id, value⟩ }))
      rw [hreply, State.onSettings_body, restartRest_reply, hnone]

end Sys2Proof.Certificates
end

section
/-! PROOFS. Every step keeps the reminder timers (R124, R125). -/

namespace Sys2Proof.Certificates

open Sys2Proof.Machine

/-- Settles O57: the reminder timers are one of the invariants that every step keeps. -/
theorem everyStepKeepsTheReminderTimers : Obligations.EveryStepKeepsTheReminderTimers :=
  fun _ _ hs h => (step_keeps h).timers hs

end Sys2Proof.Certificates
end

section
/-! PROOFS. What the end of an event leaves of the waiting notices, and the copy of the reminder states that it takes (R136,
R139, R159, R162). -/

namespace Sys2Proof.Machine

/-! ### Notices that wait through the end of an event -/

theorem waits_congr {b c : Body} (h : c.queue.map (·.notice) = b.queue.map (·.notice)) (n : Notice) :
    Waits c n ↔ Waits b n := by
  have hmem : ∀ d : Body, Waits d n ↔ n ∈ d.queue.map (·.notice) := fun _ => List.mem_map.symm
  rw [hmem, hmem, h]

theorem noneWaits_congr {b c : Body} (h : c.queue.map (·.notice) = b.queue.map (·.notice)) (k : NoticeKind)
    (x : Subject) : NoneWaits c k x ↔ NoneWaits b k x := by
  have hall : ∀ d : Body, NoneWaits d k x ↔ ∀ n ∈ d.queue.map (·.notice), ¬ (n.kind = k ∧ n.subject = x) :=
    fun _ => by rw [List.forall_mem_map, NoneWaits]
  rw [hall, hall, h]

/-- The end of an event chooses among the notices; it neither makes nor drops one. -/
theorem endEvent_notices (s : State) : (endEvent s).body.queue.map (·.notice) = s.body.queue.map (·.notice) := by
  obtain ⟨_, hnotices, _⟩ := arbitrate_body (takeReminders s)
  exact hnotices

/-! ### The copy of the reminder states -/

/-- Whatever its timers do, the Cadence Generator's copy is that of the states taken. -/
theorem Cadence.take_copy (c : Cadence) (states : PerPos RemState) : (c.take states).copy = states := by
  unfold Cadence.take
  dsimp only
  have hwanted : (if wantedProfile c.copy = wantedProfile states then { c with copy := states }
      else Cadence.onWanted { c with copy := states } (wantedProfile states)).copy = states := by
    split
    · rfl
    · exact (onWanted_spec _ _).1
  split
  · exact hwanted
  · exact (onTelltale_spec _ _ _).1.trans hwanted

theorem endEvent_copy (s : State) (p : Pos) : (endEvent s).cadence.copy.get p = ((endEvent s).rem.get p).state := by
  have hcadence : (endEvent s).cadence = s.cadence.take (s.rem.mapIdx (fun _ r => r.state)) :=
    (arbitrate_changes (takeReminders s)).cadence
  rw [hcadence, Cadence.take_copy, PerPos.get_mapIdx, (endEvent_changes s).rem]

end Sys2Proof.Machine
end

section
/-! PROOFS. IGN deasserts in RUN (R131, R136, R156, R171). -/

namespace Sys2Proof.Machine

/-- Every reminder is OFF, its timers stopped and its count of episodes 0 (R131). -/
theorem remIgnOff_rem (s : State) (p : Pos) : (remIgnOff s).rem.get p
    = { s.rem.get p with state := .off, delay := none, audible := none, episodes := 0 } := by
  have hone : ∀ (q : Pos) (t : State) (r : Pos), True →
      ((remOff q t).onRem q (fun x => { x with episodes := 0 })).rem.get r
        = if r = q then { t.rem.get r with state := .off, delay := none, audible := none, episodes := 0 }
          else t.rem.get r := fun q t r _ => by
    rw [State.onRem_rem, PerPos.get_modify, remOff_rem]
    split <;> rfl
  have hall := forEach_get (fun t => t.rem.get) (K := fun _ => True)
    (upd := fun _ r => { r with state := .off, delay := none, audible := none, episodes := 0 })
    (fun _ _ _ => trivial) hone allPos s allPos_nodup trivial p
  rwa [if_pos (mem_allPos p)] at hall

/-- The part in REST by IGN, before the reminders go OFF (R156, R171). -/
def ignRest (s : State) : State :=
  ((s.onPins (fun u => { u with ignLine := false })).onMonitor (fun m =>
    { m with ignDebounce := none, ign := false, device := .rest, restTimer := some (restTime s) })).onBody Body.ignOff

theorem ignDeasserts_run {s : State} (hi : s.monitor.ign = true) (hd : s.monitor.device = .run) :
    ignDeasserts s = endEvent (remIgnOff (ignRest s)) := by
  have hc : ¬ (!s.monitor.ign || s.monitor.device == .sleep) = true := by
    rw [hi, hd]
    decide
  refine (if_neg hc).trans ?_
  unfold ignRest State.onMonitor State.onPins
  simp only [hd, if_true]

theorem ignOff_vehicle (b : Body) : b.ignOff.vehicle = { b.vehicle with
    freshness := if b.vehicle.freshness = .degraded then .stale else b.vehicle.freshness } := by
  unfold Body.ignOff
  split <;> rfl

end Sys2Proof.Machine

namespace Sys2Proof.Certificates

open Sys2Proof.Machine

/-- Settles O10: the part is in REST before its reminders go OFF, and the end of the event leaves Monitor, reminders and the
vehicle-state copy. -/
theorem ignDeassertsInRun : Obligations.IgnDeassertsInRun := by
  intro s hr hi hd
  have he := ignDeasserts_run hi hd
  have hends : ChangesOnly [.rem, .cadence, .body] (ignRest s) (ignDeasserts s) := by
    rw [he]
    exact (remIgnOff_changes _).widen.andThen (endEvent_changes _)
  have hquiet : Quiet (ignRest s) (ignDeasserts s) := by
    rw [he]
    exact (remIgnOff_changes _).quiet.andThen (endEvent_quiet _)
  have hrem : ∀ p, (ignDeasserts s).rem.get p
      = { s.rem.get p with state := .off, delay := none, audible := none, episodes := 0 } := fun p => by
    rw [he, (endEvent_changes _).rem, remIgnOff_rem]
    rfl
  refine ⟨ignDeasserts s, ?_, ?_, hrem, fun p => ?_, ?_, ?_, ignDeasserts_changes s⟩
  · exact congrArg Host.Outcome.next (outsideReset_apply hr ignDeasserts)
  · exact hends.monitor
  · rw [he, endEvent_copy, ← he, hrem]
  · rw [hquiet.body]
    rfl
  · rw [hquiet.vehicle]
    exact ignOff_vehicle _

end Sys2Proof.Certificates
end

section
/-! PROOFS. The delay timer and the audible timer of a reminder expire, and the REMINDER notices they make (R124 to R126, R135,
R161). -/

namespace Sys2Proof.Machine

section
variable {p : Pos} {s : State}

/-- The reminder in VISUAL, its delay timer stopped (R124). -/
def visualEntered (p : Pos) (s : State) : State := s.onRem p (fun r => { r with state := .visual, delay := none })

theorem enterVisual_escalates (h : (s.rem.get p).escalate = true ∧ (s.rem.get p).episodes < episodeLimit s) :
    enterVisual p s = enterAudible p (visualEntered p s) := if_pos (by simpa using h)

theorem enterVisual_stays (h : ¬ ((s.rem.get p).escalate = true ∧ (s.rem.get p).episodes < episodeLimit s)) :
    enterVisual p s = visualEntered p s := if_neg (by simpa using h)

theorem enterVisual_rem_modify (p : Pos) (s : State) : (enterVisual p s).rem = s.rem.modify p (fun r =>
    if r.escalate = true ∧ r.episodes < episodeLimit s then
      { r with state := .audible, delay := none, audible := some (audibleTime s), episodes := r.episodes + 1 }
    else { r with state := .visual, delay := none }) := by
  refine PerPos.ext_get (fun q => ?_)
  rw [enterVisual_rem, PerPos.get_modify]
  simp only [Bool.and_eq_true, decide_eq_true_eq]

/-- The entry to AUDIBLE makes a notice that carries the count it raised (R125, R135). -/
theorem enterAudible_waits (hl : s.body.queue.length < 24) (hn : NoneWaits s.body .reminder (.position p)) :
    Waits (enterAudible p s).body
      ⟨.reminder, .position p, 2, 3, BitVec.ofNat 8 ((enterAudible p s).rem.get p).episodes, none⟩ := by
  rw [enterAudible_rem, if_pos rfl]
  exact Body.enter_waits _ hl hn

/-- An entry to VISUAL that ends in AUDIBLE leaves the notice of that entry waiting (R125, R135). -/
theorem enterVisual_waits (hl : s.body.queue.length < 24) (hn : NoneWaits s.body .reminder (.position p))
    (ha : ((enterVisual p s).rem.get p).state = .audible) : Waits (enterVisual p s).body
      ⟨.reminder, .position p, 2, 3, BitVec.ofNat 8 ((enterVisual p s).rem.get p).episodes, none⟩ := by
  by_cases h : (s.rem.get p).escalate = true ∧ (s.rem.get p).episodes < episodeLimit s
  · rw [enterVisual_escalates h]
    exact enterAudible_waits (s := visualEntered p s) hl hn
  · rw [enterVisual_rem_modify, PerPos.get_modify_self, if_neg h] at ha
    cases ha

/-- An entry to VISUAL that stays there makes no notice (R135). -/
theorem enterVisual_noneWaits (hn : NoneWaits s.body .reminder (.position p))
    (hv : ((enterVisual p s).rem.get p).state = .visual) : NoneWaits (enterVisual p s).body .reminder (.position p) := by
  by_cases h : (s.rem.get p).escalate = true ∧ (s.rem.get p).episodes < episodeLimit s
  · rw [enterVisual_rem_modify, PerPos.get_modify_self, if_pos h] at hv
    cases hv
  · rw [enterVisual_stays h]
    exact hn

theorem silence_waits (reason : Nat) (hl : s.body.queue.length < 24) (hn : NoneWaits s.body .reminder (.position p)) :
    Waits (silence p reason s).body ⟨.reminder, .position p, 3, 4, BitVec.ofNat 8 reason, none⟩ :=
  Body.enter_waits _ hl hn

theorem exec_delayTimerExpiry {n : Nat} (hw : (s.rem.get p).state = .wait) (hd : (s.rem.get p).delay = some n) :
    exec (.delayTimerExpiry p) s = .next (endEvent (enterVisual p s)) :=
  congrArg Host.Outcome.next (if_pos ⟨hw, Option.isSome_of_eq_some hd⟩)

theorem exec_audibleTimerExpiry {n : Nat} (ha : (s.rem.get p).state = .audible)
    (ht : (s.rem.get p).audible = some n) : exec (.audibleTimerExpiry p) s = .next (endEvent (silence p 1 s)) :=
  congrArg Host.Outcome.next (if_pos ⟨ha, Option.isSome_of_eq_some ht⟩)

end

end Sys2Proof.Machine

namespace Sys2Proof.Certificates

open Sys2Proof.Machine

/-- Settles O34: each expiry is one entry of the ladder, and the end of the event leaves the reminders and the notices. -/
theorem reminderTimersExpire : Obligations.ReminderTimersExpire := by
  intro s p n
  dsimp only
  refine ⟨fun hstate htimer => ?delay, fun hstate htimer => ?audible⟩
  case delay =>
    have hends := endEvent_changes (enterVisual p s)
    have hnotices := endEvent_notices (enterVisual p s)
    refine ⟨_, exec_delayTimerExpiry hstate htimer, ?_, fun hroom ha => ?_, fun hroom hv => ?_, endEvent_copy _ p,
      (enterVisual_changes p s).widen.andThen hends⟩
    · rw [hends.rem, enterVisual_rem_modify]
    · obtain ⟨hl, hn⟩ := hroom
      rw [hends.rem] at ha ⊢
      exact (waits_congr hnotices _).mpr (enterVisual_waits hl hn ha)
    · obtain ⟨_, hn⟩ := hroom
      rw [hends.rem] at hv
      exact (noneWaits_congr hnotices _ _).mpr (enterVisual_noneWaits hn hv)
  case audible =>
    have hends := endEvent_changes (silence p 1 s)
    refine ⟨_, exec_audibleTimerExpiry hstate htimer, hends.rem, fun hroom => ?_, ?_,
      (silence_changes p 1 s).widen.andThen hends⟩
    · obtain ⟨hl, hn⟩ := hroom
      exact (waits_congr (endEvent_notices _) _).mpr (silence_waits 1 hl hn)
    · rw [endEvent_copy, hends.rem]
      exact congrArg Reminder.state (PerPos.get_modify_self s.rem p _)

end Sys2Proof.Certificates
end

section
/-! PROOFS. What each act of the Cadence Generator does to gates, timers and profile, and what stands while no act comes
(R137 to R146). -/

namespace Sys2Proof.Machine

set_option Elab.async false

/-! ### The gates -/

/-- Each output's gate is closed in `d` exactly where it is in `c`. -/
def GatesAs (c d : Cadence) : Prop :=
  (d.chimeGate = .closed ↔ c.chimeGate = .closed) ∧ (d.telltaleGate = .closed ↔ c.telltaleGate = .closed)

theorem GatesAs.refl (c : Cadence) : GatesAs c c := ⟨Iff.rfl, Iff.rfl⟩

theorem GatesAs.andThen {c d e : Cadence} (h1 : GatesAs c d) (h2 : GatesAs d e) : GatesAs c e :=
  ⟨h2.1.trans h1.1, h2.2.trans h1.2⟩

theorem gatesAs_ite {c d e : Cadence} {b : Prop} [Decidable b] (h1 : GatesAs c d) (h2 : GatesAs c e) :
    GatesAs c (if b then d else e) := by
  split
  · exact h1
  · exact h2

/-- A release lets a release-pending output follow its level; it opens no closed gate (R146). -/
theorem Gate.release_closed_iff (g : Gate) : g.release = .closed ↔ g = .closed := by cases g <;> decide

theorem gatesAs_releaseChime (c d : Cadence) (hc : d.chimeGate = c.chimeGate.release := by rfl)
    (ht : d.telltaleGate = c.telltaleGate := by rfl) : GatesAs c d :=
  ⟨by rw [hc, Gate.release_closed_iff], by rw [ht]⟩

theorem gatesAs_releaseTelltale (c d : Cadence) (hc : d.chimeGate = c.chimeGate := by rfl)
    (ht : d.telltaleGate = c.telltaleGate.release := by rfl) : GatesAs c d :=
  ⟨by rw [hc], by rw [ht, Gate.release_closed_iff]⟩

theorem onWanted_gates (c : Cadence) (w : Profile) : GatesAs c (c.onWanted w) := by
  cases w with
  | none => exact gatesAs_releaseChime c _
  | front => exact gatesAs_ite (GatesAs.refl c) (GatesAs.refl c)
  | rear => exact gatesAs_ite (GatesAs.refl c) (GatesAs.refl c)

theorem onTelltale_gates (c : Cadence) (old new : Telltale) : GatesAs c (c.onTelltale old new) :=
  gatesAs_ite (GatesAs.refl c) (gatesAs_ite (gatesAs_releaseTelltale c _) (GatesAs.refl c))

theorem take_gates (c : Cadence) (x : PerPos RemState) : GatesAs c (c.take x) := by
  have hcopy : GatesAs c { c with copy := x } := GatesAs.refl c
  have hwanted := gatesAs_ite (b := wantedProfile c.copy = wantedProfile x) hcopy
    (hcopy.andThen (onWanted_gates _ (wantedProfile x)))
  exact gatesAs_ite hwanted (hwanted.andThen (onTelltale_gates _ _ _))

theorem chimeEnds_gates (c : Cadence) : GatesAs c c.chimeEnds :=
  gatesAs_ite (GatesAs.refl c) (gatesAs_ite (onWanted_gates c _)
    (gatesAs_ite (gatesAs_releaseChime c _) (gatesAs_releaseChime c _)))

theorem flashEnds_gates (c : Cadence) : GatesAs c c.flashEnds :=
  gatesAs_ite (GatesAs.refl c) (gatesAs_releaseTelltale c _)

/-- An assertion of OUTEN leaves no gate closed (R144, R146). -/
theorem gateAtAssertion_open (outcfg running : Bool) : gateAtAssertion outcfg running ≠ .closed := by
  unfold gateAtAssertion
  split <;> nofun

theorem GateInv.congr {s t : State} (h : GateInv s) (hg : GatesAs s.cadence t.cadence)
    (ho : t.pins.outen = s.pins.outen) (ha : awake t = awake s) : GateInv t := by
  obtain ⟨hchime, htelltale⟩ := h
  unfold GateInv
  rw [ho, ha]
  exact ⟨hg.1.trans hchime, hg.2.trans htelltale⟩

/-- With both gates closed it is enough that the part is not in RUN or REST, or that OUTEN is deasserted. -/
theorem gateInv_closed {s : State} (hc : s.cadence.chimeGate = .closed) (ht : s.cadence.telltaleGate = .closed)
    (h : ¬ (awake s = true ∧ s.pins.outen = true)) : GateInv s := ⟨iff_of_true hc h, iff_of_true ht h⟩

theorem gateInv_open {s : State} (hc : s.cadence.chimeGate ≠ .closed) (ht : s.cadence.telltaleGate ≠ .closed)
    (h : awake s = true ∧ s.pins.outen = true) : GateInv s :=
  ⟨iff_of_false hc (not_not_intro h), iff_of_false ht (not_not_intro h)⟩

/-! ### The timers' counts -/

/-- A tick short of the period's end, and the end of the on part, move counts alone. -/
theorem CadenceTimer.tick_running (t : CadenceTimer) : t.tick.1.running = t.running := by
  unfold CadenceTimer.tick
  split_ifs <;> rfl

theorem CadenceTimer.endOnPart_running (t : CadenceTimer) : t.endOnPart.running = t.running := by
  unfold CadenceTimer.endOnPart
  split <;> rfl

theorem count_copyShown {c : Cadence} (h : CopyShown c) : CopyShown c.count :=
  copyShown_of_same c.chime.tick_running rfl c.flash.tick_running rfl h

theorem endOnPart_copyShown (id : CadenceId) {c : Cadence} (h : CopyShown c) :
    CopyShown (c.onTimer id CadenceTimer.endOnPart) := by
  cases id with
  | chime => exact copyShown_of_same (c := c) c.chime.endOnPart_running rfl rfl rfl h
  | flash => exact copyShown_of_same (c := c) rfl rfl c.flash.endOnPart_running rfl h

/-- Stopped, without a profile and with every reminder taken for OFF, the Cadence Generator shows its copy (R139, R145). -/
theorem sleep_copyShown (c : Cadence) : CopyShown c.sleep :=
  ⟨⟨nofun, fun h => absurd rfl h⟩, ⟨fun _ => rfl, fun _ => rfl⟩, ⟨nofun, nofun⟩⟩

/-! ### Nothing of the outputs moves -/

/-- From `s` to `t` the Cadence Generator stands, and with it the OUTEN line and whether the part is in RUN or REST. -/
structure OutputsStand (s t : State) : Prop where
  cadence : t.cadence = s.cadence
  outen   : t.pins.outen = s.pins.outen
  awake   : awake t = awake s

theorem OutputsStand.refl (s : State) : OutputsStand s s := ⟨rfl, rfl, rfl⟩

theorem OutputsStand.andThen {s t u : State} (h1 : OutputsStand s t) (h2 : OutputsStand t u) : OutputsStand s u :=
  ⟨h2.cadence.trans h1.cadence, h2.outen.trans h1.outen, h2.awake.trans h1.awake⟩

theorem outputsStand_ite {s t u : State} {c : Prop} [Decidable c] (h1 : OutputsStand s t) (h2 : OutputsStand s u) :
    OutputsStand s (if c then t else u) := by
  split
  · exact h1
  · exact h2

/-- A change that leaves the Cadence Generator, the input lines and whether the part is in RUN or REST. -/
theorem ChangesOnly.outputsStandOf {bs : List Block} {s t : State} (h : ChangesOnly bs s t) (ha : awake t = awake s)
    (hc : bs.contains Block.cadence = false := by rfl) (hp : bs.contains Block.pins = false := by rfl) :
    OutputsStand s t := ⟨h.cadence hc, by rw [h.pins hp], ha⟩

theorem ChangesOnly.outputsStand {bs : List Block} {s t : State} (h : ChangesOnly bs s t)
    (hm : bs.contains Block.monitor = false := by rfl) (hc : bs.contains Block.cadence = false := by rfl)
    (hp : bs.contains Block.pins = false := by rfl) : OutputsStand s t :=
  h.outputsStandOf (by unfold awake; rw [h.monitor hm]) hc hp

theorem outputsStand_onMonitor (s : State) (f : Monitor → Monitor)
    (h : (f s.monitor).device = s.monitor.device := by rfl) : OutputsStand s (s.onMonitor f) :=
  (changes_onMonitor s f).outputsStandOf (by unfold awake; rw [State.onMonitor_monitor, h])

theorem outputsStand_onPins (s : State) (f : Pins → Pins) (h : (f s.pins).outen = s.pins.outen := by rfl) :
    OutputsStand s (s.onPins f) := ⟨rfl, h, rfl⟩

theorem publish_outputsStand (s : State) : OutputsStand s (publish s) :=
  (publish_changes s).outputsStandOf (publish_quiet s).awake

theorem restartRest_outputsStand (s : State) : OutputsStand s (restartRest s) :=
  (restartRest_changes s).outputsStandOf (restartRest_quiet s).awake

theorem respond_outputsStand (r : Response) (s : State) : OutputsStand s (respond r s) :=
  (changes_onPort s _).outputsStand.andThen (restartRest_outputsStand _)

theorem releaseLock_outputsStand (s : State) : OutputsStand s (releaseLock s) :=
  (((publishBatch_changes _ s).outputsStandOf (publishBatch_quiet _ s).awake).andThen
    (changes_onPub _ _).outputsStand).andThen (afterVanChange_changes _ _).outputsStand

theorem wake_outputsStand (s : State) : OutputsStand s (wake s) :=
  outputsStand_ite (((outputsStand_onMonitor s _).andThen (changes_onBody _ _).outputsStand).andThen
    (changes_onPort _ _).outputsStand) (OutputsStand.refl s)

/-! ### Rows that fall, and the outcomes of exchanges -/

theorem positionsFall_outputsStand (r : Row) (w : Bool) (b s : State) : OutputsStand s (positionsFall r w b s) :=
  (outputsStand_ite ((positionsFallen_changes r s).outputsStandOf (positionsFallen_quiet r s).awake)
    (OutputsStand.refl s)).andThen (evaluateRow_changes r b _).outputsStand

theorem enterFailed_outputsStand (r : Row) (c : RowCause) (s : State) : OutputsStand s (enterFailed r c s) :=
  ((((abandonRead_changes r s).outputsStand.andThen (changes_onRow _ r _).outputsStand).andThen
    (notify_changes _ _).outputsStand).andThen (notify_changes _ _).outputsStand).andThen
    (positionsFall_outputsStand r _ s _)

theorem enterRecovering_outputsStand (r : Row) (c : RowCause) (s : State) : OutputsStand s (enterRecovering r c s) := by
  have h : OutputsStand s (s.onRow r (fun x => { x with recovery := min 3 (x.recovery + 1) })) :=
    (changes_onRow s r _).outputsStand
  exact outputsStand_ite (h.andThen (enterFailed_outputsStand r _ _))
    ((((h.andThen (abandonRead_changes r _).outputsStand).andThen (changes_onRow _ r _).outputsStand).andThen
      (notify_changes _ _).outputsStand).andThen (positionsFall_outputsStand r _ s _))

/-- A change of the row's record, after which the row may go to RECOVERING. -/
theorem recoverAfter_outputsStand (r : Row) (c : RowCause) (f : RowRecord → RowRecord) {u : State} (s : State) {b : Prop}
    [Decidable b] (hu : OutputsStand s u) : OutputsStand s (if b then enterRecovering r c (s.onRow r f) else u) :=
  outputsStand_ite ((changes_onRow s r f).outputsStand.andThen (enterRecovering_outputsStand r c _)) hu

theorem attemptFails_outputsStand (r : Row) (s : State) : OutputsStand s (attemptFails r s) :=
  recoverAfter_outputsStand r _ _ s ((changes_onRow s r _).outputsStand.andThen (changes_onRow _ r _).outputsStand)

theorem enterChecking_outputsStand (r : Row) (i : Identity) (s : State) : OutputsStand s (enterChecking r i s) :=
  outputsStand_ite ((changes_onRow s r _).outputsStand.andThen (enterOnline_changes r _).outputsStand)
    ((changes_onRow s r _).outputsStand.andThen (evaluateRow_changes r s _).outputsStand)

theorem entryPasses_outputsStand (r : Row) (s : State) : OutputsStand s (entryPasses r s) :=
  outputsStand_ite (changes_onRow s r _).outputsStand (enterOnline_changes r s).outputsStand

theorem walkStep_outputsStand (r : Row) (v : Word16) (s : State) : OutputsStand s (walkStep r v s) := by
  unfold walkStep
  dsimp only
  split
  · exact outputsStand_ite (entryPasses_outputsStand r s)
      (outputsStand_ite (changes_onRow s r _).outputsStand (attemptFails_outputsStand r s))
  · exact (changes_onRow s r _).outputsStand
  · exact outputsStand_ite (entryPasses_outputsStand r s) (attemptFails_outputsStand r s)

theorem deliverSample_outputsStand (r : Row) (b : List Byte) (s : State) : OutputsStand s (deliverSample r b s) :=
  (((((changes_onRow s r _).outputsStand.andThen
    ((changesOnly_forEach (debounceSeat_leavesLoad r b) allSeats _).outputsStandOf
      (quiet_forEach (debounceSeat_quiet r b) allSeats _).awake)).andThen
    (takeTagStatus_changes r _ _).outputsStand).andThen
    (changesOnly_forEach (evaluateSeat_changes b) _ _).outputsStand)).andThen (evaluateEach_changes _ _).outputsStand

theorem exchangeFails_outputsStand (x : Exchange) (s : State) : OutputsStand s (exchangeFails x s) := by
  have hattempt := outputsStand_ite (c := x.detached = true) (OutputsStand.refl s) (attemptFails_outputsStand x.row s)
  unfold exchangeFails
  split
  · exact recoverAfter_outputsStand x.row _ _ s (changes_onRow s x.row _).outputsStand
  · exact recoverAfter_outputsStand x.row _ _ s (changes_onRow s x.row _).outputsStand
  · exact hattempt
  · exact hattempt
  · exact OutputsStand.refl s

theorem exchangeGood_outputsStand (x : Exchange) (b : List Byte) (s : State) : OutputsStand s (exchangeGood x b s) := by
  have hwalk := outputsStand_ite (c := x.detached = true) (OutputsStand.refl s)
    (walkStep_outputsStand x.row (parseRegister b) s)
  unfold exchangeGood
  split
  · exact deliverSample_outputsStand x.row b s
  · exact enterChecking_outputsStand x.row _ s
  · exact hwalk
  · exact hwalk
  · exact OutputsStand.refl s

end Sys2Proof.Machine
end

section
/-! PROOFS. Every command, every idle step and so every step keeps the cadence timers with the reminders and the gates with
OUTEN and the device state (R136, R139 to R145). -/

namespace Sys2Proof.Machine

set_option Elab.async false

/-! ### Both invariants are kept -/

/-- From `s` to `t` the Cadence Generator goes on showing the reminders, and its gates go on following OUTEN and the device
state. -/
structure CadenceKept (s t : State) : Prop where
  shown : CadenceInv s → CadenceInv t
  gated : GateInv s → GateInv t

theorem CadenceKept.refl (s : State) : CadenceKept s s := ⟨id, id⟩

theorem CadenceKept.andThen {s t u : State} (h1 : CadenceKept s t) (h2 : CadenceKept t u) : CadenceKept s u :=
  ⟨h2.shown ∘ h1.shown, h2.gated ∘ h1.gated⟩

theorem cadenceKept_ite {s t u : State} {c : Prop} [Decidable c] (h1 : CadenceKept s t) (h2 : CadenceKept s u) :
    CadenceKept s (if c then t else u) := by
  split
  · exact h1
  · exact h2

theorem cadenceKept_forEach {α : Type} {f : α → State → State} (h : ∀ a s, CadenceKept s (f a s)) :
    ∀ (l : List α) (s : State), CadenceKept s (forEach l f s)
  | [], s => CadenceKept.refl s
  | a :: l, s => (h a s).andThen (cadenceKept_forEach h l (f a s))

theorem OutputsStand.gateInv {s t : State} (h : OutputsStand s t) (hi : GateInv s) : GateInv t :=
  hi.congr (by rw [h.cadence]; exact GatesAs.refl _) h.outen h.awake

/-- Where the reminders stand with the outputs, both invariants do. -/
theorem OutputsStand.cadenceKept {s t : State} (h : OutputsStand s t) (hr : t.rem = s.rem := by rfl) : CadenceKept s t :=
  ⟨cadenceInv_of_same h.cadence hr, h.gateInv⟩

theorem ChangesOnly.cadenceKept {bs : List Block} {s t : State} (h : ChangesOnly bs s t)
    (hr : bs.contains Block.rem = false := by rfl) (hm : bs.contains Block.monitor = false := by rfl)
    (hc : bs.contains Block.cadence = false := by rfl) (hp : bs.contains Block.pins = false := by rfl) : CadenceKept s t :=
  (h.outputsStand hm hc hp).cadenceKept (h.rem hr)

theorem onMonitor_cadenceKept (s : State) (f : Monitor → Monitor)
    (h : (f s.monitor).device = s.monitor.device := by rfl) : CadenceKept s (s.onMonitor f) :=
  (outputsStand_onMonitor s f h).cadenceKept

theorem onPins_cadenceKept (s : State) (f : Pins → Pins) (h : (f s.pins).outen = s.pins.outen := by rfl) :
    CadenceKept s (s.onPins f) := (outputsStand_onPins s f h).cadenceKept

/-- An act of the Cadence Generator alone. -/
theorem onCadence_cadenceKept (s : State) (f : Cadence → Cadence)
    (hf : CopyShown s.cadence → (f s.cadence).copy = s.cadence.copy ∧ CopyShown (f s.cadence))
    (hg : GatesAs s.cadence (f s.cadence)) : CadenceKept s (s.onCadence f) := by
  refine ⟨fun hi => ?_, fun hi => hi.congr hg rfl rfl⟩
  obtain ⟨hcopy, hshown⟩ := (cadenceInv_iff s).mp hi
  obtain ⟨hcopy', hshown'⟩ := hf hshown
  refine (cadenceInv_iff _).mpr ⟨fun p => ?_, hshown'⟩
  rw [State.onCadence_cadence, hcopy', hcopy]
  rfl

/-! ### The ends of events -/

/-- Whatever has moved among the reminders, the Cadence Generator shows it once it has taken them (R136, R139). -/
theorem OutputsStand.takeReminders {s t : State} (h : OutputsStand s t) : CadenceKept s (takeReminders t) := by
  refine ⟨fun hi => takeReminders_cadenceInv ?_, fun hi => (h.gateInv hi).congr (take_gates _ _) rfl rfl⟩
  rw [h.cadence]
  exact ((cadenceInv_iff s).mp hi).2

theorem OutputsStand.endEvent {s t : State} (h : OutputsStand s t) : CadenceKept s (endEvent t) :=
  h.takeReminders.andThen (arbitrate_changes _).cadenceKept

theorem OutputsStand.endWithBatch {s t : State} (h : OutputsStand s t) : CadenceKept s (endWithBatch t) :=
  (h.andThen (publish_outputsStand t)).endEvent

/-! ### The part goes live, and sleep entry and reset -/

/-- At the end of STARTING and of the wake settle the gates are as OUTEN gives (R145). -/
theorem goLive_gateInv (ign : Bool) (s : State) : GateInv (goLive ign s) := by
  have hc : (goLive ign s).cadence
      = if s.pins.outen = true then s.cadence.openGates s.straps.outcfg else s.cadence.closeGates := rfl
  have ho : (goLive ign s).pins.outen = s.pins.outen := rfl
  by_cases h : s.pins.outen = true
  · rw [if_pos h] at hc
    refine gateInv_open ?_ ?_ ⟨goLive_awake ign s, ho.trans h⟩ <;> rw [hc] <;> exact gateAtAssertion_open _ _
  · rw [if_neg h] at hc
    exact gateInv_closed (by rw [hc]; rfl) (by rw [hc]; rfl) (fun ⟨_, hh⟩ => h (ho.symm.trans hh))

theorem goLive_copyShown (ign : Bool) {s : State} (h : CopyShown s.cadence) : CopyShown (goLive ign s).cadence := by
  change CopyShown (if s.pins.outen = true then s.cadence.openGates s.straps.outcfg else s.cadence.closeGates)
  split <;> exact copyShown_of_same rfl rfl rfl rfl h

/-- The evaluations after the part has gone live in `t`. -/
theorem evaluateStart_cadenceKept {s t : State} (hc : CopyShown s.cadence → CopyShown t.cadence) (hg : GateInv t) :
    CadenceKept s (evaluateStart t) := by
  have hstand : OutputsStand t (evaluateAllLists (publish (evaluateEach (allPos.filter (posFitted t)) t))) :=
    ((evaluateEach_changes _ t).outputsStand.andThen (publish_outputsStand _)).andThen
      (evaluateAllLists_changes _).outputsStand
  refine ⟨fun hi => endEvent_cadenceInv ?_, fun _ => hstand.endEvent.gated hg⟩
  rw [hstand.cadence]
  exact hc ((cadenceInv_iff s).mp hi).2

theorem autoloadEnds_cadenceKept (a : StoreAnswer) (s : State) : CadenceKept s (autoloadEnds a s) :=
  cadenceKept_ite (evaluateStart_cadenceKept (t := wentLive a s)
    (goLive_copyShown s.monitor.ign (s := { s with settings := autoloaded s a }))
    ((changes_onPort _ _).outputsStand.gateInv (goLive_gateInv _ _))) (CadenceKept.refl s)

theorem endWakeSettle_cadenceKept (s : State) : CadenceKept s (endWakeSettle s) := by
  have hwake := (childWake_changes (wokeUp s)).outputsStand
  have hlive : OutputsStand (goLive s.pins.ignLine s) (wokeUp s) := ⟨rfl, rfl, rfl⟩
  refine cadenceKept_ite (evaluateStart_cadenceKept (t := childWake (wokeUp s)) (fun hc => ?_)
    ((hlive.andThen hwake).gateInv (goLive_gateInv _ s))) (CadenceKept.refl s)
  rw [(hlive.andThen hwake).cadence]
  exact goLive_copyShown _ hc

/-- Sleep entry stops both timers, takes every reminder for OFF and closes the gates (R145, R172). -/
theorem enterSleep_cadenceKept (s : State) : CadenceKept s (enterSleep s) := by
  refine ⟨fun _ => (cadenceInv_iff _).mpr ⟨fun p => ?_, sleep_copyShown _⟩, fun _ => gateInv_closed rfl rfl ?_⟩
  · exact (PerPos.get_all _ p).trans (congrArg Reminder.state (PerPos.get_all Reminder.reset p)).symm
  · rw [enterSleep_awake]
    exact fun h => nomatch h.1

/-- Reset leaves Cadence Generator, reminders and device state as they are in the reset state (R174). -/
theorem resetPart_cadenceKept (cause : ResetCause) (straps : Straps) (s : State) :
    CadenceKept s (resetPart cause straps s) := by
  obtain ⟨_, _, _, _, _, hshown, _⟩ := Certificates.invariantsHoldAfterReset
  exact ⟨fun _ => cadenceInv_of_same (s := State.reset) rfl rfl hshown,
    fun _ => gateInv_closed rfl rfl (fun h => nomatch h.1)⟩

/-! ### The Monitor -/

theorem cadenceKept_outsideReset {f : State → State} (s : State) (h : CadenceKept s (f s)) :
    CadenceKept s (outsideReset s f) := cadenceKept_ite (CadenceKept.refl s) h

/-- A move between RUN and REST leaves it as it was whether the part is in one of them (R171). -/
theorem awake_move {s : State} {f : Monitor → Monitor} {x y : Device}
    (hx : x = .run ∨ x = .rest) (hy : y = .run ∨ y = .rest)
    (hf : (f s.monitor).device = if s.monitor.device = x then y else s.monitor.device) :
    awake (s.onMonitor f) = awake s := by
  unfold awake
  rw [State.onMonitor_monitor, hf]
  split
  case isTrue hd =>
    rw [hd]
    obtain rfl | rfl := hx <;> obtain rfl | rfl := hy <;> rfl
  case isFalse => rfl

theorem ignAsserts_cadenceKept (s : State) : CadenceKept s (ignAsserts s) := by
  have h : OutputsStand s ((s.onPins (fun u => { u with ignLine := true })).onMonitor
      (fun m => { m with ignDebounce := none })) := (outputsStand_onPins s _).andThen (outputsStand_onMonitor _ _)
  unfold ignAsserts
  dsimp only
  split
  · exact h.cadenceKept
  · exact (((h.andThen ((changes_onMonitor _ _).outputsStandOf (awake_move (.inr rfl) (.inl rfl) rfl))).andThen
      (changes_onBody _ _).outputsStand).andThen (evaluateAllLists_changes _).outputsStand).endEvent

theorem ignDeasserts_cadenceKept (s : State) : CadenceKept s (ignDeasserts s) := by
  have h : OutputsStand s ((s.onPins (fun u => { u with ignLine := false })).onMonitor
      (fun m => { m with ignDebounce := none })) := (outputsStand_onPins s _).andThen (outputsStand_onMonitor _ _)
  unfold ignDeasserts
  dsimp only
  split
  · exact h.cadenceKept
  · exact (((h.andThen ((changes_onMonitor _ _).outputsStandOf (awake_move (.inl rfl) (.inr rfl) rfl))).andThen
      (changes_onBody _ _).outputsStand).andThen (remIgnOff_changes _).outputsStand).endEvent

theorem wake_cadenceKept (s : State) : CadenceKept s (wake s) :=
  (wake_outputsStand s).cadenceKept (wake_changes s).rem

theorem takeWakeEvent_cadenceKept (w : WakeSource) (s : State) : CadenceKept s (takeWakeEvent w s) := by
  have h : CadenceKept s (if w = .ignition then s.onPins (fun u => { u with ignLine := true }) else s) :=
    cadenceKept_ite (onPins_cadenceKept s _) (CadenceKept.refl s)
  have hw := h.andThen (wake_cadenceKept _)
  exact cadenceKept_ite (cadenceKept_ite (hw.andThen (changes_onPort _ _).cadenceKept) hw) h

theorem ignLineChanges_cadenceKept (high : Bool) (s : State) : CadenceKept s (ignLineChanges high s) := by
  have h : CadenceKept s (s.onPins (fun u => { u with ignLine := high })) := onPins_cadenceKept s _
  exact cadenceKept_ite h (cadenceKept_ite (cadenceKept_ite (h.andThen (wake_cadenceKept _)) h)
    (h.andThen (onMonitor_cadenceKept _ _)))

theorem setHold_cadenceKept (s : State) : CadenceKept s (setHold s) :=
  have h : CadenceKept s (s.onMonitor (fun m => { m with supply := .low })) := onMonitor_cadenceKept s _
  cadenceKept_ite ((((h.andThen (onMonitor_cadenceKept _ _)).andThen (changes_onLine _ _).cadenceKept).andThen
    (onLoads_changes _ (fun l => l.mapIdx (fun _ l => l.freeze))).cadenceKept).andThen
    (abandonAll_changes _).cadenceKept) h

theorem goStale_cadenceKept (p : Pos) (s : State) : CadenceKept s (goStale p s) :=
  ((changes_onLoad s p _).outputsStand.andThen (evaluate_changes false p _).outputsStand).endWithBatch

theorem ageRunsOut_cadenceKept (p : Pos) (s : State) : CadenceKept s (ageRunsOut p s) :=
  cadenceKept_ite ((changes_onLoad s p _).cadenceKept.andThen (goStale_cadenceKept p _)) (CadenceKept.refl s)

theorem clearHold_cadenceKept (s : State) : CadenceKept s (clearHold s) :=
  cadenceKept_ite
    (((holdLifted_changes s).outputsStandOf rfl).cadenceKept.andThen
      (cadenceKept_forEach (fun p t => cadenceKept_ite (goStale_cadenceKept p t) (CadenceKept.refl t)) allPos _))
    (onMonitor_cadenceKept s _)

theorem restExpires_cadenceKept (s : State) : CadenceKept s (restExpires s) :=
  cadenceKept_ite (cadenceKept_ite (onMonitor_cadenceKept s _) (enterSleep_cadenceKept s)) (CadenceKept.refl s)

theorem secondsTick_cadenceKept (s : State) : CadenceKept s (secondsTick s) := onMonitor_cadenceKept s _

theorem releaseReset_cadenceKept (s : State) : CadenceKept s (releaseReset s) :=
  cadenceKept_ite (onMonitor_cadenceKept s _) (CadenceKept.refl s)

/-! ### Rows and exchanges -/

theorem senseBecomesMated_cadenceKept (r : Row) (s : State) : CadenceKept s (senseBecomesMated r s) :=
  cadenceKept_ite ((onPins_cadenceKept s _).andThen (changes_onRow _ r _).cadenceKept) (onPins_cadenceKept s _)

theorem rowArrives_cadenceKept (r : Row) (s : State) : CadenceKept s (rowArrives r s) := by
  have h : OutputsStand s (publish (evaluateRow r s (arrivalNoticed r s))) :=
    (((changes_onRow s r _).outputsStand.andThen (notify_changes _ _).outputsStand).andThen
      (evaluateRow_changes r s _).outputsStand).andThen (publish_outputsStand _)
  exact cadenceKept_ite (h.andThen (changesOnly_forEach (evaluateLists_changes false) _ _).outputsStand).endWithBatch
    (CadenceKept.refl s)

theorem removeRow_cadenceKept (r : Row) (s : State) : CadenceKept s (removeRow r s) := by
  rw [removeRow_eq]
  exact (((removalNoticed_changes r s).outputsStand.andThen (positionsRemoved_changes r s).outputsStand).andThen
    (evaluateRow_changes r s _).outputsStand).endWithBatch

theorem senseReadsUnmated_cadenceKept (r : Row) (s : State) : CadenceKept s (senseReadsUnmated r s) := by
  have h : CadenceKept s (s.onPins (fun u => { u with sense := u.sense.modify r (fun _ => false) })) :=
    onPins_cadenceKept s _
  exact cadenceKept_ite h (cadenceKept_ite (h.andThen (changes_onRow _ r _).cadenceKept)
    (h.andThen (removeRow_cadenceKept r _)))

theorem settleExpires_cadenceKept (r : Row) (s : State) : CadenceKept s (settleExpires r s) := by
  unfold settleExpires
  split
  · exact cadenceKept_ite (changes_onRow s r _).cadenceKept (enterFailed_outputsStand r .noSlot s).endWithBatch
  · exact ((changes_onRow s r _).outputsStand.andThen (evaluateRow_changes r s _).outputsStand).endWithBatch
  · exact CadenceKept.refl s

theorem exchangeFails_endWithBatch_cadenceKept (x : Exchange) (s : State) :
    CadenceKept s (endWithBatch (exchangeFails x (endExchange s))) :=
  ((endExchange_changes s).outputsStand.andThen (exchangeFails_outputsStand x _)).endWithBatch

theorem answerCompletes_cadenceKept (b : List Byte) (s : State) : CadenceKept s (answerCompletes b s) := by
  unfold answerCompletes
  split
  · exact CadenceKept.refl s
  · split
    · exact ((endExchange_changes s).outputsStand.andThen (exchangeGood_outputsStand _ b _)).endWithBatch
    · exact exchangeFails_endWithBatch_cadenceKept _ s
    · exact exchangeFails_endWithBatch_cadenceKept _ s

theorem exchangeTimesOut_cadenceKept (s : State) : CadenceKept s (exchangeTimesOut s) := by
  unfold exchangeTimesOut
  split
  · exact CadenceKept.refl s
  · exact exchangeFails_endWithBatch_cadenceKept _ s

theorem slotExpires_cadenceKept (s : State) : CadenceKept s (slotExpires s) := by
  unfold slotExpires
  split
  · exact (exchangeTimesOut_cadenceKept s).andThen (takeSlot_changes _).cadenceKept
  · exact CadenceKept.refl s
  · exact CadenceKept.refl s

theorem tagReadTimesOut_cadenceKept (r : Row) (s : State) : CadenceKept s (tagReadTimesOut r s) := by
  unfold tagReadTimesOut
  split
  · exact CadenceKept.refl s
  · exact cadenceKept_ite ((completeRead_changes r _ _ s).outputsStand.andThen
      (evaluateEvidence_changes _ _).outputsStand).endWithBatch (CadenceKept.refl s)

/-! ### Reminders and outputs -/

theorem delayRunsOut_cadenceKept (p : Pos) (s : State) : CadenceKept s (delayRunsOut p s) :=
  cadenceKept_ite (enterVisual_changes p s).outputsStand.endEvent (CadenceKept.refl s)

theorem audibleRunsOut_cadenceKept (p : Pos) (s : State) : CadenceKept s (audibleRunsOut p s) :=
  cadenceKept_ite (silence_changes p 1 s).outputsStand.endEvent (CadenceKept.refl s)

theorem chimeEnds_cadenceKept (s : State) : CadenceKept s (s.onCadence Cadence.chimeEnds) :=
  onCadence_cadenceKept s _ chimeEnds_copyShown (chimeEnds_gates _)

theorem flashEnds_cadenceKept (s : State) : CadenceKept s (s.onCadence Cadence.flashEnds) :=
  onCadence_cadenceKept s _ flashEnds_copyShown (flashEnds_gates _)

theorem endOnPart_cadenceKept (id : CadenceId) (s : State) :
    CadenceKept s (s.onCadence (fun c => c.onTimer id CadenceTimer.endOnPart)) :=
  onCadence_cadenceKept s _ (fun h => ⟨by cases id <;> rfl, endOnPart_copyShown id h⟩) (by cases id <;> exact GatesAs.refl _)

/-- The gates say nothing of what the Cadence Generator shows. -/
theorem cadenceInv_of_gates {s t : State} (h : CadenceInv s) (hr : t.rem = s.rem) (hc : t.cadence = { s.cadence with
    chimeGate := t.cadence.chimeGate, telltaleGate := t.cadence.telltaleGate }) : CadenceInv t := by
  unfold CadenceInv
  rw [hc, hr]
  exact h

/-- An assertion of OUTEN opens the gates in RUN and REST; elsewhere they stay closed (R144, R145). -/
theorem outenRises_cadenceKept (s : State) : CadenceKept s (outenRises s) := by
  unfold outenRises
  refine cadenceKept_ite (CadenceKept.refl s) ?_
  dsimp only
  split
  case isTrue ha =>
    exact ⟨fun h => cadenceInv_of_gates h rfl rfl,
      fun _ => gateInv_open (gateAtAssertion_open _ _) (gateAtAssertion_open _ _) ⟨ha, rfl⟩⟩
  case isFalse ha =>
    refine ⟨fun h => cadenceInv_of_gates h rfl rfl, fun ⟨hchime, htelltale⟩ => ?_⟩
    exact gateInv_closed (hchime.mpr (fun h => ha h.1)) (htelltale.mpr (fun h => ha h.1)) (fun h => ha h.1)

/-- A deassertion of OUTEN closes the gates, whatever the device state (R144). -/
theorem outenFalls_cadenceKept (s : State) : CadenceKept s (outenFalls s) :=
  ⟨fun h => cadenceInv_of_gates h rfl rfl, fun _ => gateInv_closed rfl rfl (fun h => nomatch h.2)⟩

/-! ### Requests -/

theorem respond_cadenceKept (r : Response) (s : State) : CadenceKept s (respond r s) :=
  (respond_outputsStand r s).cadenceKept (respond_changes r s).rem

theorem takeFrame_cadenceKept {f : State → State} (s : State) (h : CadenceKept s (f s)) :
    CadenceKept s (takeFrame f s) :=
  cadenceKept_outsideReset s (cadenceKept_ite (wake_cadenceKept s)
    (cadenceKept_ite (changes_onPort s _).cadenceKept h))

theorem takeRequest_cadenceKept (c a : Byte) {f : State → State} (s : State) (h : ∀ t, CadenceKept t (f t)) :
    CadenceKept s (takeRequest c a f s) :=
  have hport := (changes_onPort s (fun v => { v with lastRequest := some ⟨c, a⟩ })).cadenceKept
  takeFrame_cadenceKept s (cadenceKept_ite (hport.andThen (h _))
    ((hport.andThen (changes_onPort _ _).cadenceKept).andThen (respond_cadenceKept _ _)))

theorem answerPosition_cadenceKept (a : Byte) (s : State) : CadenceKept s (answerPosition a s) := by
  unfold answerPosition
  split <;> exact respond_cadenceKept _ s

theorem answerLock_cadenceKept (a : Byte) (s : State) : CadenceKept s (answerLock a s) :=
  cadenceKept_ite ((takeLock_changes _ s).outputsStand.andThen (respond_outputsStand _ _)).endEvent
    (respond_cadenceKept _ s)

theorem answerUnlock_cadenceKept (s : State) : CadenceKept s (answerUnlock s) :=
  cadenceKept_ite ((releaseLock_outputsStand s).andThen (respond_outputsStand _ _)).endEvent (respond_cadenceKept _ s)

theorem holdExpires_cadenceKept (s : State) : CadenceKept s (holdExpires s) :=
  cadenceKept_ite (releaseLock_outputsStand s).endEvent (CadenceKept.refl s)

theorem receive_cadenceKept {f : State → State} (s : State) (h : CadenceKept s (f s)) : CadenceKept s (receive f s) :=
  cadenceKept_outsideReset s (cadenceKept_ite (wake_cadenceKept s) (cadenceKept_ite (CadenceKept.refl s) h))

theorem takeVehicleState_cadenceKept (v g c : Byte) (s : State) : CadenceKept s (takeVehicleState v g c s) := by
  unfold takeVehicleState
  split
  · exact CadenceKept.refl s
  · have h : ∀ f, OutputsStand s (s.onBody f) := fun f => (changes_onBody s f).outputsStand
    exact ((outputsStand_ite (h _) ((h _).andThen (restartRest_outputsStand _))).andThen
      (afterVanChange_changes s _).outputsStand).endEvent

theorem takeAck_cadenceKept (m : Word16) (s : State) : CadenceKept s (takeAck m s) :=
  cadenceKept_ite (acknowledge_changes m s).outputsStand.endEvent (CadenceKept.refl s)

theorem freshnessExpires_cadenceKept (s : State) : CadenceKept s (freshnessExpires s) :=
  cadenceKept_ite ((changes_onBody s _).outputsStand.andThen (afterVanChange_changes s _).outputsStand).endEvent
    (CadenceKept.refl s)

theorem degradeExpires_cadenceKept (s : State) : CadenceKept s (degradeExpires s) :=
  cadenceKept_ite ((changes_onBody s _).outputsStand.andThen (afterVanChange_changes s _).outputsStand).endEvent
    (CadenceKept.refl s)

theorem takeService_cadenceKept (k : Byte) (l : List Byte) {f : State → State} (h : ∀ t, CadenceKept t (f t)) (s : State) :
    CadenceKept s (takeService k l f s) := by
  have hr : CadenceKept s (restartRest s) := (restartRest_outputsStand s).cadenceKept (restartRest_changes s).rem
  exact receive_cadenceKept s <| cadenceKept_ite hr (cadenceKept_ite
    ((hr.andThen (h _)).andThen (arbitrate_changes _).cadenceKept)
    ((hr.andThen (sendReply_changes _ _).cadenceKept).andThen (arbitrate_changes _).cadenceKept))

theorem answerClear_cadenceKept (s : State) : CadenceKept s (answerClear s) :=
  have hreply : ∀ r, OutputsStand s (sendReply r s) := fun r => (sendReply_changes r s).outputsStand
  cadenceKept_ite (sendReply_changes _ s).cadenceKept (cadenceKept_ite (sendReply_changes _ s).cadenceKept
    ((((hreply _).andThen (clearChildren_changes _).outputsStand).andThen
      (evaluateEvidence_changes _ _).outputsStand).andThen (publish_outputsStand _)).takeReminders)

theorem writeSucceeds_cadenceKept (w : WriteInFlight) (s : State) : CadenceKept s (writeSucceeds w s) :=
  ((((valueStands_changes w s).outputsStand.andThen (writeEffects_changes s _ _ _).outputsStand).andThen
    (publish_outputsStand _)).andThen (sendWriteReply_changes (writeReply w) _).outputsStand).endEvent

theorem writeCompletes_cadenceKept (o : WriteOutcome) (s : State) : CadenceKept s (writeCompletes o s) := by
  unfold writeCompletes
  split
  · exact CadenceKept.refl s
  · cases o
    case readBackAsWritten => exact writeSucceeds_cadenceKept _ s
    all_goals exact (writeFails_changes _ _ s).cadenceKept

/-! ### Commands -/

/-- Every command answers a next state, and keeps both invariants. -/
theorem exec_cadenceKept (c : Instr) (s : State) : ∃ t, exec c s = .next t ∧ CadenceKept s t := by
  cases c with
  | reset cause straps => exact ⟨_, rfl, resetPart_cadenceKept cause straps s⟩
  | autoloadEnd answer => exact ⟨_, rfl, cadenceKept_outsideReset s (autoloadEnds_cadenceKept answer s)⟩
  | ignLineChange high => exact ⟨_, rfl, ignLineChanges_cadenceKept high s⟩
  | ignAsserted => exact ⟨_, rfl, cadenceKept_outsideReset s (ignAsserts_cadenceKept s)⟩
  | ignDeasserted => exact ⟨_, rfl, cadenceKept_outsideReset s (ignDeasserts_cadenceKept s)⟩
  | holdSet => exact ⟨_, rfl, setHold_cadenceKept s⟩
  | holdCleared => exact ⟨_, rfl, clearHold_cadenceKept s⟩
  | restTimerExpiry => exact ⟨_, rfl, cadenceKept_outsideReset s (restExpires_cadenceKept s)⟩
  | wakeEvent source => exact ⟨_, rfl, cadenceKept_outsideReset s (takeWakeEvent_cadenceKept source s)⟩
  | endOfWakeSettle => exact ⟨_, rfl, cadenceKept_outsideReset s (endWakeSettle_cadenceKept s)⟩
  | secondsCountTick => exact ⟨_, rfl, cadenceKept_outsideReset s (secondsTick_cadenceKept s)⟩
  | slotTimerExpiry => exact ⟨_, rfl, slotExpires_cadenceKept s⟩
  | responseWindowExpiry => exact ⟨_, rfl, exchangeTimesOut_cadenceKept s⟩
  | sampleAnswer bytes => exact ⟨_, rfl, answerCompletes_cadenceKept bytes s⟩
  | readIdAnswer bytes => exact ⟨_, rfl, answerCompletes_cadenceKept bytes s⟩
  | readRegAnswer bytes => exact ⟨_, rfl, answerCompletes_cadenceKept bytes s⟩
  | writeRegAnswer bytes => exact ⟨_, rfl, answerCompletes_cadenceKept bytes s⟩
  | senseMated row => exact ⟨_, rfl, senseBecomesMated_cadenceKept row s⟩
  | rowArrival row => exact ⟨_, rfl, rowArrives_cadenceKept row s⟩
  | rowRemoval row => exact ⟨_, rfl, senseReadsUnmated_cadenceKept row s⟩
  | powerSettleExpiry row => exact ⟨_, rfl, settleExpires_cadenceKept row s⟩
  | powerOffTimerExpiry row => exact ⟨_, rfl, (powerOffExpires_changes row s).cadenceKept⟩
  | onlineStabilityTimerExpiry row => exact ⟨_, rfl, (stabilityExpires_changes row s).cadenceKept⟩
  | positionBecomesStale pos => exact ⟨_, rfl, ageRunsOut_cadenceKept pos s⟩
  | scanTimerExpiry pos moment => exact ⟨_, rfl, (scanExpires_changes pos moment s).cadenceKept⟩
  | tagReadTimerExpiry row => exact ⟨_, rfl, tagReadTimesOut_cadenceKept row s⟩
  | lockHoldTimerExpiry => exact ⟨_, rfl, holdExpires_cadenceKept s⟩
  | delayTimerExpiry pos => exact ⟨_, rfl, delayRunsOut_cadenceKept pos s⟩
  | audibleTimerExpiry pos => exact ⟨_, rfl, audibleRunsOut_cadenceKept pos s⟩
  | chimePeriodEnd => exact ⟨_, rfl, chimeEnds_cadenceKept s⟩
  | flashPeriodEnd => exact ⟨_, rfl, flashEnds_cadenceKept s⟩
  | cadenceOnPartEnd timer => exact ⟨_, rfl, endOnPart_cadenceKept timer s⟩
  | outenAsserted => exact ⟨_, rfl, outenRises_cadenceKept s⟩
  | outenDeasserted => exact ⟨_, rfl, outenFalls_cadenceKept s⟩
  | nop arg => exact ⟨_, rfl, takeRequest_cadenceKept _ arg s (fun t => respond_cadenceKept _ t)⟩
  | getFront arg => exact ⟨_, rfl, takeRequest_cadenceKept _ arg s (fun t => respond_cadenceKept _ t)⟩
  | getPosition arg => exact ⟨_, rfl, takeRequest_cadenceKept _ arg s (answerPosition_cadenceKept arg)⟩
  | getStatus arg => exact ⟨_, rfl, takeRequest_cadenceKept _ arg s (fun t => respond_cadenceKept _ t)⟩
  | lock arg => exact ⟨_, rfl, takeRequest_cadenceKept _ arg s (answerLock_cadenceKept arg)⟩
  | unlock arg => exact ⟨_, rfl, takeRequest_cadenceKept _ arg s answerUnlock_cadenceKept⟩
  | frameError => exact ⟨_, rfl, takeFrame_cadenceKept s (respond_cadenceKept _ s)⟩
  | unknownCommand command arg => exact ⟨_, rfl, takeRequest_cadenceKept command arg s (respond_cadenceKept _)⟩
  | vehicleState speed gear closures =>
    exact ⟨_, rfl, receive_cadenceKept s (takeVehicleState_cadenceKept speed gear closures s)⟩
  | freshnessTimerExpiry => exact ⟨_, rfl, freshnessExpires_cadenceKept s⟩
  | degradeTimerExpiry => exact ⟨_, rfl, degradeExpires_cadenceKept s⟩
  | mapTimerExpiry => exact ⟨_, rfl, (mapExpires_changes s).cadenceKept⟩
  | mapRequest => exact ⟨_, rfl, receive_cadenceKept s (takeMapRequest_changes s).cadenceKept⟩
  | reminderAck mask => exact ⟨_, rfl, receive_cadenceKept s (takeAck_cadenceKept mask s)⟩
  | readParam id value =>
    exact ⟨_, rfl, takeService_cadenceKept _ _ (fun t => (answerReadParam_changes id value t).cadenceKept) s⟩
  | writeParam id value =>
    exact ⟨_, rfl, takeService_cadenceKept _ _ (fun t => (answerWriteParam_changes id value t).cadenceKept) s⟩
  | clearChildList => exact ⟨_, rfl, takeService_cadenceKept _ _ answerClear_cadenceKept s⟩
  | readChildEntry index =>
    exact ⟨_, rfl, takeService_cadenceKept _ _ (fun t => (answerReadEntry_changes index t).cadenceKept) s⟩
  | readRow row => exact ⟨_, rfl, takeService_cadenceKept _ _ (fun t => (answerReadRow_changes row t).cadenceKept) s⟩
  | unknownServiceRequest kind =>
    exact ⟨_, rfl, takeService_cadenceKept kind _ (fun t => (sendReply_changes _ t).cadenceKept) s⟩
  | writeCompletion outcome => exact ⟨_, rfl, writeCompletes_cadenceKept outcome s⟩
  | transmitAcknowledged => exact ⟨_, rfl, (transmitAcked_changes s).cadenceKept⟩
  | busOff => exact ⟨_, rfl, cadenceKept_outsideReset s (busGoesOff_changes s).cadenceKept⟩
  | busOffRecovery => exact ⟨_, rfl, (busRecovers_changes s).cadenceKept⟩
  | matingDebounceStop row => exact ⟨_, rfl, senseReadsUnmated_cadenceKept row s⟩
  | supplyBelowHoldThreshold edge => exact ⟨_, rfl, onMonitor_cadenceKept s _⟩
  | resetRelease => exact ⟨_, rfl, releaseReset_cadenceKept s⟩

/-! ### The idle step -/

/-- The timers of reminders and outputs count; no reminder's state and no timer's running moves with them. -/
theorem countTimers_cadenceKept (s : State) : CadenceKept s (countTimers s) := by
  refine ⟨fun h => ?_, fun h => h.congr (GatesAs.refl _) rfl rfl⟩
  obtain ⟨hcopy, hshown⟩ := (cadenceInv_iff s).mp h
  refine (cadenceInv_iff _).mpr ⟨fun p => (hcopy p).trans ?_, count_copyShown hshown⟩
  exact (congrArg Reminder.state (PerPos.get_mapIdx s.rem (fun _ r => r.count) p)).symm

theorem whenTrue_cadenceKept {c : State → Bool} {f : State → State} (h : ∀ t, CadenceKept t (f t)) (s : State) :
    CadenceKept s (whenTrue c f s) := cadenceKept_ite (h s) (CadenceKept.refl s)

theorem periodExpiries_cadenceKept (chime flash : Bool) (s : State) : CadenceKept s (periodExpiries chime flash s) :=
  have h : CadenceKept s (if chime then s.onCadence Cadence.chimeEnds else s) :=
    cadenceKept_ite (chimeEnds_cadenceKept s) (CadenceKept.refl s)
  cadenceKept_ite (h.andThen (flashEnds_cadenceKept _)) h

theorem ignSettles_cadenceKept (s : State) : CadenceKept s (ignSettles s) :=
  cadenceKept_ite (onMonitor_cadenceKept s _) (cadenceKept_ite (ignAsserts_cadenceKept s) (ignDeasserts_cadenceKept s))

theorem rowExpiries_cadenceKept (r : Row) (s : State) : CadenceKept s (rowExpiries r s) := by
  unfold rowExpiries
  exact (((whenTrue_cadenceKept (rowArrives_cadenceKept r) s).andThen
    (whenTrue_cadenceKept (settleExpires_cadenceKept r) _)).andThen
    (whenTrue_cadenceKept (fun t => (powerOffExpires_changes r t).cadenceKept) _)).andThen
    (whenTrue_cadenceKept (fun t => (stabilityExpires_changes r t).cadenceKept) _)

theorem positionExpiries_cadenceKept (p : Pos) (s : State) : CadenceKept s (positionExpiries p s) := by
  unfold positionExpiries
  exact (((whenTrue_cadenceKept (goStale_cadenceKept p) s).andThen
    (whenTrue_cadenceKept (fun t => (scanExpires_changes p t.monitor.now t).cadenceKept) _)).andThen
    (whenTrue_cadenceKept (delayRunsOut_cadenceKept p) _)).andThen (whenTrue_cadenceKept (audibleRunsOut_cadenceKept p) _)

theorem bodyExpiries_cadenceKept (s : State) : CadenceKept s (bodyExpiries s) := by
  unfold bodyExpiries
  exact ((whenTrue_cadenceKept freshnessExpires_cadenceKept s).andThen
    (whenTrue_cadenceKept degradeExpires_cadenceKept _)).andThen
    (whenTrue_cadenceKept (fun t => (mapExpires_changes t).cadenceKept) _)

theorem lateExpiries_cadenceKept (s : State) : CadenceKept s (lateExpiries s) := by
  unfold lateExpiries
  exact ((whenTrue_cadenceKept setHold_cadenceKept s).andThen (whenTrue_cadenceKept restExpires_cadenceKept _)).andThen
    (whenTrue_cadenceKept endWakeSettle_cadenceKept _)

theorem takeExpiries_cadenceKept (chime flash : Bool) (s : State) : CadenceKept s (takeExpiries chime flash s) := by
  unfold takeExpiries monitorExpiries
  exact (((((((periodExpiries_cadenceKept chime flash s).andThen
    ((whenTrue_cadenceKept secondsTick_cadenceKept _).andThen (whenTrue_cadenceKept ignSettles_cadenceKept _))).andThen
    (cadenceKept_forEach rowExpiries_cadenceKept _ _)).andThen (whenTrue_cadenceKept slotExpires_cadenceKept _)).andThen
    (cadenceKept_forEach (fun r t => whenTrue_cadenceKept (tagReadTimesOut_cadenceKept r) t) _ _)).andThen
    (cadenceKept_forEach positionExpiries_cadenceKept _ _)).andThen (whenTrue_cadenceKept holdExpires_cadenceKept _)).andThen
    ((bodyExpiries_cadenceKept _).andThen (lateExpiries_cadenceKept _))

theorem tick_cadenceKept (s : State) : CadenceKept s (tick s) :=
  cadenceKept_ite (onMonitor_cadenceKept s _) ((countTimers_cadenceKept s).andThen (takeExpiries_cadenceKept _ _ _))

/-! ### The step -/

/-- A step takes the front command, or lets 1 ms pass, and either keeps both invariants. -/
theorem step_cadenceKept {s t : State} (h : step s = .next t) : CadenceKept s t := by
  unfold step at h
  split at h
  case h_1 c rest _ =>
    obtain ⟨u, hu, hk⟩ := exec_cadenceKept c { s with pending := rest }
    exact Host.Outcome.next.inj (hu.symm.trans h) ▸ ⟨hk.shown, hk.gated⟩
  case h_2 => exact Host.Outcome.next.inj h ▸ tick_cadenceKept s

end Sys2Proof.Machine

namespace Sys2Proof.Certificates

open Sys2Proof.Machine

/-- Settles O58: an event that moves a reminder ends with the Cadence Generator taking it; OUTEN, the wake and the way to
SLEEP set the gates, and nothing else touches them but a release. -/
theorem everyStepKeepsTheCadence : Obligations.EveryStepKeepsTheCadence :=
  ⟨fun _ _ hs h => (step_cadenceKept h).shown hs, fun _ _ hs h => (step_cadenceKept h).gated hs⟩

end Sys2Proof.Certificates
end

section
/-! PROOFS. The period ends of the cadence timers, the end of an on part, and OUTEN's gates in RUN and REST (R137 to R146). -/

namespace Sys2Proof.Machine

/-! ### Period ends and on parts -/

theorem Gate.release_eq (g : Gate) : g.release = if g = .pending then .following else g := by cases g <;> rfl

theorem chimeCadence_eq {w : Profile} (h : w ≠ .none) :
    chimeCadence w = if w = .front then ⟨2, 250, 125, 0, 0, true⟩ else ⟨8, 150, 38, 0, 0, true⟩ := by
  cases w with
  | none => exact absurd rfl h
  | front => rfl
  | rear => rfl

/-- The end of a chime period with a profile wanted: the timer reloads where it is the active one, and else takes the
cadence of the other (R140, R141). -/
theorem chimeEnds_wanted {c : Cadence} (hr : c.chime.running = true) (hw : wantedProfile c.copy ≠ .none) :
    c.chimeEnds = { c with
      chime := if wantedProfile c.copy = c.active then c.chime.reload else chimeCadence (wantedProfile c.copy)
      active := wantedProfile c.copy
      chimeGate := c.chimeGate.release } := by
  unfold Cadence.chimeEnds
  dsimp only
  rw [if_neg (by simp [hr]), if_neg hw]
  split
  case isTrue ha => rw [ha]
  case isFalse => rfl

theorem flashEnds_running {c : Cadence} (hr : c.flash.running = true) :
    c.flashEnds = { c with flash := c.flash.reload, telltaleGate := c.telltaleGate.release } := if_neg (by simp [hr])

/-- Where the on part is shorter than the period, its end leaves the level OFF (R137). -/
theorem CadenceTimer.endOnPart_level (t : CadenceTimer) (h : t.endOnPart.onCount < t.endOnPart.period) :
    t.endOnPart.level = false := by
  unfold CadenceTimer.endOnPart at *
  split
  case isTrue hc => simp [CadenceTimer.level]
  case isFalse hc =>
    rw [if_neg hc] at h
    simpa [CadenceTimer.level, h] using hc

/-! ### OUTEN -/

theorem outenRises_awake {s : State} (ha : awake s = true) (ho : s.pins.outen = false) :
    outenRises s = (s.onPins (fun u => { u with outen := true })).onCadence (fun c => c.openGates s.straps.outcfg) := by
  unfold outenRises
  rw [if_neg (by simp [ho])]
  exact if_pos ha

/-- A closed gate leaves the pin inactive with OUTCFG 0, and in high impedance with OUTCFG 1 (R144). -/
theorem pinState_closed_awake {s : State} (h : awake s = true) (level : Bool) :
    pinState s .closed level = if s.straps.outcfg then .highImpedance else .inactive := by
  cases ho : s.straps.outcfg <;> simp [pinState, h, ho]

/-- A pin whose gate an assertion of OUTEN has set (R144, R146). -/
theorem pinState_gateAtAssertion (s : State) (outcfg running level : Bool) :
    pinState s (gateAtAssertion outcfg running) level
      = if outcfg && running then .highImpedance else if level then .active else .inactive := by
  unfold gateAtAssertion
  split <;> rfl

end Sys2Proof.Machine

namespace Sys2Proof.Certificates

open Sys2Proof.Machine

/-- Settles O36: each end is one act of the Cadence Generator; the on part's end moves the counts of its own timer. -/
theorem cadencePeriodsEnd : Obligations.CadencePeriodsEnd := by
  intro s
  refine ⟨fun hr hw => ?chime, fun hr => ?flash, fun id => ?onPart⟩
  case chime =>
    refine congrArg (fun c => Host.Outcome.next { s with cadence := c }) ?_
    rw [chimeEnds_wanted hr hw, chimeCadence_eq hw, Gate.release_eq]
    rfl
  case flash =>
    refine congrArg (fun c => Host.Outcome.next { s with cadence := c }) ?_
    rw [flashEnds_running hr, Gate.release_eq]
    rfl
  case onPart =>
    refine ⟨_, rfl, ?_, ?_, ?_, ?_, ?_, changes_onCadence s _⟩
    · cases id with
      | chime => exact s.cadence.chime.endOnPart_level
      | flash => exact s.cadence.flash.endOnPart_level
    all_goals cases id <;> rfl

/-- Settles O37: the gates alone move, and each pin is read from its gate. -/
theorem outenGatesTheOutputs : Obligations.OutenGatesTheOutputs := by
  intro s ha
  have hchanges : ∀ (f : Pins → Pins) (g : Cadence → Cadence), ChangesOnly [.pins, .cadence] s ((s.onPins f).onCadence g) :=
    fun f g => (changes_onPins s f).widen.andThen (changes_onCadence _ g)
  refine ⟨?deasserts, fun ho => ?asserts⟩
  case deasserts =>
    have hpin := pinState_closed_awake (s := outenFalls s) ha
    exact ⟨_, rfl, hpin _, hpin _, rfl, rfl, rfl, rfl, rfl, hchanges _ _⟩
  case asserts =>
    exact ⟨_, congrArg Host.Outcome.next (outenRises_awake ha ho), pinState_gateAtAssertion _ _ _ _,
      pinState_gateAtAssertion _ _ _ _, rfl, rfl, rfl, rfl, rfl, hchanges _ _⟩

end Sys2Proof.Certificates
end

section
/-! PROOFS. Frames at a part that sleeps, wakes or hears them, and the wake events (R150, R152 to R155, R158, R172). -/

namespace Sys2Proof.Machine

/-! ### The first wake event and the later ones (R172) -/

theorem asleep_of_sleep {s : State} (hd : s.monitor.device = .sleep) (hn : s.monitor.wakeSettle = none) :
    asleep s = true := by
  simp [asleep, hd, hn]

theorem asleep_of_settle {s : State} {n : Nat} (hn : s.monitor.wakeSettle = some n) : asleep s = false := by
  simp [asleep, hn]

theorem wake_asleep {s : State} (h : asleep s = true) : wake s = woken s := if_pos h

theorem wake_of_not_asleep {s : State} (h : asleep s = false) : wake s = s := if_neg (ne_true_of_eq_false h)

/-- The state with the IGN line high. -/
def ignRaised (s : State) : State := { s with pins := { s.pins with ignLine := true } }

theorem takeWakeEvent_ignition (s : State) : takeWakeEvent .ignition s = wake (ignRaised s) := by
  unfold takeWakeEvent beginsFrame
  rw [Bool.and_false]
  rfl

/-- A wake event other than IGN that begins no frame. -/
theorem takeWakeEvent_plain {w : WakeSource} (hi : w ≠ .ignition) (hb : beginsFrame w = false) (s : State) :
    takeWakeEvent w s = if wakeCounts s w then wake s else s := by
  unfold takeWakeEvent
  simp only [hi, hb, Bool.and_false, if_false, Bool.false_eq_true]

/-- A chip-select change always counts, and an assertion that finds the part asleep marks its frame (R153, R172). -/
theorem takeWakeEvent_chipSelect (asserted : Bool) (s : State) : takeWakeEvent (.chipSelect asserted) s
    = if asleep s && asserted then (wake s).onPort (fun u => { u with wakingFrame := true }) else wake s := rfl

section
variable {s : State} (hr : s.monitor.inReset = false)
include hr

theorem exec_wakeEvent (w : WakeSource) : exec (.wakeEvent w) s = .next (takeWakeEvent w s) :=
  congrArg Host.Outcome.next (outsideReset_apply hr _)

theorem exec_wakeEvent_canActivity : exec (.wakeEvent .canActivity) s = .next (wake s) := by
  rw [exec_wakeEvent hr, takeWakeEvent_plain (by decide) rfl]
  rfl

/-- A WAKE input wakes where its enable is set (R172). -/
theorem exec_wakeEvent_input (i : Fin 3) :
    exec (.wakeEvent (if i = 0 then .wake0 else if i = 1 then .wake1 else .wake2)) s
      = .next (if wakeEnabled s i then wake s else s) := by
  rw [exec_wakeEvent hr]
  match i with
  | 0 => exact congrArg _ (takeWakeEvent_plain (w := .wake0) (by decide) rfl s)
  | 1 => exact congrArg _ (takeWakeEvent_plain (w := .wake1) (by decide) rfl s)
  | 2 => exact congrArg _ (takeWakeEvent_plain (w := .wake2) (by decide) rfl s)

theorem exec_wakeEvent_ignition : exec (.wakeEvent .ignition) s = .next (wake (ignRaised s)) := by
  rw [exec_wakeEvent hr, takeWakeEvent_ignition]

/-- In SLEEP an assertion of the raw IGN line is the same wake event (R171, R172). -/
theorem exec_ignLineChange_sleep (hd : s.monitor.device = .sleep) :
    exec (.ignLineChange true) s = .next (wake (ignRaised s)) := by
  refine congrArg Host.Outcome.next ?_
  unfold ignLineChanges
  rw [hr, hd]
  rfl

end

/-! ### A frame that ends (R153, R155) -/

/-- The commands that the end of a restraint frame spells (R148, R150). -/
def restraintFrame : Instr → Bool
  | .nop _ | .getFront _ | .getPosition _ | .getStatus _ | .lock _ | .unlock _ | .frameError
  | .unknownCommand _ _ => true
  | _ => false

/-- The commands that a CAN frame spells (R155). -/
def CanFrame : Instr → Prop
  | .vehicleState _ _ _ | .mapRequest | .reminderAck _ | .readParam _ _ | .writeParam _ _ | .clearChildList
  | .readChildEntry _ | .readRow _ | .unknownServiceRequest _ => True
  | _ => False

/-- What a restraint frame does is judged by `takeFrame` first. -/
theorem exec_restraintFrame {c : Instr} (h : restraintFrame c = true) :
    ∃ f, ∀ s, exec c s = .next (takeFrame f s) := by
  cases c with
  | nop | getFront | getPosition | getStatus | lock | unlock | frameError | unknownCommand => exact ⟨_, fun _ => rfl⟩
  | _ => exact absurd h Bool.false_ne_true

/-- What a CAN frame does is judged by `receive` first. -/
theorem exec_canFrame {c : Instr} (h : CanFrame c) : ∃ f, ∀ s, exec c s = .next (receive f s) := by
  cases c with
  | vehicleState | mapRequest | reminderAck | readParam | writeParam | clearChildList | readChildEntry | readRow
  | unknownServiceRequest => exact ⟨_, fun _ => rfl⟩
  | _ => exact h.elim

theorem takeFrame_asleep {s : State} (hr : s.monitor.inReset = false) (ha : asleep s = true) (f : State → State) :
    takeFrame f s = wake s :=
  (outsideReset_apply hr _).trans (if_pos ha)

theorem receive_asleep {s : State} (hr : s.monitor.inReset = false) (ha : asleep s = true) (f : State → State) :
    receive f s = wake s :=
  (outsideReset_apply hr _).trans (if_pos ha)

theorem takeFrame_wakingFrame {s : State} (h : Listening s) (hw : s.port.wakingFrame = true) (f : State → State) :
    takeFrame f s = missFrame s :=
  (outsideReset_apply h.1 _).trans ((if_neg (ne_true_of_eq_false h.2)).trans (if_pos hw))

theorem takeFrame_hearing {s : State} (h : Hearing s) (f : State → State) : takeFrame f s = f s := by
  obtain ⟨⟨hr, ha⟩, hw⟩ := h
  exact (outsideReset_apply hr _).trans
    ((if_neg (ne_true_of_eq_false ha)).trans (if_neg (ne_true_of_eq_false hw)))

/-- A frame on either controller port that finds the part asleep is a wake event and no more (R153, R155). -/
theorem exec_frame_asleep {s : State} (hr : s.monitor.inReset = false) (ha : asleep s = true) {c : Instr}
    (hc : restraintFrame c = true ∨ CanFrame c) : exec c s = .next (wake s) := by
  rcases hc with hc | hc
  · obtain ⟨f, hf⟩ := exec_restraintFrame hc
    rw [hf, takeFrame_asleep hr ha]
  · obtain ⟨f, hf⟩ := exec_canFrame hc
    rw [hf, receive_asleep hr ha]

/-- The frame that woke the part is not received when it ends (R153). -/
theorem exec_wakingFrame {s : State} (h : Listening s) (hw : s.port.wakingFrame = true) {c : Instr}
    (hc : restraintFrame c = true) : exec c s = .next { s with port := { s.port with wakingFrame := false } } := by
  obtain ⟨f, hf⟩ := exec_restraintFrame hc
  rw [hf, takeFrame_wakingFrame h hw]
  rfl

/-! ### The restraint port's output (R153, R154) -/

theorem shiftedOut_asleep {s : State} (h : asleep s = true) : shiftedOut s = none := if_pos h

theorem shiftedOut_woken (s : State) : shiftedOut (woken s) = some (responseBytes ⟨0, .notReady, 0⟩) :=
  if_neg (ne_true_of_eq_false (asleep_of_settle (s := woken s) rfl))

/-! ### A request that is refused (R150, R152) -/

/-- A well-formed frame that is heard replaces the last request held (assumption 46). -/
theorem takeRequest_hearing {s : State} (h : Hearing s) (command arg : Byte) (f : State → State) :
    takeRequest command arg f s
      = if s.port.ready then f (s.onPort (fun v => { v with lastRequest := some ⟨command, arg⟩ }))
        else answerNotReady command (s.onPort (fun v => { v with lastRequest := some ⟨command, arg⟩ })) :=
  takeFrame_hearing h _

section
variable {s : State} (h : Hearing s)
include h

theorem takeRequest_respond (hp : s.port.ready = true) (command arg : Byte) (status : Status) (payload : BitVec 12) :
    takeRequest command arg (respond ⟨command, status, payload⟩) s = answered s command arg status payload := by
  rw [takeRequest_hearing h, if_pos hp]
  rfl

/-- While the ready mark is clear the answer is NOT_READY whatever `f` the ready part would give (R152). -/
theorem takeRequest_notReady (hp : s.port.ready = false) (command arg : Byte) (f : State → State) :
    takeRequest command arg f s = restartRest { s with port := { s.port with
      lastRequest := some ⟨command, arg⟩, response := ⟨command, .notReady, notReadyPayload command⟩, ready := awake s } } := by
  rw [takeRequest_hearing h, if_neg (ne_true_of_eq_false hp)]
  rfl

end

theorem notReadyPayload_other {command : Byte} (h2 : command ≠ 0x02) (h3 : command ≠ 0x03) :
    notReadyPayload command = 0 := by
  rw [notReadyPayload, if_neg h2, if_neg h3]

/-- No position has the number (R16). -/
theorem answerPosition_bad {arg : Byte} (ha : arg.toNat = 0 ∨ 15 < arg.toNat) :
    answerPosition arg = respond ⟨0x03, .badArgument, 0⟩ := by
  have hnone : posOfNum arg.toNat = none := posOfNum_none (fun p hp => by
    have := Pos.num_range p
    omega)
  funext t
  rw [answerPosition, hnone]
  rfl

/-- No hold time has the select (R107). -/
theorem answerLock_bad {arg : Byte} (ha : 3 < arg.toNat) : answerLock arg = respond ⟨0x0A, .badArgument, 0⟩ := by
  funext t
  exact if_neg (Nat.not_le.mpr ha)

end Sys2Proof.Machine

namespace Sys2Proof.Certificates

open Sys2Proof.Machine

/-- Settles O14: an event at the sleeping part is `wake` for the sources that count, and `wake` leaves a part that settles as
it is. -/
theorem wakeEvents : Obligations.WakeEvents := by
  intro s hr hd frame high
  have hframe : ∀ c, frame c = restraintFrame c := fun c => by cases c <;> rfl
  refine ⟨fun hn => ?asleep, fun n hn => ?settling⟩
  case asleep =>
    have ha : asleep s = true := asleep_of_sleep hd hn
    have hwake : wake s = woken s := wake_asleep ha
    have hhigh : wake (ignRaised s) = woken (high s) := wake_asleep ha
    refine ⟨?can, ?deselect, ?select, ?ignition, ?ignLine, fun i => ?input, fun c hc => ?arrives, shiftedOut_asleep ha,
      shiftedOut_woken s⟩
    case can => rw [exec_wakeEvent_canActivity hr, hwake]
    case deselect => rw [exec_wakeEvent hr, takeWakeEvent_chipSelect, ha, hwake]; rfl
    case select => rw [exec_wakeEvent hr, takeWakeEvent_chipSelect, ha, hwake]; rfl
    case ignition => rw [exec_wakeEvent_ignition hr, hhigh]
    case ignLine => rw [exec_ignLineChange_sleep hr hd, hhigh]
    case input => rw [exec_wakeEvent_input hr, hwake]
    case arrives =>
      rw [hframe] at hc
      rw [exec_frame_asleep hr ha hc, hwake]
  case settling =>
    have ha : asleep s = false := asleep_of_settle hn
    have hwake : wake s = s := wake_of_not_asleep ha
    have hhigh : wake (ignRaised s) = high s := wake_of_not_asleep ha
    refine ⟨?can, fun b => ?chipSelect, fun i => ?input, ?ignition, ?ignLine, fun c hw hc => ?arrives⟩
    case can => rw [exec_wakeEvent_canActivity hr, hwake]
    case chipSelect => rw [exec_wakeEvent hr, takeWakeEvent_chipSelect, ha, hwake]; rfl
    case input => rw [exec_wakeEvent_input hr, hwake, ite_self]
    case ignition => rw [exec_wakeEvent_ignition hr, hhigh]
    case ignLine => rw [exec_ignLineChange_sleep hr hd, hhigh]
    case arrives => exact exec_wakingFrame ⟨hr, ha⟩ hw ((hframe c).symm.trans hc)

/-- Settles O39: a heard frame is answered by its ready mark, a refused argument like an unknown command; the frame that woke
the part is missed. -/
theorem restraintRefusalsHaveNoEffect : Obligations.RestraintRefusalsHaveNoEffect := by
  refine ⟨fun s h => ⟨?frameError, fun hp command arg => ⟨?unknown, fun ha => ?position, fun ha => ?lock⟩,
    fun hp command arg => ?notReady⟩, fun s c h hw hc => ?waking⟩
  case frameError => exact congrArg Host.Outcome.next (takeFrame_hearing h _)
  case unknown => exact congrArg Host.Outcome.next (takeRequest_respond h hp _ _ _ _)
  case position =>
    show Host.Outcome.next (takeRequest 0x03 arg (answerPosition arg) s) = _
    rw [answerPosition_bad ha, takeRequest_respond h hp]
  case lock =>
    show Host.Outcome.next (takeRequest 0x0A arg (answerLock arg) s) = _
    rw [answerLock_bad ha, takeRequest_respond h hp]
  case notReady =>
    have hanswer := fun (command : Byte) (f : State → State) =>
      congrArg (Host.Outcome.next (φ := Fault) (ρ := Refusal)) (takeRequest_notReady h hp command arg f)
    refine ⟨hanswer 0x01 _, hanswer 0x02 _, hanswer 0x03 _, hanswer 0x04 _, hanswer 0x0A _, hanswer 0x0B _,
      fun h2 h3 => ?_⟩
    exact notReadyPayload_other h2 h3 ▸ hanswer command _
  case waking =>
    have hframe : restraintFrame c = true := by
      cases c with
      | nop | getFront | getPosition | getStatus | lock | unlock | frameError | unknownCommand => rfl
      | _ => exact hc.elim
    exact exec_wakingFrame h hw hframe

end Sys2Proof.Certificates
end

section
/-! PROOFS. Every step keeps the notice queue's bound and its coalescing, and the transmit slot in agreement with what waits
(R157 to R162). -/

namespace Sys2Proof.Certificates

open Sys2Proof.Machine

/-- Settles O54: the notice queue is one of the invariants that every step keeps; each operation on it is one of
`Body.enter_queueInv`, `placeAny_queueInv`, `Body.acknowledged_queueInv` and `Body.enterBusOff_queueInv`. -/
theorem everyStepBoundsTheQueue : Obligations.EveryStepBoundsTheQueue :=
  fun _ _ hs h => (step_keeps h).queue hs

/-- Settles O55: the transmit slot is one of the invariants that every step keeps; a notice that coalesces or is displaced
takes its frame out of the slot (`slotInv_withdraw`), and a new snapshot replaces the map that stands there (`slotInv_maps`). -/
theorem everyStepKeepsTheSlot : Obligations.EveryStepKeepsTheSlot :=
  fun _ _ hs h => (step_keeps h).slot hs

end Sys2Proof.Certificates
end

section
/-! PROOFS. A REMINDER_ACK silences the REAR positions it names, and each of their notices waits (R16, R126, R127, R135,
R163). -/

namespace Sys2Proof.Machine

/-! ### One position's turn (R127) -/

/-- The turn of a position in an acknowledgement (R127). -/
def ackTurn (mask : Word16) (p : Pos) (s : State) : State :=
  if ackBit mask p && !isFront p && (s.rem.get p).state == .audible then silence p 2 s else s

theorem acknowledge_eq (mask : Word16) (s : State) : acknowledge mask s = forEach allPos (ackTurn mask) s := rfl

/-- The notice of an entry to SILENCED by an acknowledgement (R135). -/
def ackNotice (p : Pos) : Notice := ⟨.reminder, .position p, 3, 4, 2, none⟩

theorem isFront_eq_false_iff (p : Pos) : isFront p = false ↔ 4 ≤ p.num := by
  obtain ⟨r, k⟩ := p
  cases r <;> cases k <;> decide

theorem ackTurn_cases (mask : Word16) (p : Pos) (s : State) :
    (ackBit mask p = true ∧ 4 ≤ p.num ∧ (s.rem.get p).state = .audible ∧ ackTurn mask p s = silence p 2 s)
    ∨ (¬ (ackBit mask p = true ∧ 4 ≤ p.num ∧ (s.rem.get p).state = .audible) ∧ ackTurn mask p s = s) := by
  have hcond : (ackBit mask p && !isFront p && (s.rem.get p).state == .audible) = true
      ↔ ackBit mask p = true ∧ 4 ≤ p.num ∧ (s.rem.get p).state = .audible := by
    rw [Bool.and_eq_true, Bool.and_eq_true, Bool.not_eq_true', isFront_eq_false_iff, beq_iff_eq, and_assoc]
  by_cases h : ackBit mask p = true ∧ 4 ≤ p.num ∧ (s.rem.get p).state = .audible
  · obtain ⟨hbit, hrear, haudible⟩ := h
    exact .inl ⟨hbit, hrear, haudible, if_pos (hcond.mpr ⟨hbit, hrear, haudible⟩)⟩
  · exact .inr ⟨h, if_neg (fun hc => h (hcond.mp hc))⟩

theorem ackTurn_rem (mask : Word16) (p : Pos) (s : State) (q : Pos) : (ackTurn mask p s).rem.get q
    = if q = p then
        if ackBit mask q = true ∧ 4 ≤ q.num ∧ (s.rem.get q).state = .audible then
          { s.rem.get q with state := .silenced, audible := none }
        else s.rem.get q
      else s.rem.get q := by
  obtain ⟨hbit, hrear, haudible, h⟩ | ⟨hno, h⟩ := ackTurn_cases mask p s <;> rw [h]
  · show (s.rem.modify p (fun r => { r with state := .silenced, audible := none })).get q = _
    rw [PerPos.get_modify]
    exact if_ctx_congr Iff.rfl (fun hq => by rw [hq, if_pos ⟨hbit, hrear, haudible⟩]) (fun _ => rfl)
  · split
    · rename_i hq
      rw [hq, if_neg hno]
    · rfl

theorem ackTurn_quiet (mask : Word16) (p : Pos) (s : State) : Quiet s (ackTurn mask p s) :=
  quiet_ite ((changes_onRem s p _).quiet.andThen (notify_quiet _ _)) (Quiet.refl s)

/-- A turn makes no notice but the position's own (R135). -/
theorem ackTurn_body (mask : Word16) (p : Pos) (s : State) :
    (ackTurn mask p s).body = s.body ∨ ∃ u, (ackTurn mask p s).body = s.body.enter u (ackNotice p) := by
  obtain ⟨_, _, _, h⟩ | ⟨_, h⟩ := ackTurn_cases mask p s <;> rw [h]
  · exact .inr ⟨_, rfl⟩
  · exact .inl rfl

theorem ackTurn_queue_length_le (mask : Word16) (p : Pos) (s : State) :
    (ackTurn mask p s).body.queue.length ≤ s.body.queue.length + 1 := by
  obtain ⟨_, _, _, h⟩ | ⟨_, h⟩ := ackTurn_cases mask p s <;> rw [h]
  · exact notify_queue_length_le _ _
  · exact Nat.le_succ _

theorem ackTurn_mem_queue {mask : Word16} {p : Pos} {s : State} {e : QueueEntry} (he : e ∈ s.body.queue)
    (hl : s.body.queue.length < 24) (hp : e.notice.subject ≠ .position p) : e ∈ (ackTurn mask p s).body.queue := by
  obtain h | ⟨u, h⟩ := ackTurn_body mask p s <;> rw [h]
  · exact he
  · exact Body.mem_enter_of_mem u he hl (fun hc => hp hc.2)

theorem ackTurn_noneWaits {mask : Word16} {p q : Pos} {s : State} (h : NoneWaits s.body .reminder (.position q))
    (hp : p ≠ q) : NoneWaits (ackTurn mask p s).body .reminder (.position q) := by
  obtain hb | ⟨u, hb⟩ := ackTurn_body mask p s <;> rw [hb]
  · exact h
  · exact Body.enter_noneWaits u h (fun hc => hp (Subject.position.inj hc.2))

/-! ### The turns of all positions -/

theorem forEach_ackTurn_rem (mask : Word16) {l : List Pos} (hl : l.Nodup) (s : State) (p : Pos) :
    (forEach l (ackTurn mask) s).rem.get p
      = if p ∈ l then
          if ackBit mask p = true ∧ 4 ≤ p.num ∧ (s.rem.get p).state = .audible then
            { s.rem.get p with state := .silenced, audible := none }
          else s.rem.get p
        else s.rem.get p :=
  forEach_get (fun t => t.rem.get) (K := fun _ => True)
    (upd := fun q r => if ackBit mask q = true ∧ 4 ≤ q.num ∧ r.state = .audible then
      { r with state := .silenced, audible := none } else r)
    (fun _ _ _ => trivial) (fun p s q _ => ackTurn_rem mask p s q) l s hl trivial p

theorem acknowledge_rem (mask : Word16) (s : State) (p : Pos) : (acknowledge mask s).rem.get p
    = if ackBit mask p = true ∧ 4 ≤ p.num ∧ (s.rem.get p).state = .audible then
        { s.rem.get p with state := .silenced, audible := none }
      else s.rem.get p := by
  rw [acknowledge_eq, forEach_ackTurn_rem mask allPos_nodup, if_pos (mem_allPos p)]

theorem acknowledge_quiet (mask : Word16) (s : State) : Quiet s (acknowledge mask s) :=
  quiet_forEach (ackTurn_quiet mask) allPos s

/-- Turns that leave every state may be left out. -/
theorem forEach_filter {α : Type} {f : α → State → State} {c : α → Bool} (h : ∀ a s, c a = false → f a s = s) :
    ∀ (l : List α) (s : State), forEach l f s = forEach (l.filter c) f s
  | [], _ => rfl
  | a :: l, s => by
    show forEach l f (f a s) = _
    cases hc : c a
    · rw [h a s hc, List.filter_cons_of_neg (ne_true_of_eq_false hc)]
      exact forEach_filter h l s
    · rw [List.filter_cons_of_pos hc]
      exact forEach_filter h l (f a s)

/-- The twelve REAR positions (R3). -/
def rearPositions : List Pos := allPos.filter (fun p => !isFront p)

theorem mem_rearPositions {p : Pos} : p ∈ rearPositions ↔ 4 ≤ p.num := by
  rw [rearPositions, List.mem_filter, Bool.not_eq_true', isFront_eq_false_iff]
  exact and_iff_right (mem_allPos p)

theorem rearPositions_length : rearPositions.length = 12 := by decide

theorem rearPositions_nodup : rearPositions.Nodup := allPos_nodup.filter _

/-- The turns of the FRONT positions do nothing (R127). -/
theorem acknowledge_rear (mask : Word16) (s : State) : acknowledge mask s = forEach rearPositions (ackTurn mask) s := by
  refine forEach_filter (fun p t hp => ?_) allPos s
  refine if_neg ?_
  rw [hp, Bool.and_false, Bool.false_and]
  exact Bool.false_ne_true

theorem forEach_ackTurn_noneWaits {mask : Word16} {q : Pos} : ∀ {l : List Pos} {s : State}, q ∉ l →
    NoneWaits s.body .reminder (.position q) → NoneWaits (forEach l (ackTurn mask) s).body .reminder (.position q)
  | [], _, _, h => h
  | p :: l, s, hq, h => by
    have hp : p ≠ q := fun he => hq (he ▸ List.mem_cons_self)
    exact forEach_ackTurn_noneWaits (s := ackTurn mask p s) (fun hl => hq (List.mem_cons_of_mem p hl))
      (ackTurn_noneWaits h hp)

theorem silence_mem_queue {p : Pos} {s : State} (hl : s.body.queue.length < 24)
    (hn : NoneWaits s.body .reminder (.position p)) : ∃ u, ⟨ackNotice p, u, false⟩ ∈ (silence p 2 s).body.queue :=
  ⟨_, Body.mem_enter_self _ hl hn⟩

/-- A queue with room for a notice of each REAR position takes that of each position silenced, and keeps it (R135, R161). -/
theorem acknowledge_waits {mask : Word16} {s : State} {p : Pos}
    (h : ackBit mask p = true ∧ 4 ≤ p.num ∧ (s.rem.get p).state = .audible) (hroom : s.body.queue.length ≤ 12)
    (hn : NoneWaits s.body .reminder (.position p)) : Waits (acknowledge mask s).body (ackNotice p) := by
  have hnodup := rearPositions_nodup
  have hlength := rearPositions_length
  obtain ⟨l, r, hsplit⟩ := List.append_of_mem (mem_rearPositions.mpr h.2.1)
  rw [acknowledge_rear, hsplit, forEach_append_cons]
  rw [hsplit] at hnodup hlength
  rw [List.length_append, List.length_cons] at hlength
  obtain ⟨honce, hrest⟩ := List.nodup_cons.mp (List.nodup_middle.mp hnodup)
  have hl : p ∉ l := fun hm => honce (List.mem_append_left r hm)
  have hgrows := forEach_queue_length_le (ackTurn_queue_length_le mask) l s
  have hgrow := ackTurn_queue_length_le mask p (forEach l (ackTurn mask) s)
  have hturn : ackTurn mask p (forEach l (ackTurn mask) s) = silence p 2 (forEach l (ackTurn mask) s) := by
    obtain ⟨_, _, _, hs⟩ | ⟨hno, _⟩ := ackTurn_cases mask p (forEach l (ackTurn mask) s)
    · exact hs
    · rw [forEach_ackTurn_rem mask hrest.of_append_left, if_neg hl] at hno
      exact absurd h hno
  obtain ⟨u, hjoins⟩ := silence_mem_queue (by omega) (forEach_ackTurn_noneWaits (mask := mask) hl hn)
  rw [← hturn] at hjoins
  refine ⟨_, mem_queue_forEach (ackTurn_queue_length_le mask) (fun q hq t ht he => ?_) (by omega) hjoins, rfl⟩
  exact ackTurn_mem_queue he ht (fun hs => honce (List.mem_append_right l (Subject.position.inj hs ▸ hq)))

end Sys2Proof.Machine

namespace Sys2Proof.Certificates

open Sys2Proof.Machine

/-- Settles O35: the acknowledgement is one turn for each position, and the end of the event leaves the reminders and the
notices. -/
theorem acknowledgementSilences : Obligations.AcknowledgementSilences := by
  intro s mask hrun hbus
  have hexec : exec (.reminderAck mask) s = .next (endEvent (acknowledge mask s)) := by
    obtain ⟨hreset, hawake⟩ := hrun
    refine congrArg Host.Outcome.next ((receive_listening ⟨⟨hreset, asleep_of_awake hawake⟩, hbus⟩ _).trans ?_)
    exact if_pos hawake
  have hends := endEvent_changes (acknowledge mask s)
  have hquiet := (acknowledge_quiet mask s).andThen (endEvent_quiet _)
  have hrem : ∀ p, (endEvent (acknowledge mask s)).rem.get p
      = if mask.getLsbD (p.num - 1) = true ∧ 4 ≤ p.num ∧ (s.rem.get p).state = .audible then
          { s.rem.get p with state := .silenced, audible := none }
        else s.rem.get p := fun p => by
    rw [hends.rem]
    exact acknowledge_rem mask s p
  refine ⟨_, hexec, hrem, fun p haudible hsilenced hroom hnone => ?_, by rw [hquiet.body], by rw [hquiet.body],
    (acknowledge_changes mask s).widen.andThen hends⟩
  refine (waits_congr (endEvent_notices _) _).mpr (acknowledge_waits ?_ hroom (hnone p))
  by_contra hno
  rw [(hrem p).trans (if_neg hno), haudible] at hsilenced
  nomatch hsilenced

end Sys2Proof.Certificates
end

section
/-! PROOFS. A VEHICLE_STATE is taken, and the vehicle-state copy ages (R117, R156, R171, R177). -/

namespace Sys2Proof.Machine

theorem afterVanChange_quiet (b s : State) : Quiet s (afterVanChange b s) :=
  quiet_ite (Quiet.refl s) (evaluateAllLists_quiet s)

/-- What follows a change of the vehicle-state copy: the lists on a changed signal, and the end of the event (R121). -/
def vanChangeEnds (b s : State) : State := endEvent (afterVanChange b s)

theorem vanChangeEnds_quiet (b s : State) : Quiet s (vanChangeEnds b s) :=
  (afterVanChange_quiet b s).andThen (endEvent_quiet _)

theorem vanChangeEnds_changes (b s : State) : ChangesOnly [.rem, .cadence, .body] s (vanChangeEnds b s) :=
  (afterVanChange_changes b s).widen.andThen (endEvent_changes _)

/-! ### A frame is taken (R156, R177) -/

/-- The gears are the codes 0 to 4 (R177). -/
theorem parseGear_known {b : Byte} (h : b.toNat ≤ 4) : parseGear b
    = some (if b = 0 then .park else if b = 1 then .reverse else if b = 2 then .neutral
        else if b = 3 then .drive else .unknown) := by
  unfold parseGear
  split_ifs with h0 h1 h2 h3 h4
  case neg => bv_omega
  all_goals rfl

theorem parseGear_other {b : Byte} (h : 4 < b.toNat) : parseGear b = none := by
  unfold parseGear
  split_ifs with h0 h1 h2 h3 h4
  case neg => rfl
  all_goals bv_omega

/-- The state in which the copy is FRESH with the frame's values, and the rest timer has restarted if a closure changed
(R156, R171). -/
def vehicleTaken (speed : Byte) (g : Gear) (c : Closures) (s : State) : State :=
  if s.body.vehicle.closures = c then s.onBody (fun b => b.takeVehicle speed g c)
  else restartRest (s.onBody (fun b => b.takeVehicle speed g c))

theorem vehicleTaken_changes (speed : Byte) (g : Gear) (c : Closures) (s : State) :
    ChangesOnly [.monitor, .body] s (vehicleTaken speed g c s) :=
  changesOnly_ite (changes_onBody s _).widen ((changes_onBody s _).widen.andThen (restartRest_changes _))

theorem vehicleTaken_body (speed : Byte) (g : Gear) (c : Closures) (s : State) :
    (vehicleTaken speed g c s).body = s.body.takeVehicle speed g c := by
  unfold vehicleTaken
  split
  · rfl
  · exact (restartRest_changes _).body

theorem vehicleTaken_monitor (speed : Byte) (g : Gear) (c : Closures) (s : State) :
    (vehicleTaken speed g c s).monitor
      = if s.body.vehicle.closures = c ∨ s.monitor.device ≠ .rest then s.monitor
        else { s.monitor with restTimer := some (restTime s) } := by
  unfold vehicleTaken
  by_cases hc : s.body.vehicle.closures = c
  · rw [if_pos hc, if_pos (.inl hc)]
    rfl
  · rw [if_neg hc, restartRest_monitor, State.onBody_monitor]
    by_cases hd : s.monitor.device = .rest
    · rw [if_pos hd, if_neg (fun h => h.elim hc (fun hn => hn hd))]
      rfl
    · rw [if_neg hd, if_pos (.inr hd)]

theorem takeVehicleState_known {speed gear closures : Byte} {g : Gear} (h : parseGear gear = some g) (s : State) :
    takeVehicleState speed gear closures s
      = vanChangeEnds s (vehicleTaken speed g (parseClosures closures) s) := by
  unfold takeVehicleState
  rw [h]
  rfl

theorem takeVehicleState_other {gear : Byte} (h : parseGear gear = none) (speed closures : Byte) (s : State) :
    takeVehicleState speed gear closures s = s := by
  unfold takeVehicleState
  rw [h]

/-- A frame with a gear that is known is taken (R156, R171). -/
theorem exec_vehicleState_known {s : State} (h : Receiving s) {gear : Byte} {g : Gear} (hg : parseGear gear = some g)
    (speed closures : Byte) : ∃ t, exec (.vehicleState speed gear closures) s = .next t
      ∧ t.body.vehicle = ⟨speed, g, parseClosures closures, .fresh⟩
      ∧ t.body.freshTimer = some 500 ∧ t.body.degrade = none
      ∧ t.monitor = (if s.body.vehicle.closures = t.body.vehicle.closures ∨ s.monitor.device ≠ .rest then s.monitor
          else { s.monitor with restTimer := some (restTime s) })
      ∧ ChangesOnly [.monitor, .rem, .cadence, .body] s t := by
  have hexec := (receive_listening h (takeVehicleState speed gear closures)).trans
    (takeVehicleState_known (speed := speed) (closures := closures) hg s)
  have hbody := vehicleTaken_body speed g (parseClosures closures) s
  have hquiet := vanChangeEnds_quiet s (vehicleTaken speed g (parseClosures closures) s)
  have hchanges := vanChangeEnds_changes s (vehicleTaken speed g (parseClosures closures) s)
  have hvehicle := hquiet.vehicle.trans (congrArg Body.vehicle hbody)
  refine ⟨_, congrArg Host.Outcome.next hexec, hvehicle, ?_, ?_, ?_,
    (vehicleTaken_changes speed g (parseClosures closures) s).widen.andThen hchanges⟩
  · rw [hquiet.body, hbody]
    rfl
  · rw [hquiet.body, hbody]
    rfl
  · rw [hchanges.monitor, vehicleTaken_monitor, hvehicle]
    rfl

/-! ### The copy ages (R156) -/

theorem freshnessExpires_running {s : State} {n : Nat} (h : s.body.freshTimer = some n) :
    freshnessExpires s = vanChangeEnds s (s.onBody (fun b => b.freshnessExpires s.monitor.ign)) :=
  if_pos (Option.isSome_of_eq_some h)

theorem degradeExpires_running {s : State} {n : Nat} (h : s.body.degrade = some n) :
    degradeExpires s = vanChangeEnds s (s.onBody Body.degradeExpires) :=
  if_pos (Option.isSome_of_eq_some h)

theorem presented_degraded {b : Body} (h : b.vehicle.freshness = .degraded) :
    presented b = ⟨255, .drive, Closures.closed, .degraded⟩ := if_pos h

end Sys2Proof.Machine

namespace Sys2Proof.Certificates

open Sys2Proof.Machine

/-- Settles O41: the frame and each expiry move the copy first, and the lists evaluated on it leave the copy, its timers and
the Monitor. -/
theorem vehicleStateIsTaken : Obligations.VehicleStateIsTaken := by
  refine ⟨fun s speed gear closures hrecv =>
    ⟨fun hgear => exec_vehicleState_known hrecv (parseGear_known hgear) speed closures, fun hgear => ?other⟩,
    fun s n => ⟨fun htimer => ?fresh, fun htimer => ?degrade⟩⟩
  case other =>
    exact congrArg Host.Outcome.next
      ((receive_listening hrecv _).trans (takeVehicleState_other (parseGear_other hgear) speed closures s))
  case fresh =>
    have hquiet := vanChangeEnds_quiet s (s.onBody (fun b => b.freshnessExpires s.monitor.ign))
    refine ⟨_, congrArg Host.Outcome.next (freshnessExpires_running htimer), hquiet.vehicle, ?_, ?_,
      (changes_onBody s _).widen.andThen (vanChangeEnds_changes s _)⟩
    · rw [hquiet.body]
      rfl
    · rw [hquiet.body]
      rfl
  case degrade =>
    have hquiet := vanChangeEnds_quiet s (s.onBody Body.degradeExpires)
    refine ⟨_, congrArg Host.Outcome.next (degradeExpires_running htimer), hquiet.vehicle, ?_, ?_,
      (changes_onBody s _).widen.andThen (vanChangeEnds_changes s _)⟩
    · rw [hquiet.body]
      rfl
    · exact presented_degraded (congrArg Vehicle.freshness hquiet.vehicle)

end Sys2Proof.Certificates
end

section
/-! PROOFS. Both maps fall due from one snapshot, at the map timer and at a MAP_REQUEST (R157, R158). -/

namespace Sys2Proof.Machine

/-! ### Both maps fall due -/

/-- Both maps fall due and the arbiter fills the slot: what the Body Port then holds of maps, map timer and RESYNC. -/
theorem mapsSent_body (s : State) : (arbitrate (mapsDue s)).body.occMap = some (bytesOf64 (occMapWord s))
    ∧ (arbitrate (mapsDue s)).body.beltMap = some (bytesOf64 (beltMapWord s))
    ∧ (arbitrate (mapsDue s)).body.mapTimer = s.body.mapTimer
    ∧ (arbitrate (mapsDue s)).body.resync = s.body.resync := by
  have hquiet := arbitrate_quiet (mapsDue s)
  obtain ⟨_, _, hresync⟩ := arbitrate_body (mapsDue s)
  exact ⟨by rw [hquiet.body]; rfl, by rw [hquiet.body]; rfl, hquiet.mapTimer, hresync⟩

theorem mapsSent_changes (s : State) (f : Body → Body) : ChangesOnly [.body] s (arbitrate (mapsDue (s.onBody f))) :=
  ((changes_onBody s f).andThen (mapsDue_changes _)).andThen (arbitrate_changes _)

/-! ### What the maps read of the Body Port -/

/-- Of the Body Port BELT_MAP reads RESYNC and the vehicle-state copy alone; OCC_MAP reads nothing of it. -/
theorem beltMapWord_onBody {s : State} {f : Body → Body} (hr : (f s.body).resync = s.body.resync)
    (hv : (f s.body).vehicle = s.body.vehicle) : beltMapWord (s.onBody f) = beltMapWord s := by
  unfold beltMapWord
  rw [State.onBody_body, hr, hv]
  rfl

/-! ### The two occasions -/

theorem mapExpires_running {s : State} {n : Nat} (h : s.body.mapTimer = some n) : mapExpires s
    = arbitrate (mapsDue (s.onBody (fun b => { b with mapTimer := some (mapPeriod s) }))) :=
  if_pos (Option.isSome_of_eq_some h)

theorem takeMapRequest_awake {s : State} (h : awake s = true) :
    takeMapRequest s = arbitrate (mapsDue (s.onBody (fun b => { b with resync := false }))) := if_pos h

end Sys2Proof.Machine

namespace Sys2Proof.Certificates

open Sys2Proof.Machine

/-- Settles O42: the timer restarts, or RESYNC clears, before the snapshot is taken. -/
theorem mapsFallDue : Obligations.MapsFallDue := by
  refine fun s => ⟨fun n htimer => ?expiry, fun hrun hbus => ?request⟩
  case expiry =>
    obtain ⟨hocc, hbelt, hmapTimer, hresync⟩ :=
      mapsSent_body (s.onBody (fun b => { b with mapTimer := some (mapPeriod s) }))
    refine ⟨_, congrArg Host.Outcome.next (mapExpires_running htimer), hocc, hbelt.trans ?_, hmapTimer, hresync,
      mapsSent_changes s _⟩
    rw [beltMapWord_onBody rfl rfl]
  case request =>
    obtain ⟨hreset, hawake⟩ := hrun
    obtain ⟨hocc, hbelt, hmapTimer, hresync⟩ := mapsSent_body (s.onBody (fun b => { b with resync := false }))
    refine ⟨_, congrArg Host.Outcome.next ?_, hresync, hmapTimer, hocc, hbelt, mapsSent_changes s _⟩
    exact (receive_listening ⟨⟨hreset, asleep_of_awake hawake⟩, hbus⟩ _).trans (takeMapRequest_awake hawake)

end Sys2Proof.Certificates
end

section
/-! PROOFS. The transmitter: acknowledgement, bus-off and its recovery (R159, R162, R164, R177). -/

namespace Sys2Proof.Machine

/-! ### The acknowledged frame's owner is told (R159) -/

section
variable {b : Body} {f : SlotFrame} (h : b.slot = some f)
include h

theorem Body.acknowledged_occMap (ho : f.owner = .occMap) :
    b.acknowledged = { b with slot := none, occMap := none } := by
  unfold Body.acknowledged
  simp only [h, ho]

theorem Body.acknowledged_beltMap (ho : f.owner = .beltMap) :
    b.acknowledged = { b with slot := none, beltMap := none } := by
  unfold Body.acknowledged
  simp only [h, ho]

theorem Body.acknowledged_reply (ho : f.owner = .reply) :
    b.acknowledged = Body.replySent { b with slot := none } := by
  unfold Body.acknowledged
  simp only [h, ho]

theorem Body.acknowledged_notice (ho : f.owner = .notice) :
    b.acknowledged = Body.noticeSent { b with slot := none } := by
  unfold Body.acknowledged
  simp only [h, ho]

end

/-- A reply whose frame was sent goes on to its next frame, or ends and lets the held reply follow (R164, R177). -/
theorem Body.replySent_reply (b : Body) : b.replySent.reply = (match b.reply with
    | some r => if r.next + 1 < replyFrames r.content then some { r with next := r.next + 1 } else b.heldReply
    | none => none) := by
  unfold Body.replySent
  cases hr : b.reply with
  | none => exact hr
  | some r => exact apply_ite Body.reply _ _ _

theorem Body.replySent_maps (b : Body) : b.replySent.occMap = b.occMap ∧ b.replySent.beltMap = b.beltMap := by
  unfold Body.replySent
  split
  · exact ⟨rfl, rfl⟩
  · split <;> exact ⟨rfl, rfl⟩

theorem Body.noticeSent_rest (b : Body) : b.noticeSent.occMap = b.occMap ∧ b.noticeSent.beltMap = b.beltMap
    ∧ b.noticeSent.reply = b.reply := by
  unfold Body.noticeSent
  split <;> exact ⟨rfl, rfl, rfl⟩

theorem Body.noticeSent_some {b : Body} {e : QueueEntry} (h : b.queue.find? (·.inSlot) = some e) :
    b.noticeSent = { b with
      queue := b.queue.eraseP (·.inSlot), urgentCount := if e.urgent then min 3 (b.urgentCount + 1) else 0 } := by
  unfold Body.noticeSent
  rw [h]
  rfl

/-- What an acknowledgement leaves of maps, reply and notices, by the owner of the frame. -/
theorem Body.acknowledged_spec {b : Body} {f : SlotFrame} (h : b.slot = some f) :
    b.acknowledged.occMap = (if f.owner = .occMap then none else b.occMap)
    ∧ b.acknowledged.beltMap = (if f.owner = .beltMap then none else b.beltMap)
    ∧ b.acknowledged.reply = (if f.owner = .reply then
        (match b.reply with
          | some r => if r.next + 1 < replyFrames r.content then some { r with next := r.next + 1 } else b.heldReply
          | none => none)
        else b.reply)
    ∧ (∀ e, f.owner = .notice → b.queue.find? (·.inSlot) = some e →
        b.acknowledged.queue = b.queue.eraseP (·.inSlot)
        ∧ b.acknowledged.urgentCount = (if e.urgent then min 3 (b.urgentCount + 1) else 0))
    ∧ (f.owner ≠ .notice → b.acknowledged.queue = b.queue ∧ b.acknowledged.urgentCount = b.urgentCount) := by
  cases ho : f.owner with
  | occMap =>
    rw [Body.acknowledged_occMap h ho]
    exact ⟨rfl, rfl, rfl, (fun _ hn => nomatch hn), fun _ => ⟨rfl, rfl⟩⟩
  | beltMap =>
    rw [Body.acknowledged_beltMap h ho]
    exact ⟨rfl, rfl, rfl, (fun _ hn => nomatch hn), fun _ => ⟨rfl, rfl⟩⟩
  | reply =>
    obtain ⟨hocc, hbelt⟩ := Body.replySent_maps { b with slot := none }
    obtain ⟨hqueue, hcount, _⟩ := Body.replySent_queue { b with slot := none }
    rw [Body.acknowledged_reply h ho]
    exact ⟨hocc, hbelt, Body.replySent_reply _, (fun _ hn => nomatch hn), fun _ => ⟨hqueue, hcount⟩⟩
  | notice =>
    obtain ⟨hocc, hbelt, hreply⟩ := Body.noticeSent_rest { b with slot := none }
    rw [Body.acknowledged_notice h ho]
    refine ⟨hocc, hbelt, hreply, fun e _ he => ?_, fun hn => absurd rfl hn⟩
    rw [Body.noticeSent_some (b := { b with slot := none }) he]
    exact ⟨rfl, rfl⟩

theorem transmitAcked_slot {s : State} {f : SlotFrame} (h : s.body.slot = some f) :
    transmitAcked s = arbitrate (s.onBody Body.acknowledged) := if_pos (Option.isSome_of_eq_some h)

/-! ### Bus-off ends (R159) -/

theorem busRecovers_busOff {s : State} (h : s.body.busOff = true) :
    busRecovers s = arbitrate (s.onBody (fun b => { b with busOff := false })) := if_pos h

/-- Outside bus-off a map that is due leaves no slot empty in RUN and REST. -/
theorem arbitrate_slot_of_occMap {s : State} (hb : s.body.busOff = false) (ha : awake s = true)
    (hm : s.body.occMap.isSome = true) : (arbitrate s).body.slot.isSome = true := by
  obtain ⟨m, hm⟩ := Option.isSome_iff_exists.mp hm
  unfold arbitrate
  rw [hb, ha, Bool.or_false, if_pos rfl]
  split
  · rename_i hslot
    exact hslot
  · show (placeAny s.settings.active s.body).slot.isSome = true
    unfold placeAny
    rw [hm]
    rfl

end Sys2Proof.Machine

namespace Sys2Proof.Certificates

open Sys2Proof.Machine

/-- Settles O51: the owner is told before the arbiter fills the slot, and the arbiter leaves maps, reply, notices and count. -/
theorem transmitterMoves : Obligations.TransmitterMoves := by
  refine fun s => ⟨fun f hslot => ?acknowledged, fun hreset => ?busOff, fun hbus => ?recovers⟩
  case acknowledged =>
    obtain ⟨hocc, hbelt, hreply, hsent, hkept⟩ := Body.acknowledged_spec hslot
    have hquiet := arbitrate_quiet (s.onBody Body.acknowledged)
    obtain ⟨hreplyStands, hnotices, _⟩ := arbitrate_body (s.onBody Body.acknowledged)
    have hcount : (arbitrate (s.onBody Body.acknowledged)).body.urgentCount = s.body.acknowledged.urgentCount := by
      rw [hquiet.body]
      rfl
    refine ⟨_, congrArg Host.Outcome.next (transmitAcked_slot hslot), ?_, ?_, hreplyStands.trans hreply,
      fun e ho he => ?_, fun ho => ?_, (changes_onBody s _).andThen (arbitrate_changes _)⟩
    · rw [hquiet.body]
      exact hocc
    · rw [hquiet.body]
      exact hbelt
    · obtain ⟨hqueue, hurgent⟩ := hsent e ho he
      exact ⟨hnotices.trans (congrArg _ hqueue), hcount.trans hurgent⟩
    · obtain ⟨hqueue, hurgent⟩ := hkept ho
      exact ⟨hnotices.trans (congrArg _ hqueue), hcount.trans hurgent⟩
  case busOff => exact congrArg Host.Outcome.next (outsideReset_apply hreset busGoesOff)
  case recovers =>
    have hquiet := arbitrate_quiet (s.onBody (fun b => { b with busOff := false }))
    obtain ⟨hreply, hnotices, _⟩ := arbitrate_body (s.onBody (fun b => { b with busOff := false }))
    refine ⟨_, congrArg Host.Outcome.next (busRecovers_busOff hbus), ?_, hnotices, ?_, ?_, hreply,
      arbitrate_slot_of_occMap (s := s.onBody (fun b => { b with busOff := false })) rfl,
      (changes_onBody s _).andThen (arbitrate_changes _)⟩
    all_goals rw [hquiet.body]; rfl

end Sys2Proof.Certificates
end

section
/-! PROOFS. The arbiter's order, its choice among the notices, and the bytes it sends (R155, R159, R162, R177). -/

namespace Sys2Proof.Machine

/-! ### The oldest eligible entry of a class (R162) -/

/-- Each entry of the class in the list has an older one with its own subject, in the list or before it. -/
def Forestalled (p : QueueEntry → Bool) (older : List Subject) (l : List QueueEntry) : Prop :=
  ∀ l1 x l2, l = l1 ++ x :: l2 → p x = true → x.notice.subject ∈ older ∨ ∃ y ∈ l1, y.notice.subject = x.notice.subject

theorem Forestalled.head {p : QueueEntry → Bool} {older : List Subject} {x : QueueEntry} {l : List QueueEntry}
    (h : Forestalled p older (x :: l)) : ¬ (p x && !older.contains x.notice.subject) = true := fun hc => by
  obtain ⟨hp, hfree⟩ := Bool.and_eq_true _ _ ▸ hc
  obtain hold | ⟨y, hy, _⟩ := h [] x l rfl hp
  · simp [hold] at hfree
  · exact List.not_mem_nil hy

theorem Forestalled.tail {p : QueueEntry → Bool} {older : List Subject} {x : QueueEntry} {l : List QueueEntry}
    (h : Forestalled p older (x :: l)) : Forestalled p (x.notice.subject :: older) l := by
  intro l1 y l2 hl hp
  obtain hold | ⟨z, hz, hs⟩ := h (x :: l1) y l2 (congrArg (x :: ·) hl) hp
  · exact .inl (List.mem_cons_of_mem _ hold)
  · obtain rfl | hz := List.mem_cons.mp hz
    · exact .inl (hs ▸ List.mem_cons_self)
    · exact .inr ⟨z, hz, hs⟩

/-- The choice passes over entries that are forestalled, and keeps their subjects in mind. -/
theorem chooseEntry_append {p : QueueEntry → Bool} {r : List QueueEntry} : ∀ {older : List Subject} {l : List QueueEntry},
    Forestalled p older l → chooseEntry p older (l ++ r)
      = (chooseEntry p ((l.map (·.notice.subject)).reverse ++ older) r).map (fun x => (x.1, l ++ x.2))
  | _, [], _ => Option.map_id'.symm
  | older, x :: l, h => by
    rw [List.cons_append, chooseEntry, if_neg h.head, chooseEntry_append h.tail, Option.map_map, List.map_cons,
      List.reverse_cons, List.append_assoc]
    rfl

theorem chooseEntry_forestalled {p : QueueEntry → Bool} {q : List QueueEntry} (h : Forestalled p [] q) :
    chooseEntry p [] q = none := by
  have := chooseEntry_append (r := []) h
  rwa [List.append_nil] at this

theorem chooseEntry_eligible {p : QueueEntry → Bool} {e : QueueEntry} (r : List QueueEntry) (hp : p e = true)
    {older : List Subject} (hold : e.notice.subject ∉ older) :
    chooseEntry p older (e :: r) = some (e, { e with inSlot := true } :: r) := by
  rw [chooseEntry, if_pos (by simp [hp, hold])]

section
variable {p : QueueEntry → Bool} {urgent : Bool} {q : List QueueEntry}

/-- The oldest eligible entry of a class is the one chosen. -/
theorem chooseEntry_of_firstEligible (hp : ∀ x, p x = true ↔ x.urgent = urgent) {l r : List QueueEntry} {e : QueueEntry}
    (h : FirstEligible urgent q l e r) : chooseEntry p [] q = some (e, l ++ { e with inSlot := true } :: r) := by
  obtain ⟨rfl, hu, hfirst, hforestalled⟩ := h
  have hold : e.notice.subject ∉ (l.map (·.notice.subject)).reverse ++ [] := fun hm => by
    rw [List.append_nil, List.mem_reverse] at hm
    obtain ⟨x, hx, hs⟩ := List.mem_map.mp hm
    exact hfirst x hx hs
  rw [chooseEntry_append (fun l1 x l2 hl hx => .inr (hforestalled l1 x l2 hl ((hp x).mp hx))),
    chooseEntry_eligible r ((hp e).mpr hu) hold]
  rfl

theorem chooseEntry_of_noneEligible (hp : ∀ x, p x = true ↔ x.urgent = urgent) (h : NoneEligible urgent q) :
    chooseEntry p [] q = none :=
  chooseEntry_forestalled (fun l1 x l2 hl hx => .inr (h l1 x l2 hl ((hp x).mp hx)))

end

theorem isUrgent_iff (x : QueueEntry) : (fun e : QueueEntry => e.urgent) x = true ↔ x.urgent = true := Iff.rfl

theorem isRoutine_iff (x : QueueEntry) : (fun e : QueueEntry => !e.urgent) x = true ↔ x.urgent = false :=
  Bool.not_eq_true' _ ▸ Iff.rfl

/-! ### The choice between the classes (R162) -/

/-- URGENT before ROUTINE, and ROUTINE first after three URGENT ones in a row. -/
theorem chooseNotice_eq (b : Body) : chooseNotice b
    = if b.urgentCount = 3 then
        (chooseEntry (fun e => !e.urgent) [] b.queue).or (chooseEntry (fun e => e.urgent) [] b.queue)
      else (chooseEntry (fun e => e.urgent) [] b.queue).or (chooseEntry (fun e => !e.urgent) [] b.queue) := by
  unfold chooseNotice
  dsimp only
  generalize chooseEntry (fun e => !e.urgent) [] b.queue = routine
  generalize chooseEntry (fun e => e.urgent) [] b.queue = urgent
  split_ifs
  · cases routine <;> cases urgent <;> rfl
  · cases urgent <;> rfl

section
variable {b : Body} {l r : List QueueEntry} {e : QueueEntry}

theorem chooseNotice_urgent (h : FirstEligible true b.queue l e r)
    (hc : b.urgentCount ≠ 3 ∨ NoneEligible false b.queue) :
    chooseNotice b = some (e, l ++ { e with inSlot := true } :: r) := by
  rw [chooseNotice_eq, chooseEntry_of_firstEligible isUrgent_iff h]
  obtain hc | hc := hc
  · rw [if_neg hc, Option.some_or]
  · rw [chooseEntry_of_noneEligible isRoutine_iff hc, Option.none_or, Option.some_or, ite_self]

theorem chooseNotice_routine (h : FirstEligible false b.queue l e r)
    (hc : b.urgentCount = 3 ∨ NoneEligible true b.queue) :
    chooseNotice b = some (e, l ++ { e with inSlot := true } :: r) := by
  rw [chooseNotice_eq, chooseEntry_of_firstEligible isRoutine_iff h]
  obtain hc | hc := hc
  · rw [if_pos hc, Option.some_or]
  · rw [chooseEntry_of_noneEligible isUrgent_iff hc, Option.none_or, Option.some_or, ite_self]

theorem chooseNotice_nil (h : b.queue = []) : chooseNotice b = none := by
  rw [chooseNotice_eq, h]
  exact ite_self _

end

/-! ### The bytes of a reply's frame (R177) -/

/-- The first bytes of a list, padded with zeros to a number of them. -/
theorem take_append_zeros (L : List Byte) (n : Nat) :
    L.take n ++ List.replicate (n - (L.take n).length) 0 = (List.range n).map (fun i => L.getD i 0) := by
  refine List.ext_getElem (by simp) (fun i _ hi => ?_)
  rw [List.getElem_map, List.getElem_range, List.getElem_append]
  split
  · rename_i hl
    rw [List.getElem_take, List.getD_eq_getElem]
  · rename_i hl
    rw [List.length_map, List.length_range] at hi
    rw [List.length_take] at hl
    rw [List.getElem_replicate, List.getD_eq_default _ _ (by omega)]

theorem replyFrameBytes_eq (r : Reply) : replyFrameBytes r = [r.kind, (BitVec.ofNat 4 r.next ++ r.code : BitVec 8)]
    ++ (List.range 6).map (fun i => r.content.getD (6 * r.next + i) 0) := by
  unfold replyFrameBytes
  dsimp only
  rw [List.append_assoc, take_append_zeros]
  simp only [List.getD_eq_getElem?_getD, List.getElem?_drop]

/-! ### The arbiter by the device state (R155, R159) -/

section
variable {s : State}

theorem arbitrate_idle (h : s.body.slot.isSome = true ∨ s.body.busOff = true ∨ asleep s = true) : arbitrate s = s := by
  unfold arbitrate
  obtain h | h | h := h
  · rw [h]
    rfl
  · rw [h, Bool.or_true, if_pos rfl]
  · unfold asleep at h
    obtain ⟨hd, hw⟩ := Bool.and_eq_true _ _ ▸ h
    have hd := beq_iff_eq.mp hd
    have hw := Option.isNone_iff_eq_none.mp hw
    simp [awake, settling, hd, hw]

variable (hs : s.body.slot = none) (hb : s.body.busOff = false)
include hs hb

theorem arbitrate_awake (ha : awake s = true) : arbitrate s = s.onBody (placeAny s.settings.active) := by
  unfold arbitrate
  rw [hs, hb, if_neg (by decide), if_pos ha]

/-- In STARTING and in the wake settle a reply alone is sent. -/
theorem arbitrate_starting (ha : awake s = false) (hn : asleep s = false) :
    arbitrate s = s.onBody (placeReply s.settings.active) := by
  have hd : (s.monitor.device == .starting || settling s) = true := by
    unfold awake at ha
    unfold asleep at hn
    unfold settling
    cases hd : s.monitor.device with
    | starting => rfl
    | sleep =>
      rw [hd] at hn
      exact Option.isNone_eq_false_iff.mp hn
    | run | rest =>
      rw [hd] at ha
      nomatch ha
  unfold arbitrate
  rw [hs, hb, if_neg (by decide), if_neg (ne_true_of_eq_false ha), if_pos hd]

end

/-! ### What is placed (R159) -/

section
variable {b : Body} (g : Groups)

theorem placeAny_occMap {m : List Byte} (h : b.occMap = some m) : placeAny g b = placeFrame g .occMap m b := by
  unfold placeAny
  rw [h]

theorem placeAny_beltMap {m : List Byte} (ho : b.occMap = none) (h : b.beltMap = some m) :
    placeAny g b = placeFrame g .beltMap m b := by
  unfold placeAny
  rw [ho, h]

theorem placeAny_reply {r : Reply} (ho : b.occMap = none) (hb : b.beltMap = none) (h : b.reply = some r) :
    placeAny g b = placeFrame g .reply (replyFrameBytes r) b := by
  unfold placeAny
  rw [ho, hb, h]

theorem placeAny_notice (ho : b.occMap = none) (hb : b.beltMap = none) (hr : b.reply = none) :
    placeAny g b = match chooseNotice b with
      | some x => placeFrame g .notice (noticeBytes x.1.notice) { b with queue := x.2 }
      | none => b := by
  unfold placeAny
  rw [ho, hb, hr]
  cases chooseNotice b <;> rfl

theorem placeReply_some {r : Reply} (h : b.reply = some r) :
    placeReply g b = placeFrame g .reply (replyFrameBytes r) b := by
  unfold placeReply
  rw [h]

theorem placeReply_none (h : b.reply = none) : placeReply g b = b := by
  unfold placeReply
  rw [h]

end

end Sys2Proof.Machine

namespace Sys2Proof.Certificates

open Sys2Proof.Machine

/-- Settles O50: an arbiter that may send places the first frame in the order; a notice is the one `chooseNotice` names. -/
theorem arbiterChooses : Obligations.ArbiterChooses := by
  intro s
  dsimp only
  refine ⟨arbitrate_idle, fun hs hb ha => ?awake, fun hs hb ha hn => ?starting⟩
  case awake =>
    have harb := arbitrate_awake hs hb ha
    refine ⟨fun m ho => ?_, fun m ho hm => ?_, fun r ho hm hr => ?_, fun ho hm hr => ?notices⟩
    · rw [harb, State.onBody, placeAny_occMap _ ho]
      rfl
    · rw [harb, State.onBody, placeAny_beltMap _ ho hm]
      rfl
    · rw [harb, State.onBody, placeAny_reply _ ho hm hr, replyFrameBytes_eq]
      rfl
    case notices =>
      refine ⟨fun l e r hfirst hc => ?_, fun l e r hfirst hc => ?_, fun hq => ?_⟩
      · rw [harb, State.onBody, placeAny_notice _ ho hm hr, chooseNotice_urgent hfirst hc]
        rfl
      · rw [harb, State.onBody, placeAny_notice _ ho hm hr, chooseNotice_routine hfirst hc]
        rfl
      · rw [harb, State.onBody, placeAny_notice _ ho hm hr, chooseNotice_nil hq]
  case starting =>
    have harb := arbitrate_starting hs hb ha hn
    refine ⟨fun r hr => ?_, fun hr => ?_⟩
    · rw [harb, State.onBody, placeReply_some _ hr, replyFrameBytes_eq]
      rfl
    · rw [harb, State.onBody, placeReply_none _ hr]

end Sys2Proof.Certificates
end

section
/-! PROOFS. The completion of a settings write: what the written value's effects leave, the reply, and the FAULT notice of
a failed one (R164, R170). -/

namespace Sys2Proof.Machine

/-! ### What the effects of a written value leave -/

/-- From `s` to `t` no value of the settings, no configuration state, no waiting reply and no filtered load moves: of the
Settings Unit the marks and conditions of the positions alone. -/
structure WriteStands (s t : State) : Prop where
  settings : t.settings = { s.settings with
    posFault := t.settings.posFault, uncalibrated := t.settings.uncalibrated, gainWritten := t.settings.gainWritten }
  reply    : t.body.reply = s.body.reply
  filtered : ∀ p, (t.load.get p).filtered = (s.load.get p).filtered

theorem WriteStands.refl (s : State) : WriteStands s s := ⟨rfl, rfl, fun _ => rfl⟩

theorem WriteStands.trans {s t u : State} (h1 : WriteStands s t) (h2 : WriteStands t u) : WriteStands s u :=
  ⟨by rw [h2.settings, h1.settings], h2.reply.trans h1.reply, fun p => (h2.filtered p).trans (h1.filtered p)⟩

/-- A change that leaves the settings, the load states and the Body Port. -/
theorem ChangesOnly.writeStands {bs : List Block} {s t : State} (h : ChangesOnly bs s t)
    (hs : bs.contains Block.settings = false := by rfl) (hl : bs.contains Block.load = false := by rfl)
    (hb : bs.contains Block.body = false := by rfl) : WriteStands s t :=
  ⟨by rw [h.settings hs], by rw [h.body hb], fun p => by rw [h.load hl]⟩

/-- A change that leaves the settings and the load states, and of the Body Port moves queue, RESYNC and slot alone. -/
theorem ChangesOnly.writeStands_quiet {bs : List Block} {s t : State} (h : ChangesOnly bs s t) (hq : Quiet s t)
    (hs : bs.contains Block.settings = false := by rfl) (hl : bs.contains Block.load = false := by rfl) : WriteStands s t :=
  ⟨by rw [h.settings hs], by rw [hq.body], fun p => by rw [h.load hl]⟩

theorem writeStands_ite {s t u : State} {c : Prop} [Decidable c] (h1 : WriteStands s t) (h2 : WriteStands s u) :
    WriteStands s (if c then t else u) := by
  split
  · exact h1
  · exact h2

theorem writeStands_forEach {α : Type} {f : α → State → State} (h : ∀ a s, WriteStands s (f a s)) :
    ∀ (l : List α) (s : State), WriteStands s (forEach l f s)
  | [], s => WriteStands.refl s
  | a :: l, s => (h a s).trans (writeStands_forEach h l (f a s))

theorem evaluateAllLists_writeStands (s : State) : WriteStands s (evaluateAllLists s) :=
  (evaluateAllLists_changes s).writeStands_quiet (evaluateAllLists_quiet s)

theorem anchorsCleared_writeStands (b : State) (p : Pos) (s : State) : WriteStands s (anchorsCleared b p s) :=
  (anchorsCleared_changes b p s).writeStands_quiet (anchorsCleared_quiet b p s)

theorem sensorsChanged_writeStands (b : State) (p : Pos) (s : State) : WriteStands s (sensorsChanged b p s) := by
  have hanchors := anchorsCleared_writeStands b p s
  obtain ⟨h1, h2⟩ | ⟨h1, h2⟩ | h := sensorsChanged_cases b p s
  · rw [sensorsChanged_removed h1 h2]
    exact (hanchors.trans ((coilRemoved_changes p _).writeStands_quiet (coilRemoved_quiet p _))).trans
      (evaluateEvidence_changes _ _).writeStands
  · rw [sensorsChanged_added h1 h2]
    exact hanchors.trans (coilAdded_changes p _).writeStands
  · rw [sensorsChanged_same h]
    exact hanchors

theorem gainWritten_writeStands (p : Pos) (s : State) : WriteStands s (gainWritten p s) := by
  have h := gainWritten_changes p s
  refine ⟨?_, by rw [h.body], fun q => by rw [h.load]⟩
  rw [gainWritten_eq]
  split
  · split
    · rw [(evaluateEach_changes _ _).settings]
      rfl
    · rfl
  · rfl

theorem revalidate_writeStands (p : Pos) (s : State) : WriteStands s (revalidate p s) := by
  have h := revalidate_changes p s
  obtain ⟨hsettings, _⟩ := revalidate_settings p s
  exact ⟨by rw [hsettings], by rw [h.body], fun q => by rw [h.load]⟩

/-- A position that becomes stale keeps its filtered load (R56). -/
theorem staleAfterWrite_writeStands (p : Pos) (s : State) : WriteStands s (staleAfterWrite p s) := by
  have h := staleAfterWrite_changes p s
  refine ⟨by rw [h.settings], by rw [h.body], fun q => ?_⟩
  rw [staleAfterWrite_load]
  split_ifs <;> rfl

/-- A position whose row enters ONLINE keeps its filtered load until a first sample (R12, R59). -/
theorem enterOnline_writeStands (r : Row) (s : State) : WriteStands s (enterOnline r s) := by
  refine ⟨by rw [(enterOnline_changes r s).settings], by rw [(enterOnline_quiet r s).body], fun p => ?_⟩
  rw [enterOnline_load]
  split <;> rfl

theorem checkTableReplaced_writeStands (s : State) : WriteStands s (checkTableReplaced s) := by
  rw [checkTableReplaced_eq]
  refine (changes_onLine s _).writeStands.trans (writeStands_forEach (fun r t => ?_) _ _)
  exact writeStands_ite ((walkRestarted_changes r t).writeStands.trans (enterOnline_writeStands r _))
    (walkRestarted_changes r t).writeStands

theorem positionEffects_writeStands (b : State) (p : Pos) (i : Nat) (s : State) :
    WriteStands s (positionEffects b p i s) := by
  by_cases h19 : i = 19
  · rw [h19, positionEffects_sensors]
    exact (sensorsChanged_writeStands b p s).trans (revalidate_writeStands p _)
  · by_cases hg : 8 ≤ i ∧ i ≤ 15
    · rw [positionEffects_gain b p hg]
      exact (gainWritten_writeStands p s).trans (revalidate_writeStands p _)
    · rw [positionEffects_other b p h19 hg]
      exact revalidate_writeStands p s

theorem tableEffects_writeStands (g i : Nat) (s : State) : WriteStands s (tableEffects g i s) := by
  have h : WriteStands s (if g = 19 then checkTableReplaced s else s) :=
    writeStands_ite (checkTableReplaced_writeStands s) (WriteStands.refl s)
  exact writeStands_ite (h.trans (evaluateAllLists_writeStands _)) h

theorem writeEffects_writeStands (b : State) (g i : Nat) (s : State) : WriteStands s (writeEffects b g i s) := by
  unfold writeEffects
  refine WriteStands.trans ?_ ((writeStands_forEach staleAfterWrite_writeStands _ _).trans (tableEffects_writeStands g i _))
  split
  · exact positionEffects_writeStands b _ i s
  · exact WriteStands.refl s

/-! ### The reply (R164) -/

theorem sendWriteReply_reply (r : Reply) (s : State) :
    (s.body.reply = none → (sendWriteReply r s).body.reply = some r)
    ∧ ∀ r', s.body.reply = some r' →
      (sendWriteReply r s).body.reply = some r' ∧ (sendWriteReply r s).body.heldReply = some r := by
  refine ⟨fun h => ?_, fun r' h => ?_⟩
  · have hb : (sendWriteReply r s).body = { s.body with reply := some r } := if_neg (by rw [h]; exact Bool.false_ne_true)
    rw [hb]
  · have hb : (sendWriteReply r s).body = { s.body with heldReply := some r } := if_pos (Option.isSome_of_eq_some h)
    rw [hb]
    exact ⟨h, rfl⟩

/-- A write's reply waits, or is held behind the one that waits, and stands through a quiet end of the event (R164). -/
theorem writeReply_waits {s u t : State} (r : Reply) (h : u.body.reply = s.body.reply) (hq : Quiet (sendWriteReply r u) t) :
    (s.body.reply = none → t.body.reply = some r)
    ∧ ∀ r', s.body.reply = some r' → t.body.reply = some r' ∧ t.body.heldReply = some r := by
  obtain ⟨hnone, hsome⟩ := sendWriteReply_reply r u
  rw [hq.body, ← h]
  exact ⟨hnone, hsome⟩

theorem writeClosed_reply {s u : State} (r : Reply) (h : u.body.reply = s.body.reply) :
    (s.body.reply = none → (writeClosed r u).body.reply = some r)
    ∧ ∀ r', s.body.reply = some r' → (writeClosed r u).body.reply = some r' ∧ (writeClosed r u).body.heldReply = some r :=
  writeReply_waits (u := publish u) r (by rw [(publish_quiet u).body]; exact h) (endEvent_quiet _)

/-! ### The value stands (R170) -/

theorem writeClosed_filtered (r : Reply) (s : State) (p : Pos) :
    ((writeClosed r s).load.get p).filtered = (s.load.get p).filtered := by
  rw [(writeClosed_changes r s).load]

theorem written_stands (w : WriteInFlight) (s : State) :
    WriteStands (valueStands w s) (writeEffects s (idGroup w.id) (idIndex w.id) (valueStands w s)) :=
  writeEffects_writeStands s _ _ _

theorem written_settings (w : WriteInFlight) (s : State) (r : Reply) :
    let u := (writeClosed r (writeEffects s (idGroup w.id) (idIndex w.id) (valueStands w s))).settings
    u.active = setParam s.settings.active w.id w.value ∧ u.config = .configured ∧ u.write = none
      ∧ u.store = imageAfterWrite s w := by
  dsimp only
  rw [(writeClosed_changes r _).settings, (written_stands w s).settings]
  exact ⟨rfl, rfl, rfl, rfl⟩

/-! ### A failed write (R170) -/

/-- The reason with which an outcome makes the store inconsistent; a store that did not acknowledge makes none. -/
def faultReason : WriteOutcome → Option Nat
  | .headerFailed => some 9
  | .readbackMismatch => some 10
  | .notAcknowledged | .readBackAsWritten => none

/-- The reply of a failed write: the value that stands (R170; assumption 26). -/
def failureReply (w : WriteInFlight) (s : State) : Reply :=
  ⟨kindWriteParam, replyWriteFailed, bytesOf16 w.id ++ bytesOf16 (paramValue s.settings.active w.id), 0⟩

/-- The write is given up, the store holding what a failure leaves in it. -/
def writeDropped (w : WriteInFlight) (s : State) : State :=
  s.onSettings (fun u => { u with write := none, store := Config.storeAfterFailure u.store (imageAfterWrite s w) })

/-- The write is given up and the store is inconsistent. -/
def storeBroken (w : WriteInFlight) (s : State) : State :=
  (writeDropped w s).onSettings (fun u => { u with config := .storeInconsistent })

/-- A failed write before its reply: with a reason, STORE_INCONSISTENT is entered, and noticed at the entry. -/
def failureNoticed (w : WriteInFlight) (reason : Option Nat) (s : State) : State :=
  match reason with
  | none => writeDropped w s
  | some n =>
    if s.settings.config = .storeInconsistent then storeBroken w s
    else notify (storeNotice (idGroup w.id) s.settings.config n) (storeBroken w s)

theorem writeFails_eq (w : WriteInFlight) (reason : Option Nat) (s : State) :
    writeFails w reason s = arbitrate (sendWriteReply (failureReply w s) (failureNoticed w reason s)) := by
  cases reason <;> rfl

theorem exec_writeFails {s : State} {w : WriteInFlight} (h : s.settings.write = some w) {o : WriteOutcome}
    (ho : o ≠ .readBackAsWritten) : exec (.writeCompletion o) s = .next (writeFails w (faultReason o) s) := by
  show Host.Outcome.next (writeCompletes o s) = _
  unfold writeCompletes
  rw [h]
  cases o with
  | readBackAsWritten => exact absurd rfl ho
  | notAcknowledged | headerFailed | readbackMismatch => rfl

theorem failureNoticed_settings (w : WriteInFlight) (reason : Option Nat) (s : State) :
    (failureNoticed w reason s).settings.active = s.settings.active ∧ (failureNoticed w reason s).settings.write = none
    ∧ (failureNoticed w reason s).settings.config
      = if reason = none then s.settings.config else .storeInconsistent := by
  cases reason with
  | none => exact ⟨rfl, rfl, rfl⟩
  | some n =>
    unfold failureNoticed
    dsimp only
    split <;> exact ⟨rfl, rfl, rfl⟩

theorem failureNoticed_body {w : WriteInFlight} {reason : Option Nat} {s : State}
    (h : reason = none ∨ s.settings.config = .storeInconsistent) : (failureNoticed w reason s).body = s.body := by
  obtain rfl | h := h
  · rfl
  · cases reason with
    | none => rfl
    | some n =>
      rw [show failureNoticed w (some n) s = storeBroken w s from if_pos h]
      rfl

theorem failureNoticed_reply (w : WriteInFlight) (reason : Option Nat) (s : State) :
    (failureNoticed w reason s).body.reply = s.body.reply := by
  cases reason with
  | none => rfl
  | some n =>
    unfold failureNoticed
    dsimp only
    split
    · rfl
    · rw [(notify_quiet _ _).body]
      rfl

/-- The entry to STORE_INCONSISTENT makes a notice, which waits where FAULT is URGENT and the queue has room (R161, R170). -/
theorem failureNoticed_waits {w : WriteInFlight} {n : Nat} {s : State} (hc : s.settings.config ≠ .storeInconsistent)
    (hl : s.body.queue.length < 24) (hk : kindClass s.settings.active 8 = 1) :
    ∃ e ∈ (failureNoticed w (some n) s).body.queue,
      e.urgent = true ∧ e.notice = storeNotice (idGroup w.id) s.settings.config n := by
  rw [show failureNoticed w (some n) s = notify (storeNotice (idGroup w.id) s.settings.config n) (storeBroken w s) from
    if_neg hc]
  exact notify_waits (s := storeBroken w s) (noticeUrgent_of_kindClass hk) hl

theorem writeFails_settings (w : WriteInFlight) (reason : Option Nat) (s : State) :
    (writeFails w reason s).settings = (failureNoticed w reason s).settings := by
  rw [writeFails_eq, (arbitrate_changes _).settings, (sendWriteReply_changes _ _).settings]

theorem writeFails_reply (w : WriteInFlight) (reason : Option Nat) (s : State) :
    (s.body.reply = none → (writeFails w reason s).body.reply = some (failureReply w s))
    ∧ ∀ r, s.body.reply = some r →
      (writeFails w reason s).body.reply = some r ∧ (writeFails w reason s).body.heldReply = some (failureReply w s) := by
  rw [writeFails_eq]
  exact writeReply_waits _ (failureNoticed_reply w reason s) (arbitrate_quiet _)

/-- The reply and the arbiter leave the notices. -/
theorem writeFails_notices (w : WriteInFlight) (reason : Option Nat) (s : State) :
    (writeFails w reason s).body.queue.map (·.notice) = (failureNoticed w reason s).body.queue.map (·.notice) := by
  obtain ⟨_, hnotices, _⟩ := arbitrate_body (sendWriteReply (failureReply w s) (failureNoticed w reason s))
  rw [writeFails_eq, hnotices, sendWriteReply_queue]

theorem writeFails_waits {w : WriteInFlight} {n : Nat} {s : State} (hc : s.settings.config ≠ .storeInconsistent)
    (hl : s.body.queue.length < 24) (hk : kindClass s.settings.active 8 = 1) :
    Waits (writeFails w (some n) s).body (storeNotice (idGroup w.id) s.settings.config n) :=
  (waits_congr (writeFails_notices w (some n) s) _).mpr (waits_of_urgent (failureNoticed_waits hc hl hk))

end Sys2Proof.Machine

namespace Sys2Proof.Certificates

open Sys2Proof.Machine

/-- Settles O47: the value's effects leave the values, the reply and the filtered loads (`WriteStands`); a failure moves the
Settings Unit and makes the one notice before the reply. -/
theorem writeCompletes : Obligations.WriteCompletes := by
  refine fun s w hw => ⟨?written, fun o ho => ?failed⟩
  case written =>
    obtain ⟨hactive, hconfig, hwrite, hstore⟩ := written_settings w s (writeReply w)
    have hstands := written_stands w s
    obtain ⟨hnone, hsome⟩ := writeClosed_reply (s := s) (writeReply w) hstands.reply
    exact ⟨_, exec_writeSucceeds hw, hactive, hconfig, hwrite, hstore, hnone, hsome,
      fun p => (writeClosed_filtered _ _ p).trans (hstands.filtered p), writeSucceeds_changes w s⟩
  case failed =>
    obtain ⟨hactive, hwrite, hconfig⟩ := failureNoticed_settings w (faultReason o) s
    obtain ⟨hnone, hsome⟩ := writeFails_reply w (faultReason o) s
    rw [← writeFails_settings] at hactive hwrite hconfig
    have hacknowledged : faultReason o = none ↔ o = .notAcknowledged := by
      cases o with
      | readBackAsWritten => exact absurd rfl ho
      | notAcknowledged => exact ⟨fun _ => rfl, fun _ => rfl⟩
      | headerFailed | readbackMismatch => exact ⟨nofun, nofun⟩
    refine ⟨_, exec_writeFails hw ho, hactive, hwrite, hconfig.trans (if_congr hacknowledged rfl rfl), hnone, hsome,
      fun hfault hentry hroom hurgent => ?_, fun hquiet => ?_, writeFails_changes w _ s⟩
    · cases o with
      | readBackAsWritten => exact absurd rfl ho
      | notAcknowledged => exact absurd rfl hfault
      | headerFailed | readbackMismatch => exact writeFails_waits hentry hroom hurgent
    · rw [writeFails_notices, failureNoticed_body (hquiet.imp_left hacknowledged.mpr)]

end Sys2Proof.Certificates
end

section
/-! PROOFS. The lines of the Monitor: raw IGN, the supply against 7.0 V and the seconds count (R171, R173). -/

namespace Sys2Proof.Machine

/-! ### The raw IGN line (R171) -/

theorem ignLineChanges_awake (high : Bool) {s : State} (hr : s.monitor.inReset = false) (hd : s.monitor.device ≠ .sleep) :
    ignLineChanges high s = { s with
      pins := { s.pins with ignLine := high }, monitor := { s.monitor with ignDebounce := some 50 } } := by
  have hsleep : ¬ (s.monitor.device == .sleep) = true := by simpa using hd
  unfold ignLineChanges
  rw [hr, if_neg Bool.false_ne_true, if_neg hsleep]
  rfl

/-! ### The supply (R173) -/

theorem Supply.fall_of_ne_normal {u : Supply} (h : u ≠ .normal) : u.fall = u := by
  cases u with
  | normal => exact absurd rfl h
  | dipping n => rfl
  | low => rfl

theorem supplyEdge_fell (s : State) :
    supplyEdge .fellBelow s = { s with monitor := { s.monitor with supply := s.monitor.supply.fall } } := rfl

theorem setHold_inReset {s : State} (h : s.monitor.inReset = true) :
    setHold s = { s with monitor := { s.monitor with supply := .low } } := by
  unfold setHold
  rw [h]
  rfl

theorem clearHold_inReset {s : State} (h : s.monitor.inReset = true) :
    clearHold s = { s with monitor := { s.monitor with supply := .normal } } := by
  unfold clearHold
  rw [h]
  rfl

/-! ### The seconds count (R171) -/

/-- The count wraps as 32 bits do. -/
theorem seconds_succ (n : BitVec 32) : n + 1 = BitVec.ofNat 32 (n.toNat + 1) := by
  rw [BitVec.ofNat_add, BitVec.ofNat_toNat, BitVec.setWidth_eq]
  rfl

theorem secondsTick_eq (s : State) : secondsTick s = { s with
    monitor := { s.monitor with seconds := BitVec.ofNat 32 (s.monitor.seconds.toNat + 1) } } := by
  rw [← seconds_succ]
  rfl

end Sys2Proof.Machine

namespace Sys2Proof.Certificates

open Sys2Proof.Machine

/-- Settles O8: in the states named each command is one update of the Monitor, and the raw IGN line's of the lines too. -/
theorem monitorLines : Obligations.MonitorLines := by
  intro s
  refine ⟨fun high hr hd => ?ign, fun hn => ?fell, fun hn => ?below, rfl, fun hr => ⟨?set, ?cleared⟩,
    fun hr => ?seconds⟩
  case ign => exact congrArg Host.Outcome.next (ignLineChanges_awake high hr hd)
  case fell =>
    refine congrArg Host.Outcome.next ((supplyEdge_fell s).trans ?_)
    rw [hn]
    rfl
  case below =>
    refine congrArg Host.Outcome.next ((supplyEdge_fell s).trans ?_)
    rw [Supply.fall_of_ne_normal hn]
  case set => exact congrArg Host.Outcome.next (setHold_inReset hr)
  case cleared => exact congrArg Host.Outcome.next (clearHold_inReset hr)
  case seconds => exact congrArg Host.Outcome.next ((outsideReset_apply hr _).trans (secondsTick_eq s))

end Sys2Proof.Certificates
end

section
/-! PROOFS. A row that falls and a failed exchange move the rest timer at most (R30, R33, R36, R171). -/

namespace Sys2Proof.Machine

theorem positionsFall_quiet (r : Row) (w : Bool) (b s : State) : Quiet s (positionsFall r w b s) :=
  (quiet_ite (positionsFallen_quiet r s) (Quiet.refl s)).andThen (evaluateRow_changes r b _).quiet

theorem enterFailed_quiet (r : Row) (c : RowCause) (s : State) : Quiet s (enterFailed r c s) :=
  ((((abandonRead_changes r s).quiet.andThen (changes_onRow _ r _).quiet).andThen (notify_quiet _ _)).andThen
    (notify_quiet _ _)).andThen (positionsFall_quiet r _ s _)

theorem enterRecovering_quiet (r : Row) (c : RowCause) (s : State) : Quiet s (enterRecovering r c s) :=
  have h : Quiet s (s.onRow r (fun x => { x with recovery := min 3 (x.recovery + 1) })) := (changes_onRow s r _).quiet
  quiet_ite (h.andThen (enterFailed_quiet r _ _))
    ((((h.andThen (abandonRead_changes r _).quiet).andThen (changes_onRow _ r _).quiet).andThen
      (notify_quiet _ _)).andThen (positionsFall_quiet r _ s _))

/-- A change of the row's record, after which the row may go to RECOVERING. -/
theorem recoverAfter_quiet (r : Row) (c : RowCause) (f : RowRecord → RowRecord) {s u : State} {b : Prop} [Decidable b]
    (hu : Quiet s u) : Quiet s (if b then enterRecovering r c (s.onRow r f) else u) :=
  quiet_ite ((changes_onRow s r f).quiet.andThen (enterRecovering_quiet r c _)) hu

theorem attemptFails_quiet (r : Row) (s : State) : Quiet s (attemptFails r s) :=
  recoverAfter_quiet r _ _ ((changes_onRow s r _).quiet.andThen (changes_onRow _ r _).quiet)

theorem exchangeFails_quiet (x : Exchange) (s : State) : Quiet s (exchangeFails x s) := by
  have hattempt := quiet_ite (c := x.detached = true) (Quiet.refl s) (attemptFails_quiet x.row s)
  unfold exchangeFails
  split
  · exact recoverAfter_quiet x.row _ _ (changes_onRow s x.row _).quiet
  · exact recoverAfter_quiet x.row _ _ (changes_onRow s x.row _).quiet
  · exact hattempt
  · exact hattempt
  · exact Quiet.refl s

end Sys2Proof.Machine
end

section
/-! PROOFS. What the expiries of a tick leave as the count has set it, and the idle step (R171, R173; assumptions 1, 6). -/

namespace Sys2Proof.Machine

/-- The 1 ms base, the milliseconds and the seconds, the straps, the lines and the queue. -/
structure TimeBase where
  now       : Nat
  subSecond : Nat
  seconds   : BitVec 32
  straps    : Straps
  pins      : Pins
  pending   : List Instr

def State.timeBase (s : State) : TimeBase :=
  ⟨s.monitor.now, s.monitor.subSecond, s.monitor.seconds, s.straps, s.pins, s.pending⟩

/-- The seconds advance with the tick that completes a second. -/
def TimeBase.countSecond (b : TimeBase) : TimeBase :=
  { b with seconds := if b.subSecond = 0 then b.seconds + 1 else b.seconds }

/-! ### Composing operations that leave the time base -/

section
variable {bs : List Block} {s t : State}

/-- A change outside straps, lines and queue, by which the Monitor's counts stand. -/
theorem ChangesOnly.timeBase_of_counts (h : ChangesOnly bs s t) (hn : t.monitor.now = s.monitor.now)
    (hm : t.monitor.subSecond = s.monitor.subSecond) (hc : t.monitor.seconds = s.monitor.seconds)
    (hs : bs.contains Block.straps = false := by rfl) (hp : bs.contains Block.pins = false := by rfl)
    (hq : bs.contains Block.pending = false := by rfl) : t.timeBase = s.timeBase := by
  unfold State.timeBase
  rw [hn, hm, hc, h.straps hs, h.pins hp, h.pending hq]

theorem ChangesOnly.timeBase (h : ChangesOnly bs s t) (hm : bs.contains Block.monitor = false := by rfl)
    (hs : bs.contains Block.straps = false := by rfl) (hp : bs.contains Block.pins = false := by rfl)
    (hq : bs.contains Block.pending = false := by rfl) : t.timeBase = s.timeBase :=
  have e := h.monitor hm
  h.timeBase_of_counts (congrArg Monitor.now e) (congrArg Monitor.subSecond e) (congrArg Monitor.seconds e) hs hp hq

/-- Of the Monitor a quiet event restarts the rest timer at most. -/
theorem Quiet.timeBase (hq : Quiet s t) (h : ChangesOnly bs s t) (hs : bs.contains Block.straps = false := by rfl)
    (hp : bs.contains Block.pins = false := by rfl) (hw : bs.contains Block.pending = false := by rfl) :
    t.timeBase = s.timeBase :=
  have e := hq.monitor_rest
  h.timeBase_of_counts (by rw [e]) (by rw [e]) (by rw [e]) hs hp hw

end

theorem timeBase_ite {s t u : State} {c : Prop} [Decidable c] (h1 : t.timeBase = s.timeBase)
    (h2 : u.timeBase = s.timeBase) : (if c then t else u).timeBase = s.timeBase := by
  split
  · exact h1
  · exact h2

theorem timeBase_forEach {α : Type} {f : α → State → State} (h : ∀ a s, (f a s).timeBase = s.timeBase) :
    ∀ (l : List α) (s : State), (forEach l f s).timeBase = s.timeBase
  | [], _ => rfl
  | a :: l, s => (timeBase_forEach h l (f a s)).trans (h a s)

theorem timeBase_whenTrue {c : State → Bool} {f : State → State} (h : ∀ t, (f t).timeBase = t.timeBase) (s : State) :
    (whenTrue c f s).timeBase = s.timeBase := timeBase_ite (h s) rfl

theorem endWithBatch_timeBase (s : State) : (endWithBatch s).timeBase = s.timeBase :=
  (endWithBatch_quiet s).timeBase (endWithBatch_changes s)

/-! ### IGN (R171) -/

/-- A line that is told its own level stays as it is. -/
theorem timeBase_ignLine {s : State} {b : Bool} (h : s.pins.ignLine = b) (f : Monitor → Monitor)
    (hn : (f s.monitor).now = s.monitor.now := by rfl) (hm : (f s.monitor).subSecond = s.monitor.subSecond := by rfl)
    (hc : (f s.monitor).seconds = s.monitor.seconds := by rfl) :
    ((s.onPins (fun u => { u with ignLine := b })).onMonitor f).timeBase = s.timeBase := by
  subst h
  exact (changes_onMonitor s f).timeBase_of_counts hn hm hc

theorem ignAsserts_timeBase {s : State} (h : s.pins.ignLine = true) : (ignAsserts s).timeBase = s.timeBase :=
  timeBase_ite (timeBase_ignLine h _)
    ((((endEvent_changes _).timeBase.trans (evaluateAllLists_changes _).timeBase).trans
      (changes_onBody _ _).timeBase).trans
      (((changes_onMonitor _ _).timeBase_of_counts rfl rfl rfl).trans (timeBase_ignLine h _)))

theorem ignDeasserts_timeBase {s : State} (h : s.pins.ignLine = false) : (ignDeasserts s).timeBase = s.timeBase :=
  timeBase_ite (timeBase_ignLine h _)
    ((((endEvent_changes _).timeBase.trans (remIgnOff_changes _).timeBase).trans
      (changes_onBody _ _).timeBase).trans
      (((changes_onMonitor _ _).timeBase_of_counts rfl rfl rfl).trans (timeBase_ignLine h _)))

/-- The debounced value takes the line's level, and the line stands (R171). -/
theorem ignSettles_timeBase (s : State) : (ignSettles s).timeBase = s.timeBase := by
  unfold ignSettles
  split
  · exact (changes_onMonitor s _).timeBase_of_counts rfl rfl rfl
  · split
    case isTrue h => exact ignAsserts_timeBase h
    case isFalse h => exact ignDeasserts_timeBase (Bool.eq_false_of_not_eq_true h)

/-! ### HOLD, sleep and wake (R171 to R173) -/

theorem setHold_timeBase (s : State) : (setHold s).timeBase = s.timeBase :=
  have hlow : ∀ t : State, (t.onMonitor (fun m => { m with supply := .low })).timeBase = t.timeBase := fun _ => rfl
  timeBase_ite ((abandonAll_changes _).timeBase.trans (hlow s)) (hlow s)

theorem restExpires_timeBase (s : State) : (restExpires s).timeBase = s.timeBase := by
  have hm := enterSleep_monitor s
  exact timeBase_ite (timeBase_ite rfl
    ((enterSleep_changes s).timeBase_of_counts (by rw [hm]) (by rw [hm]) (by rw [hm]))) rfl

theorem endWakeSettle_timeBase (s : State) : (endWakeSettle s).timeBase = s.timeBase :=
  timeBase_ite (((evaluateStart_quiet _).timeBase (evaluateStart_changes _)).trans
    ((childWake_changes (wokeUp s)).timeBase.trans ((wokeUp_changes s).timeBase_of_counts rfl rfl rfl))) rfl

/-! ### Rows and the row line -/

theorem rowArrives_timeBase (r : Row) (s : State) : (rowArrives r s).timeBase = s.timeBase :=
  have hq : Quiet s (rowArrives r s) := quiet_ite ((((((changes_onRow s r _).quiet.andThen (notify_quiet _ _)).andThen
    (evaluateRow_changes r s _).quiet).andThen (publish_quiet _)).andThen
    (quiet_forEach (evaluateLists_quiet false) _ _)).andThen (endWithBatch_quiet _)) (Quiet.refl s)
  hq.timeBase (rowArrives_changes r s)

theorem settleExpires_timeBase (r : Row) (s : State) : (settleExpires r s).timeBase = s.timeBase := by
  unfold settleExpires
  split
  · exact timeBase_ite (changes_onRow s r _).timeBase ((endWithBatch_timeBase _).trans
      ((enterFailed_quiet r _ s).timeBase (enterFailed_changes r _ s)))
  · exact (endWithBatch_timeBase _).trans ((evaluateRow_changes r s _).timeBase.trans (changes_onRow s r _).timeBase)
  · rfl

theorem exchangeTimesOut_timeBase (s : State) : (exchangeTimesOut s).timeBase = s.timeBase := by
  unfold exchangeTimesOut
  split
  · rfl
  · exact (endWithBatch_timeBase _).trans
      (((exchangeFails_quiet _ _).timeBase (exchangeFails_changes _ _)).trans (endExchange_changes s).timeBase)

theorem slotExpires_timeBase (s : State) : (slotExpires s).timeBase = s.timeBase := by
  unfold slotExpires
  split
  · exact (takeSlot_changes _).timeBase.trans (exchangeTimesOut_timeBase s)
  · rfl
  · rfl

theorem tagReadTimesOut_timeBase (r : Row) (s : State) : (tagReadTimesOut r s).timeBase = s.timeBase := by
  unfold tagReadTimesOut
  split
  · rfl
  · exact timeBase_ite ((endWithBatch_timeBase _).trans ((evaluateEvidence_changes _ _).timeBase.trans
      (completeRead_changes r _ _ s).timeBase)) rfl

theorem rowExpiries_timeBase (r : Row) (s : State) : (rowExpiries r s).timeBase = s.timeBase :=
  (timeBase_whenTrue (fun t => (stabilityExpires_changes r t).timeBase) _).trans <|
    (timeBase_whenTrue (fun t => (powerOffExpires_changes r t).timeBase) _).trans <|
      (timeBase_whenTrue (settleExpires_timeBase r) _).trans (timeBase_whenTrue (rowArrives_timeBase r) s)

/-! ### Positions, the lock and the Body Port -/

theorem goStale_timeBase (p : Pos) (s : State) : (goStale p s).timeBase = s.timeBase :=
  (endWithBatch_timeBase _).trans ((evaluate_changes false p _).timeBase.trans (changes_onLoad s p _).timeBase)

theorem delayRunsOut_timeBase (p : Pos) (s : State) : (delayRunsOut p s).timeBase = s.timeBase :=
  timeBase_ite ((endEvent_changes _).timeBase.trans (enterVisual_changes p s).timeBase) rfl

theorem audibleRunsOut_timeBase (p : Pos) (s : State) : (audibleRunsOut p s).timeBase = s.timeBase :=
  timeBase_ite ((endEvent_changes _).timeBase.trans (silence_changes p 1 s).timeBase) rfl

theorem positionExpiries_timeBase (p : Pos) (s : State) : (positionExpiries p s).timeBase = s.timeBase :=
  (timeBase_whenTrue (audibleRunsOut_timeBase p) _).trans <| (timeBase_whenTrue (delayRunsOut_timeBase p) _).trans <|
    (timeBase_whenTrue (fun t => (scanExpires_changes p t.monitor.now t).timeBase) _).trans
      (timeBase_whenTrue (goStale_timeBase p) s)

theorem holdExpires_timeBase (s : State) : (holdExpires s).timeBase = s.timeBase :=
  have hq : Quiet s (releaseLock s) :=
    ((publishBatch_quiet _ s).andThen (changes_onPub _ _).quiet).andThen (afterVanChange_quiet _ _)
  timeBase_ite ((endEvent_changes _).timeBase.trans (hq.timeBase (releaseLock_changes s))) rfl

theorem bodyExpiries_timeBase (s : State) : (bodyExpiries s).timeBase = s.timeBase :=
  (timeBase_whenTrue (fun t => (mapExpires_changes t).timeBase) _).trans <|
    (timeBase_whenTrue (fun t => (degradeExpires_changes t).timeBase) _).trans
      (timeBase_whenTrue (fun t => (freshnessExpires_changes t).timeBase) s)

/-! ### The expiries of a tick, and the tick -/

theorem periodExpiries_timeBase (chime flash : Bool) (s : State) :
    (periodExpiries chime flash s).timeBase = s.timeBase := by
  cases chime <;> cases flash <;> rfl

theorem monitorExpiries_timeBase (s : State) : (monitorExpiries s).timeBase = s.timeBase.countSecond := by
  refine (timeBase_whenTrue ignSettles_timeBase _).trans ?_
  unfold whenTrue TimeBase.countSecond
  by_cases h : s.monitor.subSecond = 0
  · rw [if_pos (beq_iff_eq.mpr h), if_pos (show s.timeBase.subSecond = 0 from h)]
    rfl
  · rw [if_neg (mt beq_iff_eq.mp h), if_neg (show ¬ s.timeBase.subSecond = 0 from h)]

theorem lateExpiries_timeBase (s : State) : (lateExpiries s).timeBase = s.timeBase :=
  (timeBase_whenTrue endWakeSettle_timeBase _).trans <|
    (timeBase_whenTrue restExpires_timeBase _).trans (timeBase_whenTrue setHold_timeBase s)

/-- Of all the expiries the second's alone moves the time base (R171). -/
theorem takeExpiries_timeBase (chime flash : Bool) (s : State) :
    (takeExpiries chime flash s).timeBase = s.timeBase.countSecond :=
  calc (takeExpiries chime flash s).timeBase
    _ = (forEach allRows rowExpiries (monitorExpiries (periodExpiries chime flash s))).timeBase :=
      (lateExpiries_timeBase _).trans <| (bodyExpiries_timeBase _).trans <|
        (timeBase_whenTrue holdExpires_timeBase _).trans <| (timeBase_forEach positionExpiries_timeBase _ _).trans <|
          (timeBase_forEach (fun r t => timeBase_whenTrue (tagReadTimesOut_timeBase r) t) _ _).trans
            (timeBase_whenTrue slotExpires_timeBase _)
    _ = (monitorExpiries (periodExpiries chime flash s)).timeBase := timeBase_forEach rowExpiries_timeBase _ _
    _ = s.timeBase.countSecond := by rw [monitorExpiries_timeBase, periodExpiries_timeBase]

theorem tick_timeBase {s : State} (h : s.monitor.inReset = false) :
    (tick s).timeBase = (countTimers s).timeBase.countSecond := by
  unfold tick
  rw [if_neg (ne_true_of_eq_false h), takeExpiries_timeBase]

/-- A supply below 7.0 V for 1 ms is low (R173). -/
theorem Supply.count_dipping (n : Nat) :
    (if (Supply.dipping n).count = .dipping 0 then .low else (Supply.dipping n).count)
      = if n ≤ 1 then .low else .dipping (n - 1) :=
  if_congr (by rw [Supply.count, Supply.dipping.injEq, Nat.sub_eq_zero_iff_le]) rfl rfl

theorem tick_inReset {s : State} (h : s.monitor.inReset = true) {u : Supply}
    (hu : (if s.monitor.supply.count = .dipping 0 then .low else s.monitor.supply.count) = u) :
    tick s = { s with monitor := { s.monitor with supply := u } } := by
  subst hu
  exact if_pos h

theorem step_idle {s : State} (h : s.pending = []) : step s = .next (tick s) := by
  unfold step
  rw [h]

end Sys2Proof.Machine

namespace Sys2Proof.Certificates

open Sys2Proof.Machine

/-- Settles O2: in reset the supply alone counts; elsewhere the count moves the time base, and of the expiries that follow
the second's alone moves it further. -/
theorem idleStepsCountTime : Obligations.IdleStepsCountTime := by
  intro s hq
  refine ⟨fun hr => ?held, fun hr => ⟨_, step_idle hq, ?counting⟩⟩
  case held =>
    refine (step_idle hq).trans (congrArg Host.Outcome.next (tick_inReset hr ?_))
    cases s.monitor.supply with
    | normal => rfl
    | dipping n => exact Supply.count_dipping n
    | low => rfl
  case counting =>
    injection tick_timeBase hr with hnow hsub hseconds hstraps hpins hpending
    exact ⟨hnow, hsub, hseconds, hstraps, hpins, hpending.trans hq⟩

end Sys2Proof.Certificates
end

section
/-! PROOFS. The step's first branch, and the queue that every command leaves (assumptions 15, 19, 28). -/

namespace Sys2Proof.Machine

theorem step_command {s : State} {c : Instr} {rest : List Instr} (h : s.pending = c :: rest) :
    step s = exec c { s with pending := rest } := by
  unfold step
  rw [h]

/-! ### The queue through the guards that commands share -/

theorem pending_ite {s t u : State} {c : Prop} [Decidable c] (h1 : t.pending = s.pending) (h2 : u.pending = s.pending) :
    (if c then t else u).pending = s.pending := by
  split
  · exact h1
  · exact h2

theorem pending_of_timeBase {s t : State} (h : t.timeBase = s.timeBase) : t.pending = s.pending :=
  congrArg TimeBase.pending h

section
variable {f : State → State}

theorem pending_outsideReset (s : State) (h : (f s).pending = s.pending) : (outsideReset s f).pending = s.pending :=
  pending_ite rfl h

theorem takeFrame_pending (s : State) (h : (f s).pending = s.pending) : (takeFrame f s).pending = s.pending :=
  pending_outsideReset s (pending_ite (wake_changes s).pending (pending_ite rfl h))

/-- Noting the request and refusing it while the ready mark is clear write the restraint port alone. -/
theorem takeRequest_pending (c a : Byte) (s : State) (h : ∀ t, (f t).pending = t.pending) :
    (takeRequest c a f s).pending = s.pending :=
  takeFrame_pending s (pending_ite (h _) (respond_changes _ _).pending)

theorem receive_pending (s : State) (h : (f s).pending = s.pending) : (receive f s).pending = s.pending :=
  pending_outsideReset s (pending_ite (wake_changes s).pending (pending_ite rfl h))

theorem takeService_pending (k : Byte) (l : List Byte) (s : State) (h : ∀ t, (f t).pending = t.pending) :
    (takeService k l f s).pending = s.pending :=
  have hr : (restartRest s).pending = s.pending := (restartRest_changes s).pending
  receive_pending s <| pending_ite hr <| pending_ite
    ((arbitrate_changes _).pending.trans ((h _).trans hr))
    ((arbitrate_changes _).pending.trans ((sendReply_changes _ _).pending.trans hr))

end

/-! ### The operations that the commands run -/

theorem answerPosition_changes (a : Byte) (s : State) : ChangesOnly [.monitor, .port] s (answerPosition a s) := by
  unfold answerPosition
  split <;> exact respond_changes _ s

theorem answerLock_changes (a : Byte) (s : State) :
    ChangesOnly [.monitor, .pub, .rem, .cadence, .port, .body] s (answerLock a s) :=
  changesOnly_ite (takeLock_respond_changes _ _ s) (respond_changes _ s).widen

theorem ageRunsOut_changes (p : Pos) (s : State) : ChangesOnly staleBlocks s (ageRunsOut p s) :=
  changesOnly_ite ((changes_onLoad s p _).widen.andThen (goStale_changes p _)) (ChangesOnly.refl _ s)

theorem outenRises_changes (s : State) : ChangesOnly [.pins, .cadence] s (outenRises s) :=
  have h : ChangesOnly [.pins, .cadence] s (s.onPins (fun u => { u with outen := true })) := (changes_onPins s _).widen
  changesOnly_ite (ChangesOnly.refl _ s) (changesOnly_ite (h.andThen (changes_onCadence _ _)) h)

theorem writeCompletes_changes (o : WriteOutcome) (s : State) : ChangesOnly completionBlocks s (writeCompletes o s) := by
  unfold writeCompletes
  split
  · exact ChangesOnly.refl _ s
  · cases o with
    | readBackAsWritten => exact writeSucceeds_changes _ s
    | notAcknowledged | headerFailed | readbackMismatch => exact (writeFails_changes _ _ s).widen

/-! ### The commands -/

/-- Every arm of `exec` is `.next` of an operation that leaves the queue; reset copies it. -/
theorem exec_pending (c : Instr) (s : State) : ∃ t, exec c s = .next t ∧ t.pending = s.pending := by
  cases c with refine ⟨_, rfl, ?_⟩
  | reset cause straps => rfl
  | resetRelease => exact (releaseReset_changes s).pending
  | autoloadEnd answer => exact pending_outsideReset s (autoloadEnds_changes answer s).pending
  | ignLineChange high => exact (ignLineChanges_changes high s).pending
  | ignAsserted => exact pending_outsideReset s (ignAsserts_changes s).pending
  | ignDeasserted => exact pending_outsideReset s (ignDeasserts_changes s).pending
  | holdSet => exact (setHold_changes s).pending
  | holdCleared => exact (clearHold_changes s).pending
  | supplyBelowHoldThreshold edge => exact (supplyEdge_changes edge s).pending
  | restTimerExpiry => exact pending_outsideReset s (restExpires_changes s).pending
  | wakeEvent source => exact pending_outsideReset s (takeWakeEvent_changes source s).pending
  | endOfWakeSettle => exact pending_outsideReset s (pending_of_timeBase (endWakeSettle_timeBase s))
  | secondsCountTick => exact pending_outsideReset s (secondsTick_changes s).pending
  | slotTimerExpiry => exact (slotExpires_changes s).pending
  | responseWindowExpiry => exact (exchangeTimesOut_changes s).pending
  | sampleAnswer bytes | readIdAnswer bytes | readRegAnswer bytes | writeRegAnswer bytes =>
    exact (answerCompletes_changes bytes s).pending
  | senseMated row => exact (senseBecomesMated_changes row s).pending
  | rowArrival row => exact (rowArrives_changes row s).pending
  | rowRemoval row | matingDebounceStop row => exact (senseReadsUnmated_changes row s).pending
  | powerSettleExpiry row => exact (settleExpires_changes row s).pending
  | powerOffTimerExpiry row => exact (powerOffExpires_changes row s).pending
  | onlineStabilityTimerExpiry row => exact (stabilityExpires_changes row s).pending
  | positionBecomesStale pos => exact (ageRunsOut_changes pos s).pending
  | scanTimerExpiry pos moment => exact (scanExpires_changes pos moment s).pending
  | tagReadTimerExpiry row => exact pending_of_timeBase (tagReadTimesOut_timeBase row s)
  | delayTimerExpiry pos => exact pending_of_timeBase (delayRunsOut_timeBase pos s)
  | audibleTimerExpiry pos => exact pending_of_timeBase (audibleRunsOut_timeBase pos s)
  | chimePeriodEnd | flashPeriodEnd | cadenceOnPartEnd => exact (changes_onCadence s _).pending
  | outenAsserted => exact (outenRises_changes s).pending
  | outenDeasserted => exact (changes_onCadence _ _).pending.trans (changes_onPins s _).pending
  | nop arg | getFront arg | getStatus arg | unknownCommand _ arg =>
    exact takeRequest_pending _ arg s (fun t => (respond_changes _ t).pending)
  | getPosition arg => exact takeRequest_pending _ arg s (fun t => (answerPosition_changes arg t).pending)
  | lock arg => exact takeRequest_pending _ arg s (fun t => (answerLock_changes arg t).pending)
  | unlock arg => exact takeRequest_pending _ arg s (fun t => (answerUnlock_changes t).pending)
  | frameError => exact takeFrame_pending s (respond_changes _ s).pending
  | lockHoldTimerExpiry => exact (holdExpires_changes s).pending
  | vehicleState speed gear closures => exact receive_pending s (takeVehicleState_changes speed gear closures s).pending
  | mapRequest => exact receive_pending s (takeMapRequest_changes s).pending
  | reminderAck mask => exact receive_pending s (takeAck_changes mask s).pending
  | freshnessTimerExpiry => exact (freshnessExpires_changes s).pending
  | degradeTimerExpiry => exact (degradeExpires_changes s).pending
  | mapTimerExpiry => exact (mapExpires_changes s).pending
  | readParam id value => exact takeService_pending _ _ s (fun t => (answerReadParam_changes id value t).pending)
  | writeParam id value => exact takeService_pending _ _ s (fun t => (answerWriteParam_changes id value t).pending)
  | clearChildList => exact takeService_pending _ _ s (fun t => (answerClear_changes t).pending)
  | readChildEntry index => exact takeService_pending _ _ s (fun t => (answerReadEntry_changes index t).pending)
  | readRow row => exact takeService_pending _ _ s (fun t => (answerReadRow_changes row t).pending)
  | unknownServiceRequest kind => exact takeService_pending kind _ s (fun t => (sendReply_changes _ t).pending)
  | writeCompletion outcome => exact (writeCompletes_changes outcome s).pending
  | transmitAcknowledged => exact (transmitAcked_changes s).pending
  | busOff => exact pending_outsideReset s (busGoesOff_changes s).pending
  | busOffRecovery => exact (busRecovers_changes s).pending

end Sys2Proof.Machine

namespace Sys2Proof.Certificates

open Sys2Proof.Machine

/-- Settles O1: the step on a queue with a command in front is its first branch. -/
theorem stepRunsTheFrontCommand : Obligations.StepRunsTheFrontCommand := fun _ _ _ => step_command

/-- Settles O3: each command is one operation, and the queue is outside the blocks it can change. -/
theorem everyCommandAnswers : Obligations.EveryCommandAnswers := exec_pending

end Sys2Proof.Certificates
end
